-- ==== Sys2Proof/Word.lean ====
section
/-! DEFINITION. The words of the NX9 and the sparse table in which the model keeps every register file and memory. -/

namespace Sys2Proof

/-- One byte. -/
abbrev Byte := BitVec 8

/-- One slot word of a bundle (R55). -/
abbrev SlotWord := BitVec 32

/-- One scalar register value (R67). -/
abbrev Scalar := BitVec 64

/-- One row of 96 bytes, byte 0 lowest (R69). -/
abbrev Row := BitVec 768

/-- One bundle of 32 bytes, byte 0 lowest (R55). -/
abbrev Bundle := BitVec 256

/-- One accumulator row of 256 bytes (R71). -/
abbrev AccRow := BitVec 2048

/-- The six sticky flags of Table 3.6, bit for bit. -/
abbrev Flags := BitVec 6

/-- A table with a default: keys strictly rising, no entry equal to the default. -/
abbrev Table (α : Type) := List (Nat × α)

end Sys2Proof
end

