-- ==== Sys2Proof/Syntax.lean ====
section
/-! DEFINITION. The instructions and events of the NX9: one constructor per row of the opcode table.

A slot word's operands are its fields, each a bit vector of the field's width. A V-slot word also says which of the two V
slots it stands in, because V0 and V1 share one format (R321). An event's operands say which tile, gang, thread, command or
register it concerns, and what came from outside the device. -/

namespace Sys2Proof

/-- The eight slots of a bundle, by engine (Table 3.1). -/
inductive Slot where
  | c | a | v0 | v1 | m | d | x | f
  deriving DecidableEq, Repr

/-- Which of the two vector slots a V word stands in. -/
inductive VSlot where
  | v0 | v1
  deriving DecidableEq, Repr

/-- The two parts of a barge piece: it reads before it writes (R215). -/
inductive PiecePart where
  | reads | writes
  deriving DecidableEq, Repr

/-- The two moments of a walk: it notes the shoot-down counter and reads the table, then checks and fills (R202). -/
inductive WalkPart where
  | begins | fills
  deriving DecidableEq, Repr

/-- The parts of the boot flash that the board rewrites (R302, R305, R306). -/
inductive FlashPart where
  | slotA | slotB | marker0 | marker1
  deriving DecidableEq, Repr

/-- What a lock crossing carries in one unit (R250): a row with its route and poison tag when valid, whether the unit's flit was
correctable, and its sideband events with the number, 0 to 2, of the copy that the unit holds: a barrier arrival (barrier, count,
copy), and a hold of the gang in another package (copy). `eventLost` says that an event was lost in every copy. `stretch` is the
clock stretch that the other packages of the lock group request for this cycle (R249): 0 none, 1 of 1.5 periods, 2 of 2 periods. -/
structure CrossingUnit where
  valid : Bool
  route : BitVec 6
  row : Row
  poison : Bool
  correctable : Bool
  arrival : Option (Nat × Nat × Nat)
  hold : Option Nat
  eventLost : Bool
  stretch : Nat
  deriving DecidableEq, Repr

/-- The memories outside the tiles; a peer is named by its fabric address, 256·c0 + 16·c1 + c2 (R253), and host memory by the PASID with
which a request to it is tagged (Table 12.1, R270). -/
inductive MemSpace where
  | reservoir | host (pasid : Nat) | queueSram | peer (n : Nat)
  deriving DecidableEq, Repr

/-- The memories that an agent on the Sarpol fabric reaches (Table 9.1): this device's reservoir, the host memory of a PASID, and a peer's
reservoir. -/
inductive FabricSpace where
  | reservoir | host (pasid : Nat) | peer (n : Nat)
  deriving DecidableEq, Repr

/-- A write that a Sarpol flit carries into a memory (R230, R254). -/
structure FlitWrite where
  space : FabricSpace
  addr : Nat
  bytes : List Byte
  deriving DecidableEq, Repr

/-- A Sarpol flit as it arrives (Table 11.3): the number of wrong bytes that its FEC parity finds, the 6-byte header, the 240-byte
payload and the CRC field as FEC leaves them, and the write that the payload carries, if it carries one. -/
structure Flit where
  header : List Byte
  payload : List Byte
  crc : BitVec 32
  wrongBytes : Nat
  write : Option FlitWrite
  deriving DecidableEq, Repr

/-- A watchdog: that of a Lockkeeper thread or of an MMP core (R297). -/
inductive Watchdog where
  | thread (n : Nat)
  | core (n : Nat)
  deriving DecidableEq, Repr

/-- A tensor as system software creates it (R180). -/
structure TensorSpec where
  number : Nat
  fmt : BitVec 4
  shape : List Nat
  tile : List Nat
  host : Bool
  deriving DecidableEq, Repr

/-- What a new job has: the fabric address of each peer number that it maps (R253), and its tensors (R180). -/
structure JobTables where
  peers : List (Nat × Nat)
  tensors : List TensorSpec
  deriving DecidableEq, Repr

/-- A gang that starts, and the staging image that the set-up of its launch has placed in every task, as runs of bytes (R26, R342). -/
structure GangSetup where
  gid : Nat
  image : List (Nat × List Byte)
  deriving DecidableEq, Repr

/-- The instructions and events of the device. -/
inductive Instr where
  /-- NOP: All-zero slot word that has no effect and writes no latch. (R393) -/
  | nop
  /-- BR: Branch to a bundle index on the next cycle. (R362) -/
  | br (t : BitVec 12) (p : BitVec 3)
  /-- BRP: Branch when a tested logical predicate reads 1. (R364) -/
  | brp (t : BitVec 12) (q : BitVec 3) (p : BitVec 3)
  /-- CALL: Push PC + 1 on the return stack and branch. (R367) -/
  | call (t : BitVec 12) (p : BitVec 3)
  /-- RET: Pop the return stack and branch to the popped index. (R401) -/
  | ret (p : BitVec 3)
  /-- LOOP: Decrement LC and branch while LC stays above zero. (R381) -/
  | loop (t : BitVec 12) (p : BitVec 3)
  /-- LOOPR: Rotating loop-back that steps LC, RRB, AWB and the stage predicates. (R382) -/
  | loopr (t : BitVec 12) (s : BitVec 2) (w : BitVec 9) (p : BitVec 3)
  /-- WAITB: Arrive at a named barrier and wait for its phase to complete. (R445) -/
  | waitb (b : BitVec 11) (c : BitVec 12) (p : BitVec 3)
  /-- ARRB: Arrive at a named barrier without waiting. (R352) -/
  | arrb (b : BitVec 11) (c : BitVec 12) (p : BitVec 3)
  /-- WAITT: Wait until a token's completion word leaves pending. (R448) -/
  | waitt (k : BitVec 6) (p : BitVec 3)
  /-- WAITP: Wait until a token's write pointer reaches a byte count or the command ends. (R447) -/
  | waitp (k : BitVec 6) (s : BitVec 6) (p : BitVec 3)
  /-- TRIG: Mark the task for triggering its early-edge dependants. (R427) -/
  | trig (p : BitVec 3)
  /-- END: End issue of the task in a gap. (R372) -/
  | endTask (p : BitVec 3)
  /-- SEG: Open a segment, capture the expected count and signature, and clear the latches. (R408) -/
  | seg (e : BitVec 6) (g : BitVec 6) (m : BitVec 1) (p : BitVec 3)
  /-- SEGE: Close a segment and compare its cycle count and signature. (R410) -/
  | sege (p : BitVec 3)
  /-- IFENCE: Discard prefetched bundles so that later fetches see observed code copies. (R376) -/
  | ifence (p : BitVec 3)
  /-- SNAP: Request a job-scope generation cut. (R226) -/
  | snap (p : BitVec 3)
  /-- GENQ: Report the state and undrained row count of a generation. (R238) -/
  | genq (d : BitVec 6) (a : BitVec 6) (p : BitVec 3)
  /-- BRK: Breakpoint that takes effect and then requests a trap hold with CAUSE 9. (R363) -/
  | brk (c : BitVec 8) (p : BitVec 3)
  /-- TRAP: Program trap that takes effect and then requests a trap hold with CAUSE 10. (R426) -/
  | trap (c : BitVec 8) (p : BitVec 3)
  /-- PAND: AND of two logical predicates into a predicate. (R395) -/
  | pand (d : BitVec 3) (a : BitVec 3) (b : BitVec 3) (p : BitVec 3)
  /-- POR: OR of two logical predicates into a predicate. (R395) -/
  | por (d : BitVec 3) (a : BitVec 3) (b : BitVec 3) (p : BitVec 3)
  /-- PXOR: XOR of two logical predicates into a predicate. (R395) -/
  | pxor (d : BitVec 3) (a : BitVec 3) (b : BitVec 3) (p : BitVec 3)
  /-- PNOT: Inverse of a logical predicate into a predicate. (R395) -/
  | pnot (d : BitVec 3) (a : BitVec 3) (p : BitVec 3)
  /-- ADD: 64-bit wrapping scalar add. (R350) -/
  | add (d : BitVec 6) (a : BitVec 6) (b : BitVec 6) (p : BitVec 3)
  /-- SUB: 64-bit wrapping scalar subtract. (R425) -/
  | sub (d : BitVec 6) (a : BitVec 6) (b : BitVec 6) (p : BitVec 3)
  /-- AND: Scalar bitwise AND. (R350) -/
  | andS (d : BitVec 6) (a : BitVec 6) (b : BitVec 6) (p : BitVec 3)
  /-- OR: Scalar bitwise OR. (R394) -/
  | orS (d : BitVec 6) (a : BitVec 6) (b : BitVec 6) (p : BitVec 3)
  /-- XOR: Scalar bitwise exclusive OR. (R450) -/
  | xorS (d : BitVec 6) (a : BitVec 6) (b : BitVec 6) (p : BitVec 3)
  /-- SHL: Scalar logical shift left. (R414) -/
  | shl (d : BitVec 6) (a : BitVec 6) (b : BitVec 6) (p : BitVec 3)
  /-- SHR: Scalar logical shift right. (R414) -/
  | shr (d : BitVec 6) (a : BitVec 6) (b : BitVec 6) (p : BitVec 3)
  /-- SRA: Scalar arithmetic shift right. (R414) -/
  | sra (d : BitVec 6) (a : BitVec 6) (b : BitVec 6) (p : BitVec 3)
  /-- MUL: Low 64 bits of a scalar product. (R391) -/
  | mul (d : BitVec 6) (a : BitVec 6) (b : BitVec 6) (p : BitVec 3)
  /-- MULH: High 64 bits of a signed scalar product. (R391) -/
  | mulh (d : BitVec 6) (a : BitVec 6) (b : BitVec 6) (p : BitVec 3)
  /-- MULHU: High 64 bits of an unsigned scalar product. (R391) -/
  | mulhu (d : BitVec 6) (a : BitVec 6) (b : BitVec 6) (p : BitVec 3)
  /-- MAX: Signed or unsigned scalar maximum. (R384) -/
  | maxS (d : BitVec 6) (a : BitVec 6) (b : BitVec 6) (s : BitVec 1) (p : BitVec 3)
  /-- MIN: Signed or unsigned scalar minimum. (R384) -/
  | minS (d : BitVec 6) (a : BitVec 6) (b : BitVec 6) (s : BitVec 1) (p : BitVec 3)
  /-- CLZ: Count the leading zero bits of a scalar. (R369) -/
  | clz (d : BitVec 6) (a : BitVec 6) (p : BitVec 3)
  /-- FFS: Index of the lowest set bit of a scalar. (R374) -/
  | ffs (d : BitVec 6) (a : BitVec 6) (p : BitVec 3)
  /-- POPC: Count the set bits of a scalar. (R396) -/
  | popc (d : BitVec 6) (a : BitVec 6) (p : BitVec 3)
  /-- SEL: Select one of two scalars by a predicate. (R411) -/
  | sel (d : BitVec 6) (a : BitVec 6) (b : BitVec 6) (t : BitVec 3) (p : BitVec 3)
  /-- CMP: Compare two scalars into a predicate. (R370) -/
  | cmp (d : BitVec 3) (a : BitVec 6) (b : BitVec 6) (c : BitVec 5) (p : BitVec 3)
  /-- ADDI: Add a sign-extended 11-bit immediate to a scalar. (R351) -/
  | addi (d : BitVec 6) (a : BitVec 6) (i : BitVec 11) (p : BitVec 3)
  /-- LDS: Load a 64-bit scalar from staging. (R378) -/
  | lds (d : BitVec 6) (a : BitVec 6) (i : BitVec 11) (p : BitVec 3)
  /-- STS: Store a 64-bit scalar to staging. (R422) -/
  | sts (v : BitVec 6) (a : BitVec 6) (i : BitVec 11) (p : BitVec 3)
  /-- LI: Load a sign-extended 17-bit immediate. (R380) -/
  | li (d : BitVec 6) (i : BitVec 17) (p : BitVec 3)
  /-- LIH: Shift a scalar left by 17 bits and add a 17-bit immediate. (R380) -/
  | lih (d : BitVec 6) (i : BitVec 17) (p : BitVec 3)
  /-- VADD_F: Element-wise float add, rounded once. (R430) -/
  | vaddF (u : VSlot) (f : BitVec 2) (r : BitVec 3) (d : BitVec 6) (a : BitVec 6) (b : BitVec 6) (p : BitVec 3)
  /-- VSUB_F: Element-wise float subtract, rounded once. (R430) -/
  | vsubF (u : VSlot) (f : BitVec 2) (r : BitVec 3) (d : BitVec 6) (a : BitVec 6) (b : BitVec 6) (p : BitVec 3)
  /-- VMUL_F: Element-wise float multiply, rounded once. (R430) -/
  | vmulF (u : VSlot) (f : BitVec 2) (r : BitVec 3) (d : BitVec 6) (a : BitVec 6) (b : BitVec 6) (p : BitVec 3)
  /-- VFMA: Element-wise fused multiply-add into the destination register. (R430) -/
  | vfma (u : VSlot) (f : BitVec 2) (r : BitVec 3) (d : BitVec 6) (a : BitVec 6) (b : BitVec 6) (p : BitVec 3)
  /-- VMAX_F: Element-wise float maximum. (R432) -/
  | vmaxF (u : VSlot) (f : BitVec 2) (d : BitVec 6) (a : BitVec 6) (b : BitVec 6) (p : BitVec 3)
  /-- VMIN_F: Element-wise float minimum. (R432) -/
  | vminF (u : VSlot) (f : BitVec 2) (d : BitVec 6) (a : BitVec 6) (b : BitVec 6) (p : BitVec 3)
  /-- VCPYS: Copy the sign of one float element onto another. (R432) -/
  | vcpys (u : VSlot) (f : BitVec 2) (d : BitVec 6) (a : BitVec 6) (b : BitVec 6) (p : BitVec 3)
  /-- VCMP_EQ_F: Float equality compare into an element mask. (R433) -/
  | vcmpEqF (u : VSlot) (f : BitVec 2) (d : BitVec 6) (a : BitVec 6) (b : BitVec 6) (p : BitVec 3)
  /-- VCMP_LT_F: Float less-than compare into an element mask. (R433) -/
  | vcmpLtF (u : VSlot) (f : BitVec 2) (d : BitVec 6) (a : BitVec 6) (b : BitVec 6) (p : BitVec 3)
  /-- VCMP_LE_F: Float less-or-equal compare into an element mask. (R433) -/
  | vcmpLeF (u : VSlot) (f : BitVec 2) (d : BitVec 6) (a : BitVec 6) (b : BitVec 6) (p : BitVec 3)
  /-- VABS_F: Clear the sign bit of each float element. (R432) -/
  | vabsF (u : VSlot) (f : BitVec 2) (d : BitVec 6) (a : BitVec 6) (p : BitVec 3)
  /-- VNEG_F: Invert the sign bit of each float element. (R432) -/
  | vnegF (u : VSlot) (f : BitVec 2) (d : BitVec 6) (a : BitVec 6) (p : BitVec 3)
  /-- VRINT: Round each float element to an integral value. (R431) -/
  | vrint (u : VSlot) (f : BitVec 2) (r : BitVec 3) (d : BitVec 6) (a : BitVec 6) (p : BitVec 3)
  /-- VRED_F: Exact float sum of a row into element 0, rounded once. (R434) -/
  | vredF (u : VSlot) (f : BitVec 2) (r : BitVec 3) (d : BitVec 6) (a : BitVec 6) (p : BitVec 3)
  /-- VSCALE: Scale each float element by a power of two. (R443) -/
  | vscale (u : VSlot) (f : BitVec 2) (r : BitVec 3) (d : BitVec 6) (a : BitVec 6) (b : BitVec 6) (p : BitVec 3)
  /-- VRCP: Element-wise reciprocal. (R435) -/
  | vrcp (u : VSlot) (f : BitVec 2) (r : BitVec 3) (d : BitVec 6) (a : BitVec 6) (p : BitVec 3)
  /-- VSQRT: Element-wise square root. (R435) -/
  | vsqrt (u : VSlot) (f : BitVec 2) (r : BitVec 3) (d : BitVec 6) (a : BitVec 6) (p : BitVec 3)
  /-- VRSQ: Element-wise reciprocal square root. (R435) -/
  | vrsq (u : VSlot) (f : BitVec 2) (r : BitVec 3) (d : BitVec 6) (a : BitVec 6) (p : BitVec 3)
  /-- VEXP2: Element-wise base-2 exponential. (R435) -/
  | vexp2 (u : VSlot) (f : BitVec 2) (r : BitVec 3) (d : BitVec 6) (a : BitVec 6) (p : BitVec 3)
  /-- VLOG2: Element-wise base-2 logarithm. (R435) -/
  | vlog2 (u : VSlot) (f : BitVec 2) (r : BitVec 3) (d : BitVec 6) (a : BitVec 6) (p : BitVec 3)
  /-- VSIN: Element-wise sine. (R435) -/
  | vsin (u : VSlot) (f : BitVec 2) (r : BitVec 3) (d : BitVec 6) (a : BitVec 6) (p : BitVec 3)
  /-- VCOS: Element-wise cosine. (R435) -/
  | vcos (u : VSlot) (f : BitVec 2) (r : BitVec 3) (d : BitVec 6) (a : BitVec 6) (p : BitVec 3)
  /-- VTANH: Element-wise hyperbolic tangent. (R435) -/
  | vtanh (u : VSlot) (f : BitVec 2) (r : BitVec 3) (d : BitVec 6) (a : BitVec 6) (p : BitVec 3)
  /-- VADD_I: Element-wise integer add, wrapped or saturated. (R438) -/
  | vaddI (u : VSlot) (w : BitVec 3) (s : BitVec 1) (d : BitVec 6) (a : BitVec 6) (b : BitVec 6) (p : BitVec 3)
  /-- VSUB_I: Element-wise integer subtract, wrapped or saturated. (R438) -/
  | vsubI (u : VSlot) (w : BitVec 3) (s : BitVec 1) (d : BitVec 6) (a : BitVec 6) (b : BitVec 6) (p : BitVec 3)
  /-- VMUL_I: Element-wise integer multiply, wrapped or saturated. (R438) -/
  | vmulI (u : VSlot) (w : BitVec 3) (s : BitVec 1) (d : BitVec 6) (a : BitVec 6) (b : BitVec 6) (p : BitVec 3)
  /-- VMULH: High half of each element-wise integer product. (R438) -/
  | vmulh (u : VSlot) (w : BitVec 3) (d : BitVec 6) (a : BitVec 6) (b : BitVec 6) (p : BitVec 3)
  /-- VMAX_I: Element-wise integer maximum. (R438) -/
  | vmaxI (u : VSlot) (w : BitVec 3) (d : BitVec 6) (a : BitVec 6) (b : BitVec 6) (p : BitVec 3)
  /-- VMIN_I: Element-wise integer minimum. (R438) -/
  | vminI (u : VSlot) (w : BitVec 3) (d : BitVec 6) (a : BitVec 6) (b : BitVec 6) (p : BitVec 3)
  /-- VAND: Element-wise bitwise AND. (R439) -/
  | vand (u : VSlot) (w : BitVec 3) (d : BitVec 6) (a : BitVec 6) (b : BitVec 6) (p : BitVec 3)
  /-- VOR: Element-wise bitwise OR. (R439) -/
  | vor (u : VSlot) (w : BitVec 3) (d : BitVec 6) (a : BitVec 6) (b : BitVec 6) (p : BitVec 3)
  /-- VXOR: Element-wise bitwise XOR. (R439) -/
  | vxor (u : VSlot) (w : BitVec 3) (d : BitVec 6) (a : BitVec 6) (b : BitVec 6) (p : BitVec 3)
  /-- VSHL: Element-wise shift left. (R439) -/
  | vshl (u : VSlot) (w : BitVec 3) (d : BitVec 6) (a : BitVec 6) (b : BitVec 6) (p : BitVec 3)
  /-- VSHR: Element-wise logical or arithmetic shift right. (R439) -/
  | vshr (u : VSlot) (w : BitVec 3) (d : BitVec 6) (a : BitVec 6) (b : BitVec 6) (p : BitVec 3)
  /-- VABS_I: Element-wise integer absolute value. (R438) -/
  | vabsI (u : VSlot) (w : BitVec 3) (s : BitVec 1) (d : BitVec 6) (a : BitVec 6) (p : BitVec 3)
  /-- VNEG_I: Element-wise integer negation. (R438) -/
  | vnegI (u : VSlot) (w : BitVec 3) (s : BitVec 1) (d : BitVec 6) (a : BitVec 6) (p : BitVec 3)
  /-- VCLZ: Element-wise leading-zero count. (R440) -/
  | vclz (u : VSlot) (w : BitVec 3) (d : BitVec 6) (a : BitVec 6) (p : BitVec 3)
  /-- VFFS: Element-wise index of the lowest set bit. (R440) -/
  | vffs (u : VSlot) (w : BitVec 3) (d : BitVec 6) (a : BitVec 6) (p : BitVec 3)
  /-- VPOPC: Element-wise population count. (R440) -/
  | vpopc (u : VSlot) (w : BitVec 3) (d : BitVec 6) (a : BitVec 6) (p : BitVec 3)
  /-- VCMP_EQ_I: Integer equality compare into an element mask. (R433) -/
  | vcmpEqI (u : VSlot) (w : BitVec 3) (d : BitVec 6) (a : BitVec 6) (b : BitVec 6) (p : BitVec 3)
  /-- VCMP_LT_I: Integer less-than compare into an element mask. (R433) -/
  | vcmpLtI (u : VSlot) (w : BitVec 3) (d : BitVec 6) (a : BitVec 6) (b : BitVec 6) (p : BitVec 3)
  /-- VCMP_LE_I: Integer less-or-equal compare into an element mask. (R433) -/
  | vcmpLeI (u : VSlot) (w : BitVec 3) (d : BitVec 6) (a : BitVec 6) (b : BitVec 6) (p : BitVec 3)
  /-- VRED_I: Integer sum of a row into element 0, wrapped or saturated. (R434) -/
  | vredI (u : VSlot) (w : BitVec 3) (s : BitVec 1) (d : BitVec 6) (a : BitVec 6) (p : BitVec 3)
  /-- VMAXE: Element-wise signed maximum of exponent elements. (R442) -/
  | vmaxe (u : VSlot) (w : BitVec 3) (d : BitVec 6) (a : BitVec 6) (b : BitVec 6) (p : BitVec 3)
  /-- VEXPS: Split each float element into an exponent or a fraction. (R441) -/
  | vexps (u : VSlot) (w : BitVec 3) (x : BitVec 1) (d : BitVec 6) (a : BitVec 6) (p : BitVec 3)
  /-- VSEL: Select elements of two rows by a mask read from the destination register. (R444) -/
  | vsel (u : VSlot) (w : BitVec 3) (d : BitVec 6) (a : BitVec 6) (b : BitVec 6) (p : BitVec 3)
  /-- VSHUF: Permute the elements of a row by an index row. (R444) -/
  | vshuf (u : VSlot) (w : BitVec 3) (d : BitVec 6) (a : BitVec 6) (b : BitVec 6) (p : BitVec 3)
  /-- VDUP: Broadcast one indexed element across a row. (R444) -/
  | vdup (u : VSlot) (w : BitVec 3) (d : BitVec 6) (a : BitVec 6) (b : BitVec 6) (p : BitVec 3)
  /-- VCVT_FROM_FLOAT: Convert float elements to another format. (R437) -/
  | vcvtFromFloat (u : VSlot) (f : BitVec 2) (r : BitVec 3) (d : BitVec 6) (a : BitVec 6) (g : BitVec 4) (s : BitVec 1) (p : BitVec 3)
  /-- VCVT_FROM_INT: Convert integer elements to a float or integer format. (R437) -/
  | vcvtFromInt (u : VSlot) (w : BitVec 3) (s : BitVec 1) (y : BitVec 1) (d : BitVec 6) (a : BitVec 6) (r : BitVec 3) (g : BitVec 3) (p : BitVec 3)
  /-- VCVT_WIDEN_F8: Exactly widen 8-bit float elements. (R437) -/
  | vcvtWidenF8 (u : VSlot) (f : BitVec 4) (d : BitVec 6) (a : BitVec 6) (g : BitVec 4) (p : BitVec 3)
  /-- MPUSH: Copy a vector row into a matrix latch column. (R389) -/
  | mpush (l : BitVec 2) (c : BitVec 6) (v : BitVec 6) (p : BitVec 3)
  /-- MHAD: Load a latch with a block-diagonal Hadamard matrix over 64 beats. (R388) -/
  | mhad (l : BitVec 2) (o : BitVec 2) (f : BitVec 4) (p : BitVec 3)
  /-- MSTA: Store the leading elements of an accumulator row to staging. (R390) -/
  | msta (w : BitVec 2) (o : BitVec 8) (s : BitVec 6) (k : BitVec 3) (p : BitVec 3)
  /-- MZERO: Clear 1, 2, 4 or 8 accumulator rows and their poison tags. (R392) -/
  | mzero (n : BitVec 2) (o : BitVec 8) (p : BitVec 3)
  /-- MFS: Copy a special register into a scalar register. (R386) -/
  | mfs (n : BitVec 8) (d : BitVec 6) (p : BitVec 3)
  /-- MTS: Write a special register from a scalar register. (R387) -/
  | mts (n : BitVec 8) (s : BitVec 6) (p : BitVec 3)
  /-- MACC_F64: f64 matrix beat into an accumulator row. (R383) -/
  | maccF64 (l : BitVec 2) (w : BitVec 8) (v : BitVec 6) (k : BitVec 3) (r : BitVec 3) (f : BitVec 1) (p : BitVec 3)
  /-- MACC_F32: f32 matrix beat into an accumulator row. (R383) -/
  | maccF32 (l : BitVec 2) (w : BitVec 8) (v : BitVec 6) (k : BitVec 3) (r : BitVec 3) (f : BitVec 1) (p : BitVec 3)
  /-- MACC_F16: f16 matrix beat into an accumulator row. (R383) -/
  | maccF16 (l : BitVec 2) (w : BitVec 8) (v : BitVec 6) (k : BitVec 3) (r : BitVec 3) (f : BitVec 1) (p : BitVec 3)
  /-- MACC_B16: b16 matrix beat into an accumulator row. (R383) -/
  | maccB16 (l : BitVec 2) (w : BitVec 8) (v : BitVec 6) (k : BitVec 3) (r : BitVec 3) (f : BitVec 1) (p : BitVec 3)
  /-- MACC_F8E4: f8e4 matrix beat into an accumulator row. (R383) -/
  | maccF8e4 (l : BitVec 2) (w : BitVec 8) (v : BitVec 6) (k : BitVec 3) (r : BitVec 3) (f : BitVec 1) (p : BitVec 3)
  /-- MACC_F8E5: f8e5 matrix beat into an accumulator row. (R383) -/
  | maccF8e5 (l : BitVec 2) (w : BitVec 8) (v : BitVec 6) (k : BitVec 3) (r : BitVec 3) (f : BitVec 1) (p : BitVec 3)
  /-- MACC_I8: i8 matrix beat into an i32 accumulator row. (R383) -/
  | maccI8 (l : BitVec 2) (w : BitVec 8) (v : BitVec 6) (k : BitVec 3) (f : BitVec 1) (p : BitVec 3)
  /-- MACC_N8: n8 matrix beat into an i32 accumulator row. (R383) -/
  | maccN8 (l : BitVec 2) (w : BitVec 8) (v : BitVec 6) (k : BitVec 3) (f : BitVec 1) (p : BitVec 3)
  /-- MACCA_F64: f64 chained beat taking its A row from an accumulator row. (R125) -/
  | maccaF64 (l : BitVec 2) (w : BitVec 8) (s : BitVec 4) (g : BitVec 2) (k : BitVec 3) (r : BitVec 3) (f : BitVec 1) (p : BitVec 3)
  /-- MACCA_F32: f32 chained beat taking its A row from an accumulator row. (R125) -/
  | maccaF32 (l : BitVec 2) (w : BitVec 8) (s : BitVec 4) (g : BitVec 2) (k : BitVec 3) (r : BitVec 3) (f : BitVec 1) (p : BitVec 3)
  /-- MACCA_F16: f16 chained beat taking its A row from an accumulator row. (R125) -/
  | maccaF16 (l : BitVec 2) (w : BitVec 8) (s : BitVec 4) (g : BitVec 2) (k : BitVec 3) (r : BitVec 3) (f : BitVec 1) (p : BitVec 3)
  /-- MACCA_B16: b16 chained beat taking its A row from an accumulator row. (R125) -/
  | maccaB16 (l : BitVec 2) (w : BitVec 8) (s : BitVec 4) (g : BitVec 2) (k : BitVec 3) (r : BitVec 3) (f : BitVec 1) (p : BitVec 3)
  /-- MACCA_F8E4: f8e4 chained beat taking its A row from an accumulator row. (R125) -/
  | maccaF8e4 (l : BitVec 2) (w : BitVec 8) (s : BitVec 4) (g : BitVec 2) (k : BitVec 3) (r : BitVec 3) (f : BitVec 1) (p : BitVec 3)
  /-- MACCA_F8E5: f8e5 chained beat taking its A row from an accumulator row. (R125) -/
  | maccaF8e5 (l : BitVec 2) (w : BitVec 8) (s : BitVec 4) (g : BitVec 2) (k : BitVec 3) (r : BitVec 3) (f : BitVec 1) (p : BitVec 3)
  /-- MACCA_I8: i8 chained beat taking its A row from an accumulator row. (R125) -/
  | maccaI8 (l : BitVec 2) (w : BitVec 8) (s : BitVec 4) (g : BitVec 2) (k : BitVec 3) (f : BitVec 1) (p : BitVec 3)
  /-- MACCA_N8: n8 chained beat taking its A row from an accumulator row. (R125) -/
  | maccaN8 (l : BitVec 2) (w : BitVec 8) (s : BitVec 4) (g : BitVec 2) (k : BitVec 3) (f : BitVec 1) (p : BitVec 3)
  /-- MDRAIN_F32_F32: Drain an f32 accumulator group to an f32 row. (R385) -/
  | mdrainF32F32 (c : BitVec 2) (w : BitVec 8) (d : BitVec 6) (g : BitVec 3) (r : BitVec 3) (s : BitVec 1) (p : BitVec 3)
  /-- MDRAIN_F32_F16: Drain an f32 accumulator group to an f16 row. (R385) -/
  | mdrainF32F16 (c : BitVec 2) (w : BitVec 8) (d : BitVec 6) (g : BitVec 3) (r : BitVec 3) (s : BitVec 1) (p : BitVec 3)
  /-- MDRAIN_F32_B16: Drain an f32 accumulator group to a b16 row. (R385) -/
  | mdrainF32B16 (c : BitVec 2) (w : BitVec 8) (d : BitVec 6) (g : BitVec 3) (r : BitVec 3) (s : BitVec 1) (p : BitVec 3)
  /-- MDRAIN_F32_F8E4: Drain an f32 accumulator row to an f8e4 row. (R385) -/
  | mdrainF32F8e4 (c : BitVec 2) (w : BitVec 8) (d : BitVec 6) (g : BitVec 3) (r : BitVec 3) (s : BitVec 1) (p : BitVec 3)
  /-- MDRAIN_F32_F8E5: Drain an f32 accumulator row to an f8e5 row. (R385) -/
  | mdrainF32F8e5 (c : BitVec 2) (w : BitVec 8) (d : BitVec 6) (g : BitVec 3) (r : BitVec 3) (s : BitVec 1) (p : BitVec 3)
  /-- MDRAIN_F64_F64: Drain an f64 accumulator group to an f64 row. (R385) -/
  | mdrainF64F64 (c : BitVec 2) (w : BitVec 8) (d : BitVec 6) (g : BitVec 3) (r : BitVec 3) (s : BitVec 1) (p : BitVec 3)
  /-- MDRAIN_F64_F32: Drain an f64 accumulator group to an f32 row. (R385) -/
  | mdrainF64F32 (c : BitVec 2) (w : BitVec 8) (d : BitVec 6) (g : BitVec 3) (r : BitVec 3) (s : BitVec 1) (p : BitVec 3)
  /-- MDRAIN_I32_I32: Drain an i32 accumulator group to an i32 row. (R385) -/
  | mdrainI32I32 (w : BitVec 8) (d : BitVec 6) (g : BitVec 3) (s : BitVec 1) (p : BitVec 3)
  /-- MDRAIN_I32_I16: Drain an i32 accumulator group to an i16 row. (R385) -/
  | mdrainI32I16 (w : BitVec 8) (d : BitVec 6) (g : BitVec 3) (s : BitVec 1) (p : BitVec 3)
  /-- MDRAIN_I32_I8: Drain an i32 accumulator row to an i8 row. (R385) -/
  | mdrainI32I8 (w : BitVec 8) (d : BitVec 6) (g : BitVec 3) (s : BitVec 1) (p : BitVec 3)
  /-- ACT: Activate a vault row for reading. (R348) -/
  | act (c : BitVec 2) (b : BitVec 4) (s : BitVec 6) (p : BitVec 3)
  /-- ACTW: Activate a vault row with write intent, cloning it if a generation needs it. (R348) -/
  | actw (c : BitVec 2) (b : BitVec 4) (s : BitVec 6) (p : BitVec 3)
  /-- RD: Read a vault column into a vector register at tRL. (R398) -/
  | rd (c : BitVec 2) (b : BitVec 4) (l : BitVec 4) (v : BitVec 6) (p : BitVec 3)
  /-- WR: Write a vector row into a vault column of the live row. (R449) -/
  | wr (c : BitVec 2) (b : BitVec 4) (l : BitVec 4) (v : BitVec 6) (p : BitVec 3)
  /-- PRE: Precharge one bank. (R397) -/
  | pre (c : BitVec 2) (b : BitVec 4) (p : BitVec 3)
  /-- PREA: Precharge every active bank of a channel. (R397) -/
  | prea (c : BitVec 2) (p : BitVec 3)
  /-- REF: Refresh every bank of a channel. (R400) -/
  | ref (c : BitVec 2) (p : BitVec 3)
  /-- REFB: Refresh one bank. (R400) -/
  | refb (c : BitVec 2) (b : BitVec 4) (p : BitVec 3)
  /-- SGEN: Generate unipolar streams from n16 elements. (R413) -/
  | sgen (d : BitVec 3) (l : BitVec 2) (c : BitVec 4) (v : BitVec 6) (p : BitVec 3)
  /-- SGENB: Generate bipolar streams from i16 elements. (R413) -/
  | sgenb (d : BitVec 3) (l : BitVec 2) (c : BitVec 4) (v : BitVec 6) (p : BitVec 3)
  /-- SREGEN: Regenerate each lane's count afresh in a new class. (R421) -/
  | sregen (d : BitVec 3) (a : BitVec 3) (l : BitVec 2) (c : BitVec 4) (p : BitVec 3)
  /-- SAND: Bitwise AND of two streams after the class-mask check. (R403) -/
  | sand (d : BitVec 3) (a : BitVec 3) (b : BitVec 3) (l : BitVec 2) (c : BitVec 1) (p : BitVec 3)
  /-- SOR: Bitwise OR of two streams after the class-mask check. (R403) -/
  | sor (d : BitVec 3) (a : BitVec 3) (b : BitVec 3) (l : BitVec 2) (c : BitVec 1) (p : BitVec 3)
  /-- SXOR: Bitwise XOR of two streams after the class-mask check. (R403) -/
  | sxor (d : BitVec 3) (a : BitVec 3) (b : BitVec 3) (l : BitVec 2) (c : BitVec 1) (p : BitVec 3)
  /-- SXNOR: Bitwise XNOR of two streams after the class-mask check. (R403) -/
  | sxnor (d : BitVec 3) (a : BitVec 3) (b : BitVec 3) (l : BitVec 2) (c : BitVec 1) (p : BitVec 3)
  /-- SMUX: Select bits of two streams by a select stream. (R418) -/
  | smux (d : BitVec 3) (a : BitVec 3) (b : BitVec 3) (l : BitVec 2) (c : BitVec 1) (s : BitVec 3) (p : BitVec 3)
  /-- SNOT: Invert every bit of a stream and keep its mask. (R417) -/
  | snot (d : BitVec 3) (a : BitVec 3) (l : BitVec 2) (p : BitVec 3)
  /-- SMOV: Copy a stream register. (R417) -/
  | smov (d : BitVec 3) (a : BitVec 3) (l : BitVec 2) (p : BitVec 3)
  /-- SDLY: Rotate every lane of a stream and move its mask to the delayed classes. (R407) -/
  | sdly (d : BitVec 3) (a : BitVec 3) (l : BitVec 2) (y : BitVec 4) (p : BitVec 3)
  /-- SCNT: Count the ones of each lane into n16 elements. (R406) -/
  | scnt (a : BitVec 3) (l : BitVec 2) (v : BitVec 6) (c : BitVec 1) (p : BitVec 3)
  /-- SCLS: Read a stream register's mask, length and poison into a row. (R405) -/
  | scls (a : BitVec 3) (v : BitVec 6) (p : BitVec 3)
  /-- SLD: Load a stream image from staging. (R415) -/
  | sld (d : BitVec 3) (l : BitVec 2) (s : BitVec 6) (p : BitVec 3)
  /-- SST: Store a stream image and trailer to staging. (R416) -/
  | sst (a : BitVec 3) (l : BitVec 2) (s : BitVec 6) (p : BitVec 3)
  /-- LDV: Load a 96-byte row from staging. (R379) -/
  | ldv (d : BitVec 6) (s : BitVec 6) (o : BitVec 11) (p : BitVec 3)
  /-- STV: Store a 96-byte row to staging. (R423) -/
  | stv (v : BitVec 6) (s : BitVec 6) (o : BitVec 11) (p : BitVec 3)
  /-- SEND: Inject a row on a canal route. (R412) -/
  | send (r : BitVec 6) (v : BitVec 6) (p : BitVec 3)
  /-- RECV: Take a row from a receive latch. (R399) -/
  | recv (d : BitVec 6) (l : BitVec 2) (p : BitVec 3)
  /-- CROUTE: Load the 64-entry route table from staging. (R371) -/
  | croute (s : BitVec 6) (p : BitVec 3)
  /-- BCOPY: Issue a copy of a view between a tensor and staging or instruction SRAM. (R357) -/
  | bcopy (k : BitVec 6) (s : BitVec 6) (t : BitVec 2) (c : BitVec 1) (d : BitVec 1) (p : BitVec 3)
  /-- BGATH: Issue a gather of a view into staging through an index list. (R359) -/
  | bgath (k : BitVec 6) (s : BitVec 6) (t : BitVec 2) (p : BitVec 3)
  /-- BSCAT: Issue a scatter from staging into a tensor through an index list. (R366) -/
  | bscat (k : BitVec 6) (s : BitVec 6) (p : BitVec 3)
  /-- BREDA: Issue a reduce-add of staging elements into tensor elements. (R365) -/
  | breda (k : BitVec 6) (s : BitVec 6) (r : BitVec 3) (a : BitVec 1) (f : BitVec 4) (p : BitVec 3)
  /-- BATOM: Issue a far atomic on one tensor element. (R356) -/
  | batom (k : BitVec 6) (s : BitVec 6) (c : BitVec 2) (o : BitVec 5) (p : BitVec 3)
  /-- BFENCE: Issue a scoped fence over the barge's earlier commands. (R358) -/
  | bfence (k : BitVec 6) (s : BitVec 6) (c : BitVec 2) (p : BitVec 3)
  /-- BMARK: Issue a mark that realigns the barge's read and write queues. (R360) -/
  | bmark (k : BitVec 6) (s : BitVec 6) (p : BitVec 3)
  /-- BSEAL: Issue a seal of a tensor. (R361) -/
  | bseal (k : BitVec 6) (s : BitVec 6) (p : BitVec 3)
  /-- BOPEN: Issue an unseal of a tensor. (R361) -/
  | bopen (k : BitVec 6) (s : BitVec 6) (p : BitVec 3)
  /-- RESULT_LAND: A result in flight reaches its readable cycle, writes its destination and latch, and sets its flags. (R58) -/
  | resultLand (tile : Nat)
  /-- BARRIER_RELEASE: Every task waiting on a completed barrier phase issues its next bundle 24 cycles after the completing arrival. (R32) -/
  | barrierRelease (gid : Nat) (b : Nat)
  /-- WAIT_END: A token or write-pointer wait condition becomes true and the next bundle issues. (R446) -/
  | waitEnd (tile : Nat)
  /-- HOLD_TAKE_EFFECT: A requested hold takes effect in every tile of the gang 16 + P cycles after the request. (R38) -/
  | holdTakeEffect (gid : Nat)
  /-- GANG_RESUME: A held gang resumes on one common cycle 16 + P cycles after its last hold cause clears. (R38) -/
  | gangResume (gid : Nat)
  /-- REFRESH_DUE: A bank's RDUE reaches zero, its DEBT rises by one and RDUE reloads. (R146) -/
  | refreshDue (tile : Nat) (bank : Nat)
  /-- REFRESH_GUARD: Under hold, the guard saves bank state, precharges, refreshes, reopens rows and releases the cause. (R148) -/
  | refreshGuard (tile : Nat)
  /-- SPARE_EXHAUSTION_DRAIN: Under hold, cloned rows of the exhausted bank are drained and the saved rows reopened. (R233) -/
  | spareExhaustionDrain (tile : Nat)
  /-- CUT_REQUEST: A pending cut is requested once R225 allows it and requests the cut hold of the scope. (R227) -/
  | cutRequest (dev : Bool) (pasid : Nat)
  /-- CUT_INSTANT: At t' + 256 + P the generation closes, GEN increments, D bits clear and the cut hold cause clears. (R227) -/
  | cutInstant (pasid : Nat)
  /-- DRAIN_ROW_COPY: In a drain window, or on an idle tile, the drainer copies one row per channel into the generation image. (R235) -/
  | drainRowCopy (tile : Nat) (ch : Nat)
  /-- VARIANT_SWAP: The loader loads the selected schedule variant during the re-plan hold. (R152) -/
  | variantSwap (gid : Nat)
  /-- BOND_LANE_REPAIR: A marked bond lane is repaired while the gang is held at a re-planning point, or at once on an idle tile. (R153) -/
  | bondLaneRepair (tile : Nat)
  /-- PREEMPTION_SAVE: A pre-empted gang drains its engines and barge commands, precharges, saves its context and frees its tiles. (R289) -/
  | preemptionSave (gid : Nat)
  /-- PREEMPTION_RESTORE: A pre-empted gang is placed again, its variant reloaded, its context read back and its banks reopened. (R292) -/
  | preemptionRestore (gid : Nat)
  /-- TRAP_SIGNAL: The Lockkeeper applies the job's trap policy to a trapped gang. (R286) -/
  | trapSignal (gid : Nat)
  /-- BARGE_COMMAND_START: A barge command starts once its consumed tokens leave pending and makes its start checks. (R472) -/
  | bargeCommandStart (tile : Nat) (id : Nat)
  /-- BARGE_PIECE: The barge carries out one piece of a command within one frame. (R189) -/
  | bargePiece (tile : Nat) (id : Nat) (part : PiecePart)
  /-- BARGE_COMPLETION: A command's completion word is written last with its state, FRAMES and WP. (R190) -/
  | bargeCompletion (tile : Nat) (id : Nat)
  /-- LOOKASIDE_WALK: A lookaside miss is walked by a shared walker and filled if the shoot-down counter is unchanged. (R202) -/
  | lookasideWalk (tile : Nat) (id : Nat) (part : WalkPart)
  /-- MMP_MISS_FILL: The MMP fills a tile-table miss by the tensor's backing, or ends the command with NOMAP. (R203) -/
  | mmpMissFill (tile : Nat) (id : Nat) (mapped : Bool)
  /-- HOST_FRAME_REPLY: The host's reply names or refuses a host-backed frame for a pending miss. (R203) -/
  | hostFrameReply (tile : Nat) (id : Nat) (frame : Option Nat)
  /-- SHOOTDOWN: The MMP changes a tile-table entry, bumps every quadrant counter and removes matching lookaside entries. (R202) -/
  | shootdown (pasid : Nat) (tensor : Nat) (frame : Nat) (entry : BitVec 64)
  /-- SEAL_CHANGE: The MMP applies a BSEAL or BOPEN to a tensor descriptor one at a time. (R361) -/
  | sealChange (tile : Nat) (id : Nat)
  /-- CANAL_ROW_ARRIVE: A canal row enters a router, is looked up, forwarded and delivered to a latch. (R240) -/
  | canalRowArrive (n : Nat)
  /-- RECEIVE_OVERRUN: A delivered row still in its latch five cycles later raises an overrun. (R247) -/
  | receiveOverrun (tile : Nat) (latch : Nat)
  /-- CROSSING_UNIT: A 100-byte unit of a lock crossing arrives with its row and sideband. (R250) -/
  | crossingUnit (crossing : Nat) (unit : CrossingUnit)
  /-- CROSSING_TRAINING: System software trains a lock crossing and fixes its padded latency. (R248) -/
  | crossingTraining (crossing : Nat) (edge : Nat × Nat) (ports : Nat × Nat) (latency : Nat) (ok : Bool)
  /-- SARPOL_FLIT: A fabric flit arrives and is checked by FEC and CRC. (R252) -/
  | sarpolFlit (port : Nat) (link : Nat) (flit : Flit)
  /-- DOORBELL_WRITE: A write to a doorbell applies a kick to a mapped queue or maps the queue. (R474) -/
  | doorbellWrite (n : Nat) (value : BitVec 64)
  /-- QUEUE_MAP: An unmapped queue is mapped to a thread, evicting an idle queue if needed. (R258) -/
  | queueMap (pasid : Nat) (qnum : Nat)
  /-- WATCH_FIRE: A write to a watched word fires a wait-packet or kick watch. (R259) -/
  | watchFire (n : Nat)
  /-- KICK_OBSERVE: A mapped KIND 1 thread observes a change of its kick word and raises K. (R465) -/
  | kickObserve (thread : Nat)
  /-- QUEUE_SRAM_WRITE: A host posted write to queue SRAM in BAR2. (R256) -/
  | queueSramWrite (addr : Nat) (bytes : List Byte)
  /-- PCIE_FETCHADD: A PCIe 64-bit FetchAdd AtomicOp into BAR2. (R255) -/
  | pcieFetchadd (addr : Nat) (value : BitVec 64)
  /-- PCIE_CAS: A PCIe 64-bit CAS AtomicOp into BAR2. (R255) -/
  | pcieCas (addr : Nat) (old : BitVec 64) (value : BitVec 64)
  /-- SLOT_TAKE: A thread takes the next published slot within K, copies it and releases RIDX. (R267) -/
  | slotTake (thread : Nat)
  /-- NOP_PACKET: A NOP packet is taken and does nothing. (R268) -/
  | nopPacket (thread : Nat)
  /-- LAUNCH_PACKET: A launch packet is checked, entered as a graph node and its edges evaluated. (R268) -/
  | launchPacket (thread : Nat)
  /-- WAIT_PACKET: A wait packet arms a watch on a word and blocks its thread. (R272) -/
  | waitPacket (thread : Nat)
  /-- WAIT_PACKET_END: The watched word compares true, the wait ends and its record is written. (R466) -/
  | waitPacketEnd (thread : Nat)
  /-- GRAPH_ENTRY_FREE: A packet waiting for a free graph node or edge proceeds when one frees. (R273) -/
  | graphEntryFree (node : Nat)
  /-- DISPATCH_STEP: The dispatcher places the first ready launch that fits, or pre-empts for it. (R49) -/
  | dispatchStep
  /-- PRIORITY_AGING: Each full 2^16 cycles of waiting raises a ready launch's effective priority or reserves it. (R48) -/
  | priorityAging (node : Nat)
  /-- LOADER_LOAD: The loader broadcasts a variant image into instruction SRAM of the gang. (R277) -/
  | loaderLoad (gid : Nat)
  /-- GANG_START: Every task of a gang issues its first bundle on one common cycle. (R26) -/
  | gangStart (setup : GangSetup)
  /-- TASK_COMPLETE: A task completes once it has ended, its banks are precharged and its barge commands are complete. (R21) -/
  | taskComplete (tile : Nat)
  /-- LAUNCH_COMPLETION_RECORD: The Lockkeeper writes the launch completion record with release once its sources' records are written. (R22) -/
  | launchCompletionRecord (node : Nat)
  /-- LKCMD_NOOP: LKCMD command 0, which has no effect. (R279) -/
  | lkcmdNoop (word : BitVec 64)
  /-- LKCMD_CANCEL: Cancel a task, launch, graph, phase or job, or record a pending cancel. (R280) -/
  | lkcmdCancel (word : BitVec 64)
  /-- LKCMD_RELEASE: Satisfy a dependant's edges held by the hold taint policy. (R274) -/
  | lkcmdRelease (word : BitVec 64)
  /-- LKCMD_READ: Return a level's completion counter in LKRES. (R279) -/
  | lkcmdRead (word : BitVec 64)
  /-- LKCMD_RETRY: Retry the queue-table walk of a queue. (R261) -/
  | lkcmdRetry (word : BitVec 64)
  /-- LKCMD_ASSIGN: Assign a graph node number to a job. (R273) -/
  | lkcmdAssign (word : BitVec 64)
  /-- LKCMD_RESUME: Resume a gang held by breakpoint or TRAP. (R287) -/
  | lkcmdResume (word : BitVec 64)
  /-- LKCMD_REPLAN: Request a re-plan of a job and open a new phase. (R42) -/
  | lkcmdReplan (word : BitVec 64)
  /-- LKCMD_DISPATCH: Resume dispatch of a job stopped by a phase cancel. (R44) -/
  | lkcmdDispatch (word : BitVec 64)
  /-- LKCMD_GENADDR: Return the reservoir address of a generation record. (R239) -/
  | lkcmdGenaddr (word : BitVec 64)
  /-- LKCMD_GENRELEASE: Release a drained generation. (R239) -/
  | lkcmdGenrelease (word : BitVec 64)
  /-- LKCMD_GENRESTORE: Restore a drained generation into the job's memory. (R239) -/
  | lkcmdGenrestore (word : BitVec 64)
  /-- LKCMD_UNASSIGNED: An unassigned LKCMD code, or a write during a running command, is discarded and sets LKERR bit 2. (R278) -/
  | lkcmdUnassigned (word : BitVec 64)
  /-- TRAPPOL_WRITE: Write a job's trap policy and reissue limit. (R286) -/
  | trappolWrite (value : BitVec 64)
  /-- TRAPQ_READ: A read of TRAPQ returning a valid entry removes that entry. (R287) -/
  | trapqRead
  /-- PLCMD_DEVICE_RESET: PLCMD op 1 starts a device reset. (R300) -/
  | plcmdDeviceReset (value : BitVec 64)
  /-- REGISTER_WRITE: A write to a BAR0 register with no row of its own acts by its access code. (R6) -/
  | registerWrite (offset : Nat) (size : Nat) (value : BitVec 64)
  /-- DEVICE_RESET: Power-on, PCIe conventional reset or function-level reset runs the reset sequence. (R300) -/
  | deviceReset
  /-- TEMPERATURE_SAMPLE: Every 2^16 cycles the vault sensors are sampled and the grades updated. (R309) -/
  | temperatureSample (degrees : List Nat)
  /-- THROTTLE_STEP: Each 1 ms the throttle share of 2-period cycles moves by 1/16. (R310) -/
  | throttleStep (pkgW : Nat) (modW : Nat)
  /-- SUPPLY_DROOP: A supply droop is answered within 2 cycles by stretched cycles until recovery. (R308) -/
  | supplyDroop
  /-- WATCHDOG_EXPIRY: A Lockkeeper thread or MMP core watchdog expires and the control complex stops. (R297) -/
  | watchdogExpiry (who : Watchdog)
  /-- CONTROL_MEMORY_ERROR: An uncorrectable error in a control processor memory stops the processor. (R295) -/
  | controlMemoryError
  /-- BUDGET_PERIOD: Every 4,096 cycles the bandwidth shares are apportioned anew. (R299) -/
  | budgetPeriod
  /-- SUPPLY_RECOVERY: The supply recovers after a droop and the 1.5-period stretched cycles stop. (R308) -/
  | supplyRecovery
  /-- LOSS_OF_LOCK: A lock crossing loses lock, the crossing ends and every tile of the gang in every package traps with overrun. (R250) -/
  | lossOfLock (crossing : Nat)
  /-- GENRESTORE_COMPLETE: A generation restore finishes its row, frame, descriptor and in-flight steps and LKRES reports DONE. (R239) -/
  | genrestoreComplete (pasid : Nat) (gen : Nat)
  /-- SHARE_SETTING: System software sets the bandwidth shares of a controller or port through the MMP, and settings that break the limits are refused. (R298) -/
  | shareSetting (unit : Nat) (shares : List Nat)
  /-- FIRMWARE_SLOT_WRITE: System software writes a firmware slot or marker copy in the boot flash. (R305) -/
  | firmwareSlotWrite (target : FlashPart) (bytes : List Byte)
  /-- JOB_CREATION: A job is created with GEN 0, all trap policies 0 and its PASID, tables and peer map. (R223) -/
  | jobCreation (pasid : Nat) (snap : Bool) (preemptible : Bool) (tables : JobTables)
  /-- PARTITION_ALLOCATION: The MMP allocates a job's vault partition on a tile, fills it with zeros and sets VPB and VPL. (R141) -/
  | partitionAllocation (pasid : Nat) (tile : Nat) (vpb : Nat) (vpl : Nat)
  /-- TENSOR_FREE: The MMP frees a tensor number or gives it new storage and increases its descriptor's generation count. (R180) -/
  | tensorFree (pasid : Nat) (tensor : Nat)
  deriving DecidableEq, Repr

end Sys2Proof
end

