-- ==== Sys2Proof/WellFormed.lean ====
section
/-! DEFINITION. Well-formed instructions: every field holds a value that Table 15.2 order 6 calls legal. -/

namespace Sys2Proof

/-- A scalar destination code: 0-55 (R63, Table 15.1). -/
def sdest (d : BitVec 6) : Bool := decide (d.toNat < 56)

/-- A vector destination code: 0-47, or 63, which suppresses write-back (R63, Table 15.1). -/
def vdest (d : BitVec 6) : Bool := decide (d.toNat < 48) || d == 63

/-- A rounding code of Table 4.4. -/
def rounding (r : BitVec 3) : Bool := decide (r.toNat < 5)

/-- The special registers that `MFS` may name (Table 3.5). -/
def readableSpecial (n : Nat) : Bool :=
  decide (n ≤ 0x04) || (decide (0x08 ≤ n) && decide (n ≤ 0x0A)) || (decide (0x0C ≤ n) && decide (n ≤ 0x12)) ||
    (decide (0x20 ≤ n) && decide (n ≤ 0x27)) || (decide (0x40 ≤ n) && decide (n ≤ 0x7F))

/-- The special registers that `MTS` may name: those Table 3.5 marks RW or W1C. -/
def writableSpecial (n : Nat) : Bool :=
  (decide (0x08 ≤ n) && decide (n ≤ 0x0A)) || n == 0x10 || (decide (0x20 ≤ n) && decide (n ≤ 0x27))

/-- The format and order pairs of Table 5.5. -/
def hadamardPair (f : BitVec 4) (o : BitVec 2) : Bool :=
  if f == 1 then o == 0
  else if f == 2 || f == 3 then decide (o.toNat < 2)
  else if f == 4 || f == 5 || f == 8 then decide (o.toNat < 3)
  else false

/-- `BREDA`: a float format with saturate 0, or an integer format with rounding code 0 (R183, R365). -/
def reduction (f : BitVec 4) (r : BitVec 3) (sat : BitVec 1) : Bool :=
  if f.toNat < 4 then rounding r && sat == 0
  else if 12 ≤ f.toNat then r == 0
  else false

/-- Every field of the word holds a legal value. An event has no word and is well formed. -/
def Instr.wellFormed : Instr → Bool
  | .genq d _ _ => sdest d
  | .add d _ _ _ => sdest d
  | .sub d _ _ _ => sdest d
  | .andS d _ _ _ => sdest d
  | .orS d _ _ _ => sdest d
  | .xorS d _ _ _ => sdest d
  | .shl d _ _ _ => sdest d
  | .shr d _ _ _ => sdest d
  | .sra d _ _ _ => sdest d
  | .mul d _ _ _ => sdest d
  | .mulh d _ _ _ => sdest d
  | .mulhu d _ _ _ => sdest d
  | .maxS d _ _ _ _ => sdest d
  | .minS d _ _ _ _ => sdest d
  | .clz d _ _ => sdest d
  | .ffs d _ _ => sdest d
  | .popc d _ _ => sdest d
  | .sel d _ _ _ _ => sdest d
  | .cmp _ _ _ c _ => decide (c.toNat < 6)
  | .addi d _ _ _ => sdest d
  | .lds d _ _ _ => sdest d
  | .li d _ _ => sdest d
  | .lih d _ _ => sdest d
  | .vaddF _ _ r d _ _ _ => vdest d && rounding r
  | .vsubF _ _ r d _ _ _ => vdest d && rounding r
  | .vmulF _ _ r d _ _ _ => vdest d && rounding r
  | .vfma _ _ r d _ _ _ => decide (d.toNat < 48) && rounding r
  | .vmaxF _ _ d _ _ _ => vdest d
  | .vminF _ _ d _ _ _ => vdest d
  | .vcpys _ _ d _ _ _ => vdest d
  | .vcmpEqF _ _ d _ _ _ => vdest d
  | .vcmpLtF _ _ d _ _ _ => vdest d
  | .vcmpLeF _ _ d _ _ _ => vdest d
  | .vabsF _ _ d _ _ => vdest d
  | .vnegF _ _ d _ _ => vdest d
  | .vrint _ _ r d _ _ => vdest d && rounding r
  | .vredF _ _ r d _ _ => vdest d && rounding r
  | .vscale _ _ r d _ _ _ => vdest d && rounding r
  | .vrcp _ _ r d _ _ => vdest d && rounding r
  | .vsqrt _ _ r d _ _ => vdest d && rounding r
  | .vrsq _ _ r d _ _ => vdest d && rounding r
  | .vexp2 _ _ r d _ _ => vdest d && rounding r
  | .vlog2 _ _ r d _ _ => vdest d && rounding r
  | .vsin _ _ r d _ _ => vdest d && rounding r
  | .vcos _ _ r d _ _ => vdest d && rounding r
  | .vtanh _ _ r d _ _ => vdest d && rounding r
  | .vaddI _ _ _ d _ _ _ => vdest d
  | .vsubI _ _ _ d _ _ _ => vdest d
  | .vmulI _ _ _ d _ _ _ => vdest d
  | .vmulh _ _ d _ _ _ => vdest d
  | .vmaxI _ _ d _ _ _ => vdest d
  | .vminI _ _ d _ _ _ => vdest d
  | .vand _ _ d _ _ _ => vdest d
  | .vor _ _ d _ _ _ => vdest d
  | .vxor _ _ d _ _ _ => vdest d
  | .vshl _ _ d _ _ _ => vdest d
  | .vshr _ _ d _ _ _ => vdest d
  | .vabsI _ _ _ d _ _ => vdest d
  | .vnegI _ _ _ d _ _ => vdest d
  | .vclz _ _ d _ _ => vdest d
  | .vffs _ _ d _ _ => vdest d
  | .vpopc _ _ d _ _ => vdest d
  | .vcmpEqI _ _ d _ _ _ => vdest d
  | .vcmpLtI _ _ d _ _ _ => vdest d
  | .vcmpLeI _ _ d _ _ _ => vdest d
  | .vredI _ _ _ d _ _ => vdest d
  | .vmaxe _ w d _ _ _ => vdest d && (w == 2 || w == 4 || w == 6)
  | .vexps _ w _ d _ _ => vdest d && (w == 2 || w == 3 || w == 4 || w == 6)
  | .vsel _ _ d _ _ _ => decide (d.toNat < 48)
  | .vshuf _ _ d _ _ _ => vdest d
  | .vdup _ _ d _ _ _ => vdest d
  | .vcvtFromFloat _ _ r d _ g _ _ => vdest d && rounding r && (g != 6 && g != 7)
  | .vcvtFromInt _ _ _ y d _ r g _ => vdest d && (if y == 0 then rounding r && decide (g.toNat < 6) else r == 0)
  | .vcvtWidenF8 _ f d _ g _ => vdest d && (f == 4 || f == 5) && decide (g.toNat < 4)
  | .mhad _ o f _ => hadamardPair f o
  | .msta w _ _ _ _ => decide (w.toNat < 2)
  | .mfs n d _ => readableSpecial n.toNat && sdest d
  | .mts n _ _ => writableSpecial n.toNat
  | .maccF64 _ _ _ _ r _ _ => rounding r
  | .maccF32 _ _ _ _ r _ _ => rounding r
  | .maccF16 _ _ _ _ r _ _ => rounding r
  | .maccB16 _ _ _ _ r _ _ => rounding r
  | .maccF8e4 _ _ _ _ r _ _ => rounding r
  | .maccF8e5 _ _ _ _ r _ _ => rounding r
  | .maccaF64 _ _ _ g _ r _ _ => rounding r && decide (g.toNat < 3)
  | .maccaF32 _ _ _ g _ r _ _ => rounding r && decide (g.toNat < 3)
  | .maccaF16 _ _ _ g _ r _ _ => rounding r && decide (g.toNat < 2)
  | .maccaB16 _ _ _ g _ r _ _ => rounding r && decide (g.toNat < 2)
  | .maccaF8e4 _ _ _ g _ r _ _ => rounding r && (g == 0)
  | .maccaF8e5 _ _ _ g _ r _ _ => rounding r && (g == 0)
  | .maccaI8 _ _ _ g _ _ _ => (g == 0)
  | .maccaN8 _ _ _ g _ _ _ => (g == 0)
  | .mdrainF32F32 c _ d g r _ _ => rounding r && vdest d && decide (c.toNat < 3) && decide (g.toNat < 3)
  | .mdrainF32F16 c _ d g r _ _ => rounding r && vdest d && decide (c.toNat < 3) && decide (g.toNat < 2)
  | .mdrainF32B16 c _ d g r _ _ => rounding r && vdest d && decide (c.toNat < 3) && decide (g.toNat < 2)
  | .mdrainF32F8e4 c _ d g r _ _ => rounding r && vdest d && decide (c.toNat < 3) && decide (g.toNat < 1)
  | .mdrainF32F8e5 c _ d g r _ _ => rounding r && vdest d && decide (c.toNat < 3) && decide (g.toNat < 1)
  | .mdrainF64F64 c _ d g r _ _ => rounding r && vdest d && decide (c.toNat < 3) && decide (g.toNat < 3)
  | .mdrainF64F32 c _ d g r _ _ => rounding r && vdest d && decide (c.toNat < 3) && decide (g.toNat < 2)
  | .mdrainI32I32 _ d g _ _ => vdest d && decide (g.toNat < 3)
  | .mdrainI32I16 _ d g _ _ => vdest d && decide (g.toNat < 2)
  | .mdrainI32I8 _ d g _ _ => vdest d && decide (g.toNat < 1)
  | .rd _ _ _ v _ => vdest v
  | .sdly _ _ _ y _ => (y != 0)
  | .scnt _ _ v c _ => (if c == 1 then decide (v.toNat < 48) else vdest v)
  | .scls _ v _ => vdest v
  | .ldv d _ _ _ => vdest d
  | .recv d _ _ => vdest d
  | .bcopy _ _ t c d _ => (t != 3) && (!(c == 1 && d == 1)) && (!(c == 1 && t != 0))
  | .bgath _ _ t _ => (t != 3)
  | .breda _ _ r a f _ => reduction f r a
  | .batom _ _ c o _ => (c != 3) && decide (o.toNat < 10)
  | .bfence _ _ c _ => (c != 3)
  | _ => true

end Sys2Proof
end

