-- ==== Sys2Proof/Decode.lean ====
section
/-! DEFINITION. The decoder of a slot word, total and rejecting by name, and the encoder written from the same tables. -/

namespace Sys2Proof

/-- Why a slot word is no instruction: the orders of Table 15.2. -/
inductive Reject where
  /-- Opcode 0x00 with another bit set (order 2). -/
  | nopBits
  /-- An opcode that the slot's map does not list (orders 3 and 4). -/
  | unassigned
  /-- A bit that the form marks 0 or reserved is set (order 5). -/
  | reservedBit
  /-- A field holds a value outside its legal set (order 6). -/
  | illegalField
  deriving DecidableEq, Repr

/-- The field of `n` bits of `w` whose lowest bit is bit `lo` (R8). -/
def fld (w lo n : Nat) : BitVec n := BitVec.ofNat n (w / 2 ^ lo)

/-- The C-slot map, Table 16.1 with the forms of Table 15.3. -/
def mapC (op w : Nat) : Option Instr :=
  match op with
  | 0x01 => some (.br (fld w 14 12) (fld w 0 3))
  | 0x02 => some (.brp (fld w 14 12) (fld w 11 3) (fld w 0 3))
  | 0x03 => some (.call (fld w 14 12) (fld w 0 3))
  | 0x04 => some (.ret (fld w 0 3))
  | 0x05 => some (.loop (fld w 14 12) (fld w 0 3))
  | 0x06 => some (.loopr (fld w 14 12) (fld w 12 2) (fld w 3 9) (fld w 0 3))
  | 0x08 => some (.waitb (fld w 15 11) (fld w 3 12) (fld w 0 3))
  | 0x09 => some (.arrb (fld w 15 11) (fld w 3 12) (fld w 0 3))
  | 0x0A => some (.waitt (fld w 20 6) (fld w 0 3))
  | 0x0B => some (.waitp (fld w 20 6) (fld w 14 6) (fld w 0 3))
  | 0x0C => some (.trig (fld w 0 3))
  | 0x0D => some (.endTask (fld w 0 3))
  | 0x10 => some (.seg (fld w 20 6) (fld w 14 6) (fld w 13 1) (fld w 0 3))
  | 0x11 => some (.sege (fld w 0 3))
  | 0x12 => some (.ifence (fld w 0 3))
  | 0x13 => some (.snap (fld w 0 3))
  | 0x14 => some (.genq (fld w 20 6) (fld w 14 6) (fld w 0 3))
  | 0x18 => some (.brk (fld w 18 8) (fld w 0 3))
  | 0x19 => some (.trap (fld w 18 8) (fld w 0 3))
  | 0x1C => some (.pand (fld w 23 3) (fld w 20 3) (fld w 17 3) (fld w 0 3))
  | 0x1D => some (.por (fld w 23 3) (fld w 20 3) (fld w 17 3) (fld w 0 3))
  | 0x1E => some (.pxor (fld w 23 3) (fld w 20 3) (fld w 17 3) (fld w 0 3))
  | 0x1F => some (.pnot (fld w 23 3) (fld w 20 3) (fld w 0 3))
  | _ => none

/-- The A-slot map, Table 16.2 with the forms of Table 15.4. -/
def mapA (op w : Nat) : Option Instr :=
  match op with
  | 0x01 => some (.add (fld w 20 6) (fld w 14 6) (fld w 8 6) (fld w 0 3))
  | 0x02 => some (.sub (fld w 20 6) (fld w 14 6) (fld w 8 6) (fld w 0 3))
  | 0x03 => some (.andS (fld w 20 6) (fld w 14 6) (fld w 8 6) (fld w 0 3))
  | 0x04 => some (.orS (fld w 20 6) (fld w 14 6) (fld w 8 6) (fld w 0 3))
  | 0x05 => some (.xorS (fld w 20 6) (fld w 14 6) (fld w 8 6) (fld w 0 3))
  | 0x06 => some (.shl (fld w 20 6) (fld w 14 6) (fld w 8 6) (fld w 0 3))
  | 0x07 => some (.shr (fld w 20 6) (fld w 14 6) (fld w 8 6) (fld w 0 3))
  | 0x08 => some (.sra (fld w 20 6) (fld w 14 6) (fld w 8 6) (fld w 0 3))
  | 0x09 => some (.mul (fld w 20 6) (fld w 14 6) (fld w 8 6) (fld w 0 3))
  | 0x0A => some (.mulh (fld w 20 6) (fld w 14 6) (fld w 8 6) (fld w 0 3))
  | 0x0B => some (.mulhu (fld w 20 6) (fld w 14 6) (fld w 8 6) (fld w 0 3))
  | 0x0C => some (.maxS (fld w 20 6) (fld w 14 6) (fld w 8 6) (fld w 3 1) (fld w 0 3))
  | 0x0D => some (.minS (fld w 20 6) (fld w 14 6) (fld w 8 6) (fld w 3 1) (fld w 0 3))
  | 0x0E => some (.clz (fld w 20 6) (fld w 14 6) (fld w 0 3))
  | 0x0F => some (.ffs (fld w 20 6) (fld w 14 6) (fld w 0 3))
  | 0x10 => some (.popc (fld w 20 6) (fld w 14 6) (fld w 0 3))
  | 0x11 => some (.sel (fld w 20 6) (fld w 14 6) (fld w 8 6) (fld w 3 3) (fld w 0 3))
  | 0x12 => some (.cmp (fld w 23 3) (fld w 14 6) (fld w 8 6) (fld w 3 5) (fld w 0 3))
  | 0x18 => some (.addi (fld w 20 6) (fld w 14 6) (fld w 3 11) (fld w 0 3))
  | 0x19 => some (.lds (fld w 20 6) (fld w 14 6) (fld w 3 11) (fld w 0 3))
  | 0x1A => some (.sts (fld w 20 6) (fld w 14 6) (fld w 3 11) (fld w 0 3))
  | 0x1C => some (.li (fld w 20 6) (fld w 3 17) (fld w 0 3))
  | 0x1D => some (.lih (fld w 20 6) (fld w 3 17) (fld w 0 3))
  | _ => none

/-- The map of both V slots, Table 16.3 with the forms of Table 15.6. -/
def mapV (u : VSlot) (op w : Nat) : Option Instr :=
  match op with
  | 0x01 => some (.vaddF u (fld w 24 2) (fld w 21 3) (fld w 15 6) (fld w 9 6) (fld w 3 6) (fld w 0 3))
  | 0x02 => some (.vsubF u (fld w 24 2) (fld w 21 3) (fld w 15 6) (fld w 9 6) (fld w 3 6) (fld w 0 3))
  | 0x03 => some (.vmulF u (fld w 24 2) (fld w 21 3) (fld w 15 6) (fld w 9 6) (fld w 3 6) (fld w 0 3))
  | 0x04 => some (.vfma u (fld w 24 2) (fld w 21 3) (fld w 15 6) (fld w 9 6) (fld w 3 6) (fld w 0 3))
  | 0x05 => some (.vmaxF u (fld w 24 2) (fld w 15 6) (fld w 9 6) (fld w 3 6) (fld w 0 3))
  | 0x06 => some (.vminF u (fld w 24 2) (fld w 15 6) (fld w 9 6) (fld w 3 6) (fld w 0 3))
  | 0x07 => some (.vcpys u (fld w 24 2) (fld w 15 6) (fld w 9 6) (fld w 3 6) (fld w 0 3))
  | 0x08 => some (.vcmpEqF u (fld w 24 2) (fld w 15 6) (fld w 9 6) (fld w 3 6) (fld w 0 3))
  | 0x09 => some (.vcmpLtF u (fld w 24 2) (fld w 15 6) (fld w 9 6) (fld w 3 6) (fld w 0 3))
  | 0x0A => some (.vcmpLeF u (fld w 24 2) (fld w 15 6) (fld w 9 6) (fld w 3 6) (fld w 0 3))
  | 0x0B => some (.vabsF u (fld w 24 2) (fld w 15 6) (fld w 9 6) (fld w 0 3))
  | 0x0C => some (.vnegF u (fld w 24 2) (fld w 15 6) (fld w 9 6) (fld w 0 3))
  | 0x0D => some (.vrint u (fld w 24 2) (fld w 21 3) (fld w 15 6) (fld w 9 6) (fld w 0 3))
  | 0x0E => some (.vredF u (fld w 24 2) (fld w 21 3) (fld w 15 6) (fld w 9 6) (fld w 0 3))
  | 0x0F => some (.vscale u (fld w 24 2) (fld w 21 3) (fld w 15 6) (fld w 9 6) (fld w 3 6) (fld w 0 3))
  | 0x10 => some (.vrcp u (fld w 24 2) (fld w 21 3) (fld w 15 6) (fld w 9 6) (fld w 0 3))
  | 0x11 => some (.vsqrt u (fld w 24 2) (fld w 21 3) (fld w 15 6) (fld w 9 6) (fld w 0 3))
  | 0x12 => some (.vrsq u (fld w 24 2) (fld w 21 3) (fld w 15 6) (fld w 9 6) (fld w 0 3))
  | 0x13 => some (.vexp2 u (fld w 24 2) (fld w 21 3) (fld w 15 6) (fld w 9 6) (fld w 0 3))
  | 0x14 => some (.vlog2 u (fld w 24 2) (fld w 21 3) (fld w 15 6) (fld w 9 6) (fld w 0 3))
  | 0x15 => some (.vsin u (fld w 24 2) (fld w 21 3) (fld w 15 6) (fld w 9 6) (fld w 0 3))
  | 0x16 => some (.vcos u (fld w 24 2) (fld w 21 3) (fld w 15 6) (fld w 9 6) (fld w 0 3))
  | 0x17 => some (.vtanh u (fld w 24 2) (fld w 21 3) (fld w 15 6) (fld w 9 6) (fld w 0 3))
  | 0x20 => some (.vaddI u (fld w 23 3) (fld w 22 1) (fld w 15 6) (fld w 9 6) (fld w 3 6) (fld w 0 3))
  | 0x21 => some (.vsubI u (fld w 23 3) (fld w 22 1) (fld w 15 6) (fld w 9 6) (fld w 3 6) (fld w 0 3))
  | 0x22 => some (.vmulI u (fld w 23 3) (fld w 22 1) (fld w 15 6) (fld w 9 6) (fld w 3 6) (fld w 0 3))
  | 0x23 => some (.vmulh u (fld w 23 3) (fld w 15 6) (fld w 9 6) (fld w 3 6) (fld w 0 3))
  | 0x24 => some (.vmaxI u (fld w 23 3) (fld w 15 6) (fld w 9 6) (fld w 3 6) (fld w 0 3))
  | 0x25 => some (.vminI u (fld w 23 3) (fld w 15 6) (fld w 9 6) (fld w 3 6) (fld w 0 3))
  | 0x26 => some (.vand u (fld w 23 3) (fld w 15 6) (fld w 9 6) (fld w 3 6) (fld w 0 3))
  | 0x27 => some (.vor u (fld w 23 3) (fld w 15 6) (fld w 9 6) (fld w 3 6) (fld w 0 3))
  | 0x28 => some (.vxor u (fld w 23 3) (fld w 15 6) (fld w 9 6) (fld w 3 6) (fld w 0 3))
  | 0x29 => some (.vshl u (fld w 23 3) (fld w 15 6) (fld w 9 6) (fld w 3 6) (fld w 0 3))
  | 0x2A => some (.vshr u (fld w 23 3) (fld w 15 6) (fld w 9 6) (fld w 3 6) (fld w 0 3))
  | 0x2B => some (.vabsI u (fld w 23 3) (fld w 22 1) (fld w 15 6) (fld w 9 6) (fld w 0 3))
  | 0x2C => some (.vnegI u (fld w 23 3) (fld w 22 1) (fld w 15 6) (fld w 9 6) (fld w 0 3))
  | 0x2D => some (.vclz u (fld w 23 3) (fld w 15 6) (fld w 9 6) (fld w 0 3))
  | 0x2E => some (.vffs u (fld w 23 3) (fld w 15 6) (fld w 9 6) (fld w 0 3))
  | 0x2F => some (.vpopc u (fld w 23 3) (fld w 15 6) (fld w 9 6) (fld w 0 3))
  | 0x30 => some (.vcmpEqI u (fld w 23 3) (fld w 15 6) (fld w 9 6) (fld w 3 6) (fld w 0 3))
  | 0x31 => some (.vcmpLtI u (fld w 23 3) (fld w 15 6) (fld w 9 6) (fld w 3 6) (fld w 0 3))
  | 0x32 => some (.vcmpLeI u (fld w 23 3) (fld w 15 6) (fld w 9 6) (fld w 3 6) (fld w 0 3))
  | 0x33 => some (.vredI u (fld w 23 3) (fld w 22 1) (fld w 15 6) (fld w 9 6) (fld w 0 3))
  | 0x34 => some (.vmaxe u (fld w 23 3) (fld w 15 6) (fld w 9 6) (fld w 3 6) (fld w 0 3))
  | 0x35 => some (.vexps u (fld w 23 3) (fld w 21 1) (fld w 15 6) (fld w 9 6) (fld w 0 3))
  | 0x36 => some (.vsel u (fld w 23 3) (fld w 15 6) (fld w 9 6) (fld w 3 6) (fld w 0 3))
  | 0x37 => some (.vshuf u (fld w 23 3) (fld w 15 6) (fld w 9 6) (fld w 3 6) (fld w 0 3))
  | 0x38 => some (.vdup u (fld w 23 3) (fld w 15 6) (fld w 9 6) (fld w 3 6) (fld w 0 3))
  | 0x3A => some (.vcvtFromFloat u (fld w 24 2) (fld w 21 3) (fld w 15 6) (fld w 9 6) (fld w 5 4) (fld w 4 1) (fld w 0 3))
  | 0x3B => some (.vcvtFromInt u (fld w 23 3) (fld w 22 1) (fld w 21 1) (fld w 15 6) (fld w 9 6) (fld w 6 3) (fld w 3 3) (fld w 0 3))
  | 0x3C => some (.vcvtWidenF8 u (fld w 22 4) (fld w 15 6) (fld w 9 6) (fld w 5 4) (fld w 0 3))
  | _ => none

/-- The M-slot map, Table 16.5 with Table 5.2 and Table 15.7. -/
def mapM (op w : Nat) : Option Instr :=
  match op with
  | 0x01 => some (.mpush (fld w 24 2) (fld w 16 6) (fld w 10 6) (fld w 0 3))
  | 0x02 => some (.mhad (fld w 24 2) (fld w 20 2) (fld w 16 4) (fld w 0 3))
  | 0x03 => some (.msta (fld w 24 2) (fld w 16 8) (fld w 10 6) (fld w 7 3) (fld w 0 3))
  | 0x04 => some (.mzero (fld w 24 2) (fld w 16 8) (fld w 0 3))
  | 0x06 => some (.mfs (fld w 16 8) (fld w 10 6) (fld w 0 3))
  | 0x07 => some (.mts (fld w 16 8) (fld w 10 6) (fld w 0 3))
  | 0x08 => some (.maccF64 (fld w 24 2) (fld w 16 8) (fld w 10 6) (fld w 7 3) (fld w 4 3) (fld w 3 1) (fld w 0 3))
  | 0x09 => some (.maccF32 (fld w 24 2) (fld w 16 8) (fld w 10 6) (fld w 7 3) (fld w 4 3) (fld w 3 1) (fld w 0 3))
  | 0x0A => some (.maccF16 (fld w 24 2) (fld w 16 8) (fld w 10 6) (fld w 7 3) (fld w 4 3) (fld w 3 1) (fld w 0 3))
  | 0x0B => some (.maccB16 (fld w 24 2) (fld w 16 8) (fld w 10 6) (fld w 7 3) (fld w 4 3) (fld w 3 1) (fld w 0 3))
  | 0x0C => some (.maccF8e4 (fld w 24 2) (fld w 16 8) (fld w 10 6) (fld w 7 3) (fld w 4 3) (fld w 3 1) (fld w 0 3))
  | 0x0D => some (.maccF8e5 (fld w 24 2) (fld w 16 8) (fld w 10 6) (fld w 7 3) (fld w 4 3) (fld w 3 1) (fld w 0 3))
  | 0x0E => some (.maccI8 (fld w 24 2) (fld w 16 8) (fld w 10 6) (fld w 7 3) (fld w 3 1) (fld w 0 3))
  | 0x0F => some (.maccN8 (fld w 24 2) (fld w 16 8) (fld w 10 6) (fld w 7 3) (fld w 3 1) (fld w 0 3))
  | 0x10 => some (.maccaF64 (fld w 24 2) (fld w 16 8) (fld w 12 4) (fld w 10 2) (fld w 7 3) (fld w 4 3) (fld w 3 1) (fld w 0 3))
  | 0x11 => some (.maccaF32 (fld w 24 2) (fld w 16 8) (fld w 12 4) (fld w 10 2) (fld w 7 3) (fld w 4 3) (fld w 3 1) (fld w 0 3))
  | 0x12 => some (.maccaF16 (fld w 24 2) (fld w 16 8) (fld w 12 4) (fld w 10 2) (fld w 7 3) (fld w 4 3) (fld w 3 1) (fld w 0 3))
  | 0x13 => some (.maccaB16 (fld w 24 2) (fld w 16 8) (fld w 12 4) (fld w 10 2) (fld w 7 3) (fld w 4 3) (fld w 3 1) (fld w 0 3))
  | 0x14 => some (.maccaF8e4 (fld w 24 2) (fld w 16 8) (fld w 12 4) (fld w 10 2) (fld w 7 3) (fld w 4 3) (fld w 3 1) (fld w 0 3))
  | 0x15 => some (.maccaF8e5 (fld w 24 2) (fld w 16 8) (fld w 12 4) (fld w 10 2) (fld w 7 3) (fld w 4 3) (fld w 3 1) (fld w 0 3))
  | 0x16 => some (.maccaI8 (fld w 24 2) (fld w 16 8) (fld w 12 4) (fld w 10 2) (fld w 7 3) (fld w 3 1) (fld w 0 3))
  | 0x17 => some (.maccaN8 (fld w 24 2) (fld w 16 8) (fld w 12 4) (fld w 10 2) (fld w 7 3) (fld w 3 1) (fld w 0 3))
  | 0x18 => some (.mdrainF32F32 (fld w 24 2) (fld w 16 8) (fld w 10 6) (fld w 7 3) (fld w 4 3) (fld w 3 1) (fld w 0 3))
  | 0x19 => some (.mdrainF32F16 (fld w 24 2) (fld w 16 8) (fld w 10 6) (fld w 7 3) (fld w 4 3) (fld w 3 1) (fld w 0 3))
  | 0x1A => some (.mdrainF32B16 (fld w 24 2) (fld w 16 8) (fld w 10 6) (fld w 7 3) (fld w 4 3) (fld w 3 1) (fld w 0 3))
  | 0x1B => some (.mdrainF32F8e4 (fld w 24 2) (fld w 16 8) (fld w 10 6) (fld w 7 3) (fld w 4 3) (fld w 3 1) (fld w 0 3))
  | 0x1C => some (.mdrainF32F8e5 (fld w 24 2) (fld w 16 8) (fld w 10 6) (fld w 7 3) (fld w 4 3) (fld w 3 1) (fld w 0 3))
  | 0x1D => some (.mdrainF64F64 (fld w 24 2) (fld w 16 8) (fld w 10 6) (fld w 7 3) (fld w 4 3) (fld w 3 1) (fld w 0 3))
  | 0x1E => some (.mdrainF64F32 (fld w 24 2) (fld w 16 8) (fld w 10 6) (fld w 7 3) (fld w 4 3) (fld w 3 1) (fld w 0 3))
  | 0x1F => some (.mdrainI32I32 (fld w 16 8) (fld w 10 6) (fld w 7 3) (fld w 3 1) (fld w 0 3))
  | 0x20 => some (.mdrainI32I16 (fld w 16 8) (fld w 10 6) (fld w 7 3) (fld w 3 1) (fld w 0 3))
  | 0x21 => some (.mdrainI32I8 (fld w 16 8) (fld w 10 6) (fld w 7 3) (fld w 3 1) (fld w 0 3))
  | _ => none

/-- The D-slot map, Table 6.4. -/
def mapD (op w : Nat) : Option Instr :=
  match op with
  | 0x01 => some (.act (fld w 24 2) (fld w 20 4) (fld w 14 6) (fld w 0 3))
  | 0x02 => some (.actw (fld w 24 2) (fld w 20 4) (fld w 14 6) (fld w 0 3))
  | 0x03 => some (.rd (fld w 24 2) (fld w 20 4) (fld w 10 4) (fld w 4 6) (fld w 0 3))
  | 0x04 => some (.wr (fld w 24 2) (fld w 20 4) (fld w 10 4) (fld w 4 6) (fld w 0 3))
  | 0x05 => some (.pre (fld w 24 2) (fld w 20 4) (fld w 0 3))
  | 0x06 => some (.prea (fld w 24 2) (fld w 0 3))
  | 0x07 => some (.ref (fld w 24 2) (fld w 0 3))
  | 0x08 => some (.refb (fld w 24 2) (fld w 20 4) (fld w 0 3))
  | _ => none

/-- The F-slot map, Table 7.3. -/
def mapF (op w : Nat) : Option Instr :=
  match op with
  | 0x01 => some (.sgen (fld w 23 3) (fld w 15 2) (fld w 10 4) (fld w 4 6) (fld w 0 3))
  | 0x02 => some (.sgenb (fld w 23 3) (fld w 15 2) (fld w 10 4) (fld w 4 6) (fld w 0 3))
  | 0x03 => some (.sregen (fld w 23 3) (fld w 20 3) (fld w 15 2) (fld w 10 4) (fld w 0 3))
  | 0x04 => some (.sand (fld w 23 3) (fld w 20 3) (fld w 17 3) (fld w 15 2) (fld w 14 1) (fld w 0 3))
  | 0x05 => some (.sor (fld w 23 3) (fld w 20 3) (fld w 17 3) (fld w 15 2) (fld w 14 1) (fld w 0 3))
  | 0x06 => some (.sxor (fld w 23 3) (fld w 20 3) (fld w 17 3) (fld w 15 2) (fld w 14 1) (fld w 0 3))
  | 0x07 => some (.sxnor (fld w 23 3) (fld w 20 3) (fld w 17 3) (fld w 15 2) (fld w 14 1) (fld w 0 3))
  | 0x08 => some (.smux (fld w 23 3) (fld w 20 3) (fld w 17 3) (fld w 15 2) (fld w 14 1) (fld w 10 3) (fld w 0 3))
  | 0x09 => some (.snot (fld w 23 3) (fld w 20 3) (fld w 15 2) (fld w 0 3))
  | 0x0A => some (.smov (fld w 23 3) (fld w 20 3) (fld w 15 2) (fld w 0 3))
  | 0x0B => some (.sdly (fld w 23 3) (fld w 20 3) (fld w 15 2) (fld w 10 4) (fld w 0 3))
  | 0x0C => some (.scnt (fld w 20 3) (fld w 15 2) (fld w 4 6) (fld w 3 1) (fld w 0 3))
  | 0x0D => some (.scls (fld w 20 3) (fld w 4 6) (fld w 0 3))
  | 0x0E => some (.sld (fld w 23 3) (fld w 15 2) (fld w 4 6) (fld w 0 3))
  | 0x0F => some (.sst (fld w 20 3) (fld w 15 2) (fld w 4 6) (fld w 0 3))
  | _ => none

/-- The X-slot map, Tables 15.8, 11.2 and 8.2 (R334). -/
def mapX (op w : Nat) : Option Instr :=
  match op with
  | 0x01 => some (.ldv (fld w 20 6) (fld w 14 6) (fld w 3 11) (fld w 0 3))
  | 0x02 => some (.stv (fld w 20 6) (fld w 14 6) (fld w 3 11) (fld w 0 3))
  | 0x08 => some (.send (fld w 20 6) (fld w 14 6) (fld w 0 3))
  | 0x09 => some (.recv (fld w 20 6) (fld w 18 2) (fld w 0 3))
  | 0x0A => some (.croute (fld w 14 6) (fld w 0 3))
  | 0x10 => some (.bcopy (fld w 20 6) (fld w 14 6) (fld w 12 2) (fld w 11 1) (fld w 10 1) (fld w 0 3))
  | 0x11 => some (.bgath (fld w 20 6) (fld w 14 6) (fld w 12 2) (fld w 0 3))
  | 0x12 => some (.bscat (fld w 20 6) (fld w 14 6) (fld w 0 3))
  | 0x13 => some (.breda (fld w 20 6) (fld w 14 6) (fld w 11 3) (fld w 10 1) (fld w 4 4) (fld w 0 3))
  | 0x14 => some (.batom (fld w 20 6) (fld w 14 6) (fld w 12 2) (fld w 3 5) (fld w 0 3))
  | 0x15 => some (.bfence (fld w 20 6) (fld w 14 6) (fld w 12 2) (fld w 0 3))
  | 0x16 => some (.bmark (fld w 20 6) (fld w 14 6) (fld w 0 3))
  | 0x17 => some (.bseal (fld w 20 6) (fld w 14 6) (fld w 0 3))
  | 0x18 => some (.bopen (fld w 20 6) (fld w 14 6) (fld w 0 3))
  | _ => none

/-- The instruction that the slot's map gives a word, whatever its reserved bits and field values. -/
def candidate (sl : Slot) (w : Nat) : Option Instr :=
  match sl with
  | .c => mapC (w / 2 ^ 26) w
  | .a => mapA (w / 2 ^ 26) w
  | .v0 => mapV .v0 (w / 2 ^ 26) w
  | .v1 => mapV .v1 (w / 2 ^ 26) w
  | .m => mapM (w / 2 ^ 26) w
  | .d => mapD (w / 2 ^ 26) w
  | .x => mapX (w / 2 ^ 26) w
  | .f => mapF (w / 2 ^ 26) w

/-- A word with opcode `op` and the listed fields, each a value and its lowest bit (R314). -/
def pack (op : Nat) : List (Nat × Nat) → Nat
  | [] => op * 2 ^ 26
  | (v, lo) :: fs => v * 2 ^ lo + pack op fs

/-- The bits of an instruction's slot word as a number; an event has no word. -/
def Instr.bits : Instr → Option Nat
  | .nop => some 0
  | .br t p => some (pack 0x01 [(t.toNat, 14), (p.toNat, 0)])
  | .brp t q p => some (pack 0x02 [(t.toNat, 14), (q.toNat, 11), (p.toNat, 0)])
  | .call t p => some (pack 0x03 [(t.toNat, 14), (p.toNat, 0)])
  | .ret p => some (pack 0x04 [(p.toNat, 0)])
  | .loop t p => some (pack 0x05 [(t.toNat, 14), (p.toNat, 0)])
  | .loopr t s w p => some (pack 0x06 [(t.toNat, 14), (s.toNat, 12), (w.toNat, 3), (p.toNat, 0)])
  | .waitb b c p => some (pack 0x08 [(b.toNat, 15), (c.toNat, 3), (p.toNat, 0)])
  | .arrb b c p => some (pack 0x09 [(b.toNat, 15), (c.toNat, 3), (p.toNat, 0)])
  | .waitt k p => some (pack 0x0A [(k.toNat, 20), (p.toNat, 0)])
  | .waitp k s p => some (pack 0x0B [(k.toNat, 20), (s.toNat, 14), (p.toNat, 0)])
  | .trig p => some (pack 0x0C [(p.toNat, 0)])
  | .endTask p => some (pack 0x0D [(p.toNat, 0)])
  | .seg e g m p => some (pack 0x10 [(e.toNat, 20), (g.toNat, 14), (m.toNat, 13), (p.toNat, 0)])
  | .sege p => some (pack 0x11 [(p.toNat, 0)])
  | .ifence p => some (pack 0x12 [(p.toNat, 0)])
  | .snap p => some (pack 0x13 [(p.toNat, 0)])
  | .genq d a p => some (pack 0x14 [(d.toNat, 20), (a.toNat, 14), (p.toNat, 0)])
  | .brk c p => some (pack 0x18 [(c.toNat, 18), (p.toNat, 0)])
  | .trap c p => some (pack 0x19 [(c.toNat, 18), (p.toNat, 0)])
  | .pand d a b p => some (pack 0x1C [(d.toNat, 23), (a.toNat, 20), (b.toNat, 17), (p.toNat, 0)])
  | .por d a b p => some (pack 0x1D [(d.toNat, 23), (a.toNat, 20), (b.toNat, 17), (p.toNat, 0)])
  | .pxor d a b p => some (pack 0x1E [(d.toNat, 23), (a.toNat, 20), (b.toNat, 17), (p.toNat, 0)])
  | .pnot d a p => some (pack 0x1F [(d.toNat, 23), (a.toNat, 20), (p.toNat, 0)])
  | .add d a b p => some (pack 0x01 [(d.toNat, 20), (a.toNat, 14), (b.toNat, 8), (p.toNat, 0)])
  | .sub d a b p => some (pack 0x02 [(d.toNat, 20), (a.toNat, 14), (b.toNat, 8), (p.toNat, 0)])
  | .andS d a b p => some (pack 0x03 [(d.toNat, 20), (a.toNat, 14), (b.toNat, 8), (p.toNat, 0)])
  | .orS d a b p => some (pack 0x04 [(d.toNat, 20), (a.toNat, 14), (b.toNat, 8), (p.toNat, 0)])
  | .xorS d a b p => some (pack 0x05 [(d.toNat, 20), (a.toNat, 14), (b.toNat, 8), (p.toNat, 0)])
  | .shl d a b p => some (pack 0x06 [(d.toNat, 20), (a.toNat, 14), (b.toNat, 8), (p.toNat, 0)])
  | .shr d a b p => some (pack 0x07 [(d.toNat, 20), (a.toNat, 14), (b.toNat, 8), (p.toNat, 0)])
  | .sra d a b p => some (pack 0x08 [(d.toNat, 20), (a.toNat, 14), (b.toNat, 8), (p.toNat, 0)])
  | .mul d a b p => some (pack 0x09 [(d.toNat, 20), (a.toNat, 14), (b.toNat, 8), (p.toNat, 0)])
  | .mulh d a b p => some (pack 0x0A [(d.toNat, 20), (a.toNat, 14), (b.toNat, 8), (p.toNat, 0)])
  | .mulhu d a b p => some (pack 0x0B [(d.toNat, 20), (a.toNat, 14), (b.toNat, 8), (p.toNat, 0)])
  | .maxS d a b s p => some (pack 0x0C [(d.toNat, 20), (a.toNat, 14), (b.toNat, 8), (s.toNat, 3), (p.toNat, 0)])
  | .minS d a b s p => some (pack 0x0D [(d.toNat, 20), (a.toNat, 14), (b.toNat, 8), (s.toNat, 3), (p.toNat, 0)])
  | .clz d a p => some (pack 0x0E [(d.toNat, 20), (a.toNat, 14), (p.toNat, 0)])
  | .ffs d a p => some (pack 0x0F [(d.toNat, 20), (a.toNat, 14), (p.toNat, 0)])
  | .popc d a p => some (pack 0x10 [(d.toNat, 20), (a.toNat, 14), (p.toNat, 0)])
  | .sel d a b t p => some (pack 0x11 [(d.toNat, 20), (a.toNat, 14), (b.toNat, 8), (t.toNat, 3), (p.toNat, 0)])
  | .cmp d a b c p => some (pack 0x12 [(d.toNat, 23), (a.toNat, 14), (b.toNat, 8), (c.toNat, 3), (p.toNat, 0)])
  | .addi d a i p => some (pack 0x18 [(d.toNat, 20), (a.toNat, 14), (i.toNat, 3), (p.toNat, 0)])
  | .lds d a i p => some (pack 0x19 [(d.toNat, 20), (a.toNat, 14), (i.toNat, 3), (p.toNat, 0)])
  | .sts v a i p => some (pack 0x1A [(v.toNat, 20), (a.toNat, 14), (i.toNat, 3), (p.toNat, 0)])
  | .li d i p => some (pack 0x1C [(d.toNat, 20), (i.toNat, 3), (p.toNat, 0)])
  | .lih d i p => some (pack 0x1D [(d.toNat, 20), (i.toNat, 3), (p.toNat, 0)])
  | .vaddF _ f r d a b p => some (pack 0x01 [(f.toNat, 24), (r.toNat, 21), (d.toNat, 15), (a.toNat, 9), (b.toNat, 3), (p.toNat, 0)])
  | .vsubF _ f r d a b p => some (pack 0x02 [(f.toNat, 24), (r.toNat, 21), (d.toNat, 15), (a.toNat, 9), (b.toNat, 3), (p.toNat, 0)])
  | .vmulF _ f r d a b p => some (pack 0x03 [(f.toNat, 24), (r.toNat, 21), (d.toNat, 15), (a.toNat, 9), (b.toNat, 3), (p.toNat, 0)])
  | .vfma _ f r d a b p => some (pack 0x04 [(f.toNat, 24), (r.toNat, 21), (d.toNat, 15), (a.toNat, 9), (b.toNat, 3), (p.toNat, 0)])
  | .vmaxF _ f d a b p => some (pack 0x05 [(f.toNat, 24), (d.toNat, 15), (a.toNat, 9), (b.toNat, 3), (p.toNat, 0)])
  | .vminF _ f d a b p => some (pack 0x06 [(f.toNat, 24), (d.toNat, 15), (a.toNat, 9), (b.toNat, 3), (p.toNat, 0)])
  | .vcpys _ f d a b p => some (pack 0x07 [(f.toNat, 24), (d.toNat, 15), (a.toNat, 9), (b.toNat, 3), (p.toNat, 0)])
  | .vcmpEqF _ f d a b p => some (pack 0x08 [(f.toNat, 24), (d.toNat, 15), (a.toNat, 9), (b.toNat, 3), (p.toNat, 0)])
  | .vcmpLtF _ f d a b p => some (pack 0x09 [(f.toNat, 24), (d.toNat, 15), (a.toNat, 9), (b.toNat, 3), (p.toNat, 0)])
  | .vcmpLeF _ f d a b p => some (pack 0x0A [(f.toNat, 24), (d.toNat, 15), (a.toNat, 9), (b.toNat, 3), (p.toNat, 0)])
  | .vabsF _ f d a p => some (pack 0x0B [(f.toNat, 24), (d.toNat, 15), (a.toNat, 9), (p.toNat, 0)])
  | .vnegF _ f d a p => some (pack 0x0C [(f.toNat, 24), (d.toNat, 15), (a.toNat, 9), (p.toNat, 0)])
  | .vrint _ f r d a p => some (pack 0x0D [(f.toNat, 24), (r.toNat, 21), (d.toNat, 15), (a.toNat, 9), (p.toNat, 0)])
  | .vredF _ f r d a p => some (pack 0x0E [(f.toNat, 24), (r.toNat, 21), (d.toNat, 15), (a.toNat, 9), (p.toNat, 0)])
  | .vscale _ f r d a b p => some (pack 0x0F [(f.toNat, 24), (r.toNat, 21), (d.toNat, 15), (a.toNat, 9), (b.toNat, 3), (p.toNat, 0)])
  | .vrcp _ f r d a p => some (pack 0x10 [(f.toNat, 24), (r.toNat, 21), (d.toNat, 15), (a.toNat, 9), (p.toNat, 0)])
  | .vsqrt _ f r d a p => some (pack 0x11 [(f.toNat, 24), (r.toNat, 21), (d.toNat, 15), (a.toNat, 9), (p.toNat, 0)])
  | .vrsq _ f r d a p => some (pack 0x12 [(f.toNat, 24), (r.toNat, 21), (d.toNat, 15), (a.toNat, 9), (p.toNat, 0)])
  | .vexp2 _ f r d a p => some (pack 0x13 [(f.toNat, 24), (r.toNat, 21), (d.toNat, 15), (a.toNat, 9), (p.toNat, 0)])
  | .vlog2 _ f r d a p => some (pack 0x14 [(f.toNat, 24), (r.toNat, 21), (d.toNat, 15), (a.toNat, 9), (p.toNat, 0)])
  | .vsin _ f r d a p => some (pack 0x15 [(f.toNat, 24), (r.toNat, 21), (d.toNat, 15), (a.toNat, 9), (p.toNat, 0)])
  | .vcos _ f r d a p => some (pack 0x16 [(f.toNat, 24), (r.toNat, 21), (d.toNat, 15), (a.toNat, 9), (p.toNat, 0)])
  | .vtanh _ f r d a p => some (pack 0x17 [(f.toNat, 24), (r.toNat, 21), (d.toNat, 15), (a.toNat, 9), (p.toNat, 0)])
  | .vaddI _ w s d a b p => some (pack 0x20 [(w.toNat, 23), (s.toNat, 22), (d.toNat, 15), (a.toNat, 9), (b.toNat, 3), (p.toNat, 0)])
  | .vsubI _ w s d a b p => some (pack 0x21 [(w.toNat, 23), (s.toNat, 22), (d.toNat, 15), (a.toNat, 9), (b.toNat, 3), (p.toNat, 0)])
  | .vmulI _ w s d a b p => some (pack 0x22 [(w.toNat, 23), (s.toNat, 22), (d.toNat, 15), (a.toNat, 9), (b.toNat, 3), (p.toNat, 0)])
  | .vmulh _ w d a b p => some (pack 0x23 [(w.toNat, 23), (d.toNat, 15), (a.toNat, 9), (b.toNat, 3), (p.toNat, 0)])
  | .vmaxI _ w d a b p => some (pack 0x24 [(w.toNat, 23), (d.toNat, 15), (a.toNat, 9), (b.toNat, 3), (p.toNat, 0)])
  | .vminI _ w d a b p => some (pack 0x25 [(w.toNat, 23), (d.toNat, 15), (a.toNat, 9), (b.toNat, 3), (p.toNat, 0)])
  | .vand _ w d a b p => some (pack 0x26 [(w.toNat, 23), (d.toNat, 15), (a.toNat, 9), (b.toNat, 3), (p.toNat, 0)])
  | .vor _ w d a b p => some (pack 0x27 [(w.toNat, 23), (d.toNat, 15), (a.toNat, 9), (b.toNat, 3), (p.toNat, 0)])
  | .vxor _ w d a b p => some (pack 0x28 [(w.toNat, 23), (d.toNat, 15), (a.toNat, 9), (b.toNat, 3), (p.toNat, 0)])
  | .vshl _ w d a b p => some (pack 0x29 [(w.toNat, 23), (d.toNat, 15), (a.toNat, 9), (b.toNat, 3), (p.toNat, 0)])
  | .vshr _ w d a b p => some (pack 0x2A [(w.toNat, 23), (d.toNat, 15), (a.toNat, 9), (b.toNat, 3), (p.toNat, 0)])
  | .vabsI _ w s d a p => some (pack 0x2B [(w.toNat, 23), (s.toNat, 22), (d.toNat, 15), (a.toNat, 9), (p.toNat, 0)])
  | .vnegI _ w s d a p => some (pack 0x2C [(w.toNat, 23), (s.toNat, 22), (d.toNat, 15), (a.toNat, 9), (p.toNat, 0)])
  | .vclz _ w d a p => some (pack 0x2D [(w.toNat, 23), (d.toNat, 15), (a.toNat, 9), (p.toNat, 0)])
  | .vffs _ w d a p => some (pack 0x2E [(w.toNat, 23), (d.toNat, 15), (a.toNat, 9), (p.toNat, 0)])
  | .vpopc _ w d a p => some (pack 0x2F [(w.toNat, 23), (d.toNat, 15), (a.toNat, 9), (p.toNat, 0)])
  | .vcmpEqI _ w d a b p => some (pack 0x30 [(w.toNat, 23), (d.toNat, 15), (a.toNat, 9), (b.toNat, 3), (p.toNat, 0)])
  | .vcmpLtI _ w d a b p => some (pack 0x31 [(w.toNat, 23), (d.toNat, 15), (a.toNat, 9), (b.toNat, 3), (p.toNat, 0)])
  | .vcmpLeI _ w d a b p => some (pack 0x32 [(w.toNat, 23), (d.toNat, 15), (a.toNat, 9), (b.toNat, 3), (p.toNat, 0)])
  | .vredI _ w s d a p => some (pack 0x33 [(w.toNat, 23), (s.toNat, 22), (d.toNat, 15), (a.toNat, 9), (p.toNat, 0)])
  | .vmaxe _ w d a b p => some (pack 0x34 [(w.toNat, 23), (d.toNat, 15), (a.toNat, 9), (b.toNat, 3), (p.toNat, 0)])
  | .vexps _ w x d a p => some (pack 0x35 [(w.toNat, 23), (x.toNat, 21), (d.toNat, 15), (a.toNat, 9), (p.toNat, 0)])
  | .vsel _ w d a b p => some (pack 0x36 [(w.toNat, 23), (d.toNat, 15), (a.toNat, 9), (b.toNat, 3), (p.toNat, 0)])
  | .vshuf _ w d a b p => some (pack 0x37 [(w.toNat, 23), (d.toNat, 15), (a.toNat, 9), (b.toNat, 3), (p.toNat, 0)])
  | .vdup _ w d a b p => some (pack 0x38 [(w.toNat, 23), (d.toNat, 15), (a.toNat, 9), (b.toNat, 3), (p.toNat, 0)])
  | .vcvtFromFloat _ f r d a g s p => some (pack 0x3A [(f.toNat, 24), (r.toNat, 21), (d.toNat, 15), (a.toNat, 9), (g.toNat, 5), (s.toNat, 4), (p.toNat, 0)])
  | .vcvtFromInt _ w s y d a r g p => some (pack 0x3B [(w.toNat, 23), (s.toNat, 22), (y.toNat, 21), (d.toNat, 15), (a.toNat, 9), (r.toNat, 6), (g.toNat, 3), (p.toNat, 0)])
  | .vcvtWidenF8 _ f d a g p => some (pack 0x3C [(f.toNat, 22), (d.toNat, 15), (a.toNat, 9), (g.toNat, 5), (p.toNat, 0)])
  | .mpush l c v p => some (pack 0x01 [(l.toNat, 24), (c.toNat, 16), (v.toNat, 10), (p.toNat, 0)])
  | .mhad l o f p => some (pack 0x02 [(l.toNat, 24), (o.toNat, 20), (f.toNat, 16), (p.toNat, 0)])
  | .msta w o s k p => some (pack 0x03 [(w.toNat, 24), (o.toNat, 16), (s.toNat, 10), (k.toNat, 7), (p.toNat, 0)])
  | .mzero n o p => some (pack 0x04 [(n.toNat, 24), (o.toNat, 16), (p.toNat, 0)])
  | .mfs n d p => some (pack 0x06 [(n.toNat, 16), (d.toNat, 10), (p.toNat, 0)])
  | .mts n s p => some (pack 0x07 [(n.toNat, 16), (s.toNat, 10), (p.toNat, 0)])
  | .maccF64 l w v k r f p => some (pack 0x08 [(l.toNat, 24), (w.toNat, 16), (v.toNat, 10), (k.toNat, 7), (r.toNat, 4), (f.toNat, 3), (p.toNat, 0)])
  | .maccF32 l w v k r f p => some (pack 0x09 [(l.toNat, 24), (w.toNat, 16), (v.toNat, 10), (k.toNat, 7), (r.toNat, 4), (f.toNat, 3), (p.toNat, 0)])
  | .maccF16 l w v k r f p => some (pack 0x0A [(l.toNat, 24), (w.toNat, 16), (v.toNat, 10), (k.toNat, 7), (r.toNat, 4), (f.toNat, 3), (p.toNat, 0)])
  | .maccB16 l w v k r f p => some (pack 0x0B [(l.toNat, 24), (w.toNat, 16), (v.toNat, 10), (k.toNat, 7), (r.toNat, 4), (f.toNat, 3), (p.toNat, 0)])
  | .maccF8e4 l w v k r f p => some (pack 0x0C [(l.toNat, 24), (w.toNat, 16), (v.toNat, 10), (k.toNat, 7), (r.toNat, 4), (f.toNat, 3), (p.toNat, 0)])
  | .maccF8e5 l w v k r f p => some (pack 0x0D [(l.toNat, 24), (w.toNat, 16), (v.toNat, 10), (k.toNat, 7), (r.toNat, 4), (f.toNat, 3), (p.toNat, 0)])
  | .maccI8 l w v k f p => some (pack 0x0E [(l.toNat, 24), (w.toNat, 16), (v.toNat, 10), (k.toNat, 7), (f.toNat, 3), (p.toNat, 0)])
  | .maccN8 l w v k f p => some (pack 0x0F [(l.toNat, 24), (w.toNat, 16), (v.toNat, 10), (k.toNat, 7), (f.toNat, 3), (p.toNat, 0)])
  | .maccaF64 l w s g k r f p => some (pack 0x10 [(l.toNat, 24), (w.toNat, 16), (s.toNat, 12), (g.toNat, 10), (k.toNat, 7), (r.toNat, 4), (f.toNat, 3), (p.toNat, 0)])
  | .maccaF32 l w s g k r f p => some (pack 0x11 [(l.toNat, 24), (w.toNat, 16), (s.toNat, 12), (g.toNat, 10), (k.toNat, 7), (r.toNat, 4), (f.toNat, 3), (p.toNat, 0)])
  | .maccaF16 l w s g k r f p => some (pack 0x12 [(l.toNat, 24), (w.toNat, 16), (s.toNat, 12), (g.toNat, 10), (k.toNat, 7), (r.toNat, 4), (f.toNat, 3), (p.toNat, 0)])
  | .maccaB16 l w s g k r f p => some (pack 0x13 [(l.toNat, 24), (w.toNat, 16), (s.toNat, 12), (g.toNat, 10), (k.toNat, 7), (r.toNat, 4), (f.toNat, 3), (p.toNat, 0)])
  | .maccaF8e4 l w s g k r f p => some (pack 0x14 [(l.toNat, 24), (w.toNat, 16), (s.toNat, 12), (g.toNat, 10), (k.toNat, 7), (r.toNat, 4), (f.toNat, 3), (p.toNat, 0)])
  | .maccaF8e5 l w s g k r f p => some (pack 0x15 [(l.toNat, 24), (w.toNat, 16), (s.toNat, 12), (g.toNat, 10), (k.toNat, 7), (r.toNat, 4), (f.toNat, 3), (p.toNat, 0)])
  | .maccaI8 l w s g k f p => some (pack 0x16 [(l.toNat, 24), (w.toNat, 16), (s.toNat, 12), (g.toNat, 10), (k.toNat, 7), (f.toNat, 3), (p.toNat, 0)])
  | .maccaN8 l w s g k f p => some (pack 0x17 [(l.toNat, 24), (w.toNat, 16), (s.toNat, 12), (g.toNat, 10), (k.toNat, 7), (f.toNat, 3), (p.toNat, 0)])
  | .mdrainF32F32 c w d g r s p => some (pack 0x18 [(c.toNat, 24), (w.toNat, 16), (d.toNat, 10), (g.toNat, 7), (r.toNat, 4), (s.toNat, 3), (p.toNat, 0)])
  | .mdrainF32F16 c w d g r s p => some (pack 0x19 [(c.toNat, 24), (w.toNat, 16), (d.toNat, 10), (g.toNat, 7), (r.toNat, 4), (s.toNat, 3), (p.toNat, 0)])
  | .mdrainF32B16 c w d g r s p => some (pack 0x1A [(c.toNat, 24), (w.toNat, 16), (d.toNat, 10), (g.toNat, 7), (r.toNat, 4), (s.toNat, 3), (p.toNat, 0)])
  | .mdrainF32F8e4 c w d g r s p => some (pack 0x1B [(c.toNat, 24), (w.toNat, 16), (d.toNat, 10), (g.toNat, 7), (r.toNat, 4), (s.toNat, 3), (p.toNat, 0)])
  | .mdrainF32F8e5 c w d g r s p => some (pack 0x1C [(c.toNat, 24), (w.toNat, 16), (d.toNat, 10), (g.toNat, 7), (r.toNat, 4), (s.toNat, 3), (p.toNat, 0)])
  | .mdrainF64F64 c w d g r s p => some (pack 0x1D [(c.toNat, 24), (w.toNat, 16), (d.toNat, 10), (g.toNat, 7), (r.toNat, 4), (s.toNat, 3), (p.toNat, 0)])
  | .mdrainF64F32 c w d g r s p => some (pack 0x1E [(c.toNat, 24), (w.toNat, 16), (d.toNat, 10), (g.toNat, 7), (r.toNat, 4), (s.toNat, 3), (p.toNat, 0)])
  | .mdrainI32I32 w d g s p => some (pack 0x1F [(w.toNat, 16), (d.toNat, 10), (g.toNat, 7), (s.toNat, 3), (p.toNat, 0)])
  | .mdrainI32I16 w d g s p => some (pack 0x20 [(w.toNat, 16), (d.toNat, 10), (g.toNat, 7), (s.toNat, 3), (p.toNat, 0)])
  | .mdrainI32I8 w d g s p => some (pack 0x21 [(w.toNat, 16), (d.toNat, 10), (g.toNat, 7), (s.toNat, 3), (p.toNat, 0)])
  | .act c b s p => some (pack 0x01 [(c.toNat, 24), (b.toNat, 20), (s.toNat, 14), (p.toNat, 0)])
  | .actw c b s p => some (pack 0x02 [(c.toNat, 24), (b.toNat, 20), (s.toNat, 14), (p.toNat, 0)])
  | .rd c b l v p => some (pack 0x03 [(c.toNat, 24), (b.toNat, 20), (l.toNat, 10), (v.toNat, 4), (p.toNat, 0)])
  | .wr c b l v p => some (pack 0x04 [(c.toNat, 24), (b.toNat, 20), (l.toNat, 10), (v.toNat, 4), (p.toNat, 0)])
  | .pre c b p => some (pack 0x05 [(c.toNat, 24), (b.toNat, 20), (p.toNat, 0)])
  | .prea c p => some (pack 0x06 [(c.toNat, 24), (p.toNat, 0)])
  | .ref c p => some (pack 0x07 [(c.toNat, 24), (p.toNat, 0)])
  | .refb c b p => some (pack 0x08 [(c.toNat, 24), (b.toNat, 20), (p.toNat, 0)])
  | .sgen d l c v p => some (pack 0x01 [(d.toNat, 23), (l.toNat, 15), (c.toNat, 10), (v.toNat, 4), (p.toNat, 0)])
  | .sgenb d l c v p => some (pack 0x02 [(d.toNat, 23), (l.toNat, 15), (c.toNat, 10), (v.toNat, 4), (p.toNat, 0)])
  | .sregen d a l c p => some (pack 0x03 [(d.toNat, 23), (a.toNat, 20), (l.toNat, 15), (c.toNat, 10), (p.toNat, 0)])
  | .sand d a b l c p => some (pack 0x04 [(d.toNat, 23), (a.toNat, 20), (b.toNat, 17), (l.toNat, 15), (c.toNat, 14), (p.toNat, 0)])
  | .sor d a b l c p => some (pack 0x05 [(d.toNat, 23), (a.toNat, 20), (b.toNat, 17), (l.toNat, 15), (c.toNat, 14), (p.toNat, 0)])
  | .sxor d a b l c p => some (pack 0x06 [(d.toNat, 23), (a.toNat, 20), (b.toNat, 17), (l.toNat, 15), (c.toNat, 14), (p.toNat, 0)])
  | .sxnor d a b l c p => some (pack 0x07 [(d.toNat, 23), (a.toNat, 20), (b.toNat, 17), (l.toNat, 15), (c.toNat, 14), (p.toNat, 0)])
  | .smux d a b l c s p => some (pack 0x08 [(d.toNat, 23), (a.toNat, 20), (b.toNat, 17), (l.toNat, 15), (c.toNat, 14), (s.toNat, 10), (p.toNat, 0)])
  | .snot d a l p => some (pack 0x09 [(d.toNat, 23), (a.toNat, 20), (l.toNat, 15), (p.toNat, 0)])
  | .smov d a l p => some (pack 0x0A [(d.toNat, 23), (a.toNat, 20), (l.toNat, 15), (p.toNat, 0)])
  | .sdly d a l y p => some (pack 0x0B [(d.toNat, 23), (a.toNat, 20), (l.toNat, 15), (y.toNat, 10), (p.toNat, 0)])
  | .scnt a l v c p => some (pack 0x0C [(a.toNat, 20), (l.toNat, 15), (v.toNat, 4), (c.toNat, 3), (p.toNat, 0)])
  | .scls a v p => some (pack 0x0D [(a.toNat, 20), (v.toNat, 4), (p.toNat, 0)])
  | .sld d l s p => some (pack 0x0E [(d.toNat, 23), (l.toNat, 15), (s.toNat, 4), (p.toNat, 0)])
  | .sst a l s p => some (pack 0x0F [(a.toNat, 20), (l.toNat, 15), (s.toNat, 4), (p.toNat, 0)])
  | .ldv d s o p => some (pack 0x01 [(d.toNat, 20), (s.toNat, 14), (o.toNat, 3), (p.toNat, 0)])
  | .stv v s o p => some (pack 0x02 [(v.toNat, 20), (s.toNat, 14), (o.toNat, 3), (p.toNat, 0)])
  | .send r v p => some (pack 0x08 [(r.toNat, 20), (v.toNat, 14), (p.toNat, 0)])
  | .recv d l p => some (pack 0x09 [(d.toNat, 20), (l.toNat, 18), (p.toNat, 0)])
  | .croute s p => some (pack 0x0A [(s.toNat, 14), (p.toNat, 0)])
  | .bcopy k s t c d p => some (pack 0x10 [(k.toNat, 20), (s.toNat, 14), (t.toNat, 12), (c.toNat, 11), (d.toNat, 10), (p.toNat, 0)])
  | .bgath k s t p => some (pack 0x11 [(k.toNat, 20), (s.toNat, 14), (t.toNat, 12), (p.toNat, 0)])
  | .bscat k s p => some (pack 0x12 [(k.toNat, 20), (s.toNat, 14), (p.toNat, 0)])
  | .breda k s r a f p => some (pack 0x13 [(k.toNat, 20), (s.toNat, 14), (r.toNat, 11), (a.toNat, 10), (f.toNat, 4), (p.toNat, 0)])
  | .batom k s c o p => some (pack 0x14 [(k.toNat, 20), (s.toNat, 14), (c.toNat, 12), (o.toNat, 3), (p.toNat, 0)])
  | .bfence k s c p => some (pack 0x15 [(k.toNat, 20), (s.toNat, 14), (c.toNat, 12), (p.toNat, 0)])
  | .bmark k s p => some (pack 0x16 [(k.toNat, 20), (s.toNat, 14), (p.toNat, 0)])
  | .bseal k s p => some (pack 0x17 [(k.toNat, 20), (s.toNat, 14), (p.toNat, 0)])
  | .bopen k s p => some (pack 0x18 [(k.toNat, 20), (s.toNat, 14), (p.toNat, 0)])
  | _ => none

/-- The encoder: the slot word of an instruction. -/
def encode (i : Instr) : Option SlotWord := i.bits.map (BitVec.ofNat 32)

/-- Does the word of `i` stand in slot `sl`? A NOP stands in every slot (R55). -/
def Instr.standsIn (i : Instr) (sl : Slot) : Bool :=
  match i.bits with
  | none => false
  | some w => if w = 0 then true else candidate sl w == some i

/-- The decoder, in the order of Table 15.2 (R316). -/
def decode (sl : Slot) (w : SlotWord) : Except Reject Instr :=
  if w.toNat = 0 then .ok .nop
  else if w.toNat / 2 ^ 26 = 0 then .error .nopBits
  else match candidate sl w.toNat with
    | none => .error .unassigned
    | some i =>
      if i.bits = some w.toNat then (if i.wellFormed then .ok i else .error .illegalField) else .error .reservedBit

/-- The slots of a bundle in order (Table 3.1). -/
def Slot.all : List Slot := [.c, .a, .v0, .v1, .m, .d, .x, .f]

/-- A slot's number (Table 3.1). -/
def Slot.num : Slot → Nat
  | .c => 0
  | .a => 1
  | .v0 => 2
  | .v1 => 3
  | .m => 4
  | .d => 5
  | .x => 6
  | .f => 7

/-- Slot `sl` of a bundle: the little-endian word at bytes 4n to 4n + 3 (R55). -/
def slotWord (b : Bundle) (sl : Slot) : SlotWord := BitVec.ofNat 32 (b.toNat / 2 ^ (32 * sl.num))

/-- A bundle that holds one word in slot `sl` and the NOP in every other. -/
def loneBundle (sl : Slot) (w : SlotWord) : Bundle := BitVec.ofNat 256 (w.toNat * 2 ^ (32 * sl.num))

/-- The eight words of a bundle, decoded in slot order (R312). -/
def decodeBundle (b : Bundle) : List (Slot × Except Reject Instr) :=
  Slot.all.map fun sl => (sl, decode sl (slotWord b sl))

/-- The first slot, in the order C, A, V0, V1, M, D, X, F, in which a lone word is an instruction. -/
def loneSlot (w : SlotWord) : Option (Slot × Instr) :=
  Slot.all.findSome? fun sl =>
    match decode sl w with
    | .ok i => some (sl, i)
    | .error _ => none

/-- The instruction a lone word of the opcode table stands for. The table does not say which slot its word stands in, so the
slots are tried in order (DESIGN CHOICE, log entry 1). -/
def decodeTableWord (nbits w : Nat) : Option Instr :=
  if nbits = 0 ∨ 2 ^ 32 ≤ w then none else (loneSlot (BitVec.ofNat 32 w)).map Prod.snd

end Sys2Proof
end

