-- ==== Sys2Proof/Machine/Bits.lean ====
section
/-! DEFINITION. Elements of rows, bytes of words, bit counts, integer narrowing and the CRC of a bundle. -/

namespace Sys2Proof.Machine

/-- The `n` elements of `w` bytes of a number, element 0 lowest (R69). -/
def elems (w : Nat) : Nat → Nat → List Nat
  | 0, _ => []
  | n + 1, x => x % 2 ^ (8 * w) :: elems w n (x / 2 ^ (8 * w))

/-- The number whose elements of `w` bytes are the listed ones, each taken modulo its width (R69). -/
def ofElems (w : Nat) : List Nat → Nat
  | [] => 0
  | x :: xs => x % 2 ^ (8 * w) + 2 ^ (8 * w) * ofElems w xs

/-- The bytes of a number, lowest first (R4). -/
def bytesOf (n x : Nat) : List Byte := (elems 1 n x).map (BitVec.ofNat 8)

/-- The number that little-endian bytes spell (R4). -/
def ofBytes (bs : List Byte) : Nat := ofElems 1 (bs.map BitVec.toNat)

/-- Element `i` of `w` bytes of a number. -/
def elemAt (w x i : Nat) : Nat := x / 2 ^ (8 * w * i) % 2 ^ (8 * w)

/-- Bits `hi` down to `lo` of a number (R8). -/
def bits (x hi lo : Nat) : Nat := x / 2 ^ lo % 2 ^ (hi + 1 - lo)

/-- A number of `n` bits read as two's complement. -/
def toSigned (n x : Nat) : Int := if x % 2 ^ n < 2 ^ (n - 1) then (x % 2 ^ n : Nat) else (x % 2 ^ n : Nat) - (2 ^ n : Nat)

/-- An element read by the sign of its width code (R438). -/
def readInt (signed : Bool) (n x : Nat) : Int := if signed then toSigned n x else (x % 2 ^ n : Nat)

/-- `wrap(w, x)` (R96). -/
def wrapInt (n : Nat) (x : Int) : Nat := (x % (2 ^ n : Nat)).toNat

/-- The bounds of an integer format (R88). -/
def minInt (signed : Bool) (n : Nat) : Int := if signed then -(2 ^ (n - 1) : Nat) else 0

/-- See `minInt`. -/
def maxInt (signed : Bool) (n : Nat) : Int := if signed then (2 ^ (n - 1) : Nat) - 1 else (2 ^ n : Nat) - 1

/-- `saturate(w, signed, x)` (R96). -/
def saturateInt (signed : Bool) (n : Nat) (x : Int) : Int := max (minInt signed n) (min (maxInt signed n) x)

/-- Wrap, or saturate when `sat` is set (R96). -/
def narrow (sat signed : Bool) (n : Nat) (x : Int) : Nat := wrapInt n (if sat then saturateInt signed n x else x)

/-- Set bits of the low `n` bits. -/
def popCount : Nat → Nat → Nat
  | 0, _ => 0
  | n + 1, x => x % 2 + popCount n (x / 2)

/-- Zero bits above the highest set bit of an `n`-bit number; `n` for zero (R114). -/
def leadingZeros (n x : Nat) : Nat := if x = 0 then n else n - 1 - Nat.log2 x

/-- The index of the lowest set bit of an `n`-bit number; `n` for zero (R114). -/
def firstSet : Nat → Nat → Nat
  | 0, _ => 0
  | n + 1, x => if x % 2 = 1 then 0 else firstSet n (x / 2) + 1

/-- Eight shifts of the reflected Castagnoli register. -/
def crcByte : Nat → Nat → Nat
  | 0, c => c
  | n + 1, c => crcByte n (if c % 2 = 1 then (c / 2) ^^^ 0x82F63B78 else c / 2)

/-- The Castagnoli CRC-32 of a byte string (R80). -/
def crc32c (bs : List Byte) : BitVec 32 :=
  BitVec.ofNat 32 ((bs.foldl (fun c b => crcByte 8 (c ^^^ b.toNat)) 0xFFFFFFFF) ^^^ 0xFFFFFFFF)

/-- The signature contribution of a bundle (R79). -/
def bundleCrc (b : Bundle) : BitVec 32 := crc32c (bytesOf 32 b.toNat)

/-- A two-bit, three-bit or wider field as a number at a bit position, for words the device writes. -/
def place (x lo : Nat) : Nat := x * 2 ^ lo

end Sys2Proof.Machine
end

