-- ==== Sys2Proof/Machine/Float.lean ====
section
/-! DEFINITION. Floating-point formats, rounding, exact sums and conversions (chapter 04). -/

namespace Sys2Proof.Machine

/-- A floating-point format: exponent bits, fraction bits, bias (Table 4.1). -/
structure Fmt where
  ebits : Nat
  fbits : Nat
  bias : Nat
  deriving DecidableEq, Repr

/-- The format of a code 0-5 (Table 4.2); higher codes are not float formats. -/
def fmtOf : Nat → Fmt
  | 0 => ⟨11, 52, 1023⟩
  | 1 => ⟨8, 23, 127⟩
  | 2 => ⟨5, 10, 15⟩
  | 3 => ⟨8, 7, 127⟩
  | 4 => ⟨4, 3, 8⟩
  | _ => ⟨5, 2, 15⟩

/-- Width in bytes. -/
def Fmt.bytes (f : Fmt) : Nat := (1 + f.ebits + f.fbits) / 8

/-- The exponent of the least significant bit of a subnormal: emin - F. -/
def Fmt.qmin (f : Fmt) : Int := 1 - (f.bias : Int) - (f.fbits : Int)

/-- The exponent of the least significant bit of the largest finite value. -/
def Fmt.qmax (f : Fmt) : Int := (2 ^ f.ebits : Nat) - 2 - (f.bias : Int) - (f.fbits : Int)

/-- A sign bit in its place. -/
def Fmt.signBit (f : Fmt) (s : Bool) : Nat := if s then 2 ^ (f.ebits + f.fbits) else 0

/-- Infinity (Table 4.3). -/
def Fmt.inf (f : Fmt) (s : Bool) : Nat := f.signBit s + (2 ^ f.ebits - 1) * 2 ^ f.fbits

/-- The default NaN (R90). -/
def Fmt.nan (f : Fmt) : Nat := f.inf false + 2 ^ (f.fbits - 1)

/-- The largest finite value. -/
def Fmt.big (f : Fmt) (s : Bool) : Nat := f.inf s - 1

/-- INV, DZE, OFL, UFL, INX and RANGE of Table 3.6. -/
def fINV : Flags := 1
/-- Divide by zero. -/
def fDZE : Flags := 2
/-- Overflow. -/
def fOFL : Flags := 4
/-- Underflow. -/
def fUFL : Flags := 8
/-- Inexact. -/
def fINX : Flags := 16
/-- Argument outside a transcendental's range. -/
def fRANGE : Flags := 32

/-- What an encoding stands for (R86): a NaN by its sign and fraction, an infinity, or the exact number ±m·2^e. -/
inductive Val where
  | nan (s : Bool) (frac : Nat)
  | inf (s : Bool)
  | num (s : Bool) (m : Nat) (e : Int)
  deriving DecidableEq, Repr

/-- The value of a bit pattern (R86). -/
def decodeF (f : Fmt) (x : Nat) : Val :=
  let s := decide (x / 2 ^ (f.ebits + f.fbits) % 2 = 1)
  let ex := x / 2 ^ f.fbits % 2 ^ f.ebits
  let fr := x % 2 ^ f.fbits
  if ex = 2 ^ f.ebits - 1 then (if fr = 0 then .inf s else .nan s fr)
  else if ex = 0 then .num s fr f.qmin
  else .num s (2 ^ f.fbits + fr) (f.qmin + (ex - 1 : Nat))

/-- Is the pattern a NaN? -/
def isNan (f : Fmt) (x : Nat) : Bool :=
  match decodeF f x with
  | .nan _ _ => true
  | _ => false

/-- Is the pattern a signalling NaN (R86)? -/
def isSnan (f : Fmt) (x : Nat) : Bool :=
  match decodeF f x with
  | .nan _ fr => decide (fr < 2 ^ (f.fbits - 1))
  | _ => false

/-- Round the exact quotient m / 2^d to an integer (`round_int`, R93). -/
def roundInt (rm : Nat) (s : Bool) (m d : Nat) : Nat :=
  let lo := m / 2 ^ d
  let r := m % 2 ^ d
  if r = 0 then lo
  else if rm = 1 then lo
  else if rm = 3 then (if s then lo else lo + 1)
  else if rm = 2 then (if s then lo + 1 else lo)
  else if 2 * r < 2 ^ d then lo
  else if 2 ^ d < 2 * r then lo + 1
  else if rm = 4 then lo + 1
  else if lo % 2 = 0 then lo else lo + 1

/-- The result on overflow (Table 4.5). -/
def overflowResult (f : Fmt) (rm : Nat) (s : Bool) : Nat :=
  if rm = 1 then f.big s
  else if rm = 3 then (if s then f.big s else f.inf s)
  else if rm = 2 then (if s then f.inf s else f.big s)
  else f.inf s

/-- `round_to(fmt, rm, ±m·2^e)` with its flags (R93 to R95), for a magnitude of at least a quarter of the least subnormal. -/
def roundNear (f : Fmt) (rm : Nat) (s : Bool) (m : Nat) (e : Int) : Nat × Flags :=
  let lg : Int := (Nat.log2 m : Int) + e
  let q := max (lg - (f.fbits : Int)) f.qmin
  let d := (q - e).toNat
  let exact := if q ≤ e then true else decide (m % 2 ^ d = 0)
  let n := if q ≤ e then m * 2 ^ (e - q).toNat else roundInt rm s m d
  let q' := if n = 2 ^ (f.fbits + 1) then q + 1 else q
  let n' := if n = 2 ^ (f.fbits + 1) then 2 ^ f.fbits else n
  if f.qmax < q' then (overflowResult f rm s, fOFL ||| fINX)
  else
    let tiny := decide (lg < f.qmin + (f.fbits : Int))
    let fl : Flags := if exact then 0 else if tiny then fUFL ||| fINX else fINX
    (f.signBit s + (q' - f.qmin).toNat * 2 ^ f.fbits + n', fl)

/-- `round_to(fmt, rm, ±m·2^e)` with its flags (R93 to R95). A magnitude below a quarter of the least subnormal rounds as a
quarter does. -/
def roundTo (f : Fmt) (rm : Nat) (s : Bool) (m : Nat) (e : Int) : Nat × Flags :=
  if m = 0 then (f.signBit s, 0)
  else if (Nat.log2 m : Int) + e < f.qmin - 2 then roundNear f rm s 1 (f.qmin - 2)
  else roundNear f rm s m e

/-- `roundTo`, with the largest finite value in place of the results of Table 4.5 when `sat` is set (R98). -/
def roundSat (f : Fmt) (rm : Nat) (sat s : Bool) (m : Nat) (e : Int) : Nat × Flags :=
  let r := roundTo f rm s m e
  if sat && r.2.getLsbD 2 then (f.big s, r.2) else r

/-- A NaN of one format carried, quiet, into another (R91). -/
def carryNan (src dst : Fmt) (s : Bool) (frac : Nat) : Nat :=
  let fr := if src.fbits ≤ dst.fbits then frac * 2 ^ (dst.fbits - src.fbits) else frac / 2 ^ (src.fbits - dst.fbits)
  dst.inf s + (fr ||| 2 ^ (dst.fbits - 1))

/-- An operand: its format and its bits. -/
abbrev Operand := Fmt × Nat

/-- One term of an exact sum: the product of its one or two operands. -/
abbrev Term := List Operand

/-- The first NaN among the operands, carried into the result format, and INV when any of them signals (R91). -/
def nanResult (dst : Fmt) (ops : List Operand) : Option (Nat × Flags) :=
  (ops.findSome? fun o =>
    match decodeF o.1 o.2 with
    | .nan s fr => some (carryNan o.1 dst s fr)
    | _ => none).map fun r => (r, if ops.any (fun o => isSnan o.1 o.2) then fINV else 0)

/-- The product of the operands of a term: `none` when it is 0 × ∞ (R103). NaNs have been dealt with. -/
def termValue : Term → Option Val
  | [] => some (.num false 1 0)
  | o :: os =>
    match decodeF o.1 o.2, termValue os with
    | _, none => none
    | .nan _ _, some v => some v
    | .inf s, some (.num t m _) => if m = 0 then none else some (.inf (s != t))
    | .inf s, some (.inf t) => some (.inf (s != t))
    | .inf s, some (.nan _ _) => some (.inf s)
    | .num s m e, some (.num t n g) => some (.num (s != t) (m * n) (e + g))
    | .num s m _, some (.inf t) => if m = 0 then none else some (.inf (s != t))
    | .num s m e, some (.nan _ _) => some (.num s m e)

/-- The least exponent among finite values, starting from `e`. -/
def leastExp : Int → List Val → Int
  | e, [] => e
  | e, .num _ _ g :: vs => leastExp (min e g) vs
  | e, _ :: vs => leastExp e vs

/-- The exact sum of finite values in units of 2^e, where `e` is at most every exponent. -/
def sumUnits (e : Int) : List Val → Int
  | [] => 0
  | .num s m g :: vs => (if s then -1 else 1) * ((m * 2 ^ (g - e).toNat : Nat) : Int) + sumUnits e vs
  | _ :: vs => sumUnits e vs

/-- Is the value a zero of sign 1? -/
def isNegZero : Val → Bool
  | .num true 0 _ => true
  | _ => false

/-- Is the value an infinity of sign `s`? -/
def isInf (s : Bool) : Val → Bool
  | .inf t => s == t
  | _ => false

/-- The exactly rounded sum of the terms with the special cases of R103, and its flags. An exact zero has the sign that R103 gives it, −0 under RDN
unless no term is there, where the fusedMultiplyAdd of R123 would give +0·+0 + +0 the sign of its terms: DESIGN CHOICE (log entry 69). -/
def exactRound (f : Fmt) (rm : Nat) (terms : List Term) : Nat × Flags :=
  match nanResult f terms.flatten with
  | some r => r
  | none =>
    let vs := terms.map termValue
    if vs.any Option.isNone then (f.nan, fINV)
    else
      let ws := vs.filterMap id
      let pos := ws.any (isInf false)
      let neg := ws.any (isInf true)
      if pos && neg then (f.nan, fINV)
      else if pos then (f.inf false, 0)
      else if neg then (f.inf true, 0)
      else if ws.isEmpty then (0, 0)
      else
        let e := leastExp 0 ws
        let s := sumUnits e ws
        if s = 0 then (f.signBit (ws.all isNegZero || rm == 2), 0)
        else roundTo f rm (decide (s < 0)) s.natAbs e

/-- Conversion between float formats (R97, R98). -/
def convertF (src dst : Fmt) (rm : Nat) (sat : Bool) (x : Nat) : Nat × Flags :=
  match decodeF src x with
  | .nan s fr => (carryNan src dst s fr, if isSnan src x then fINV else 0)
  | .inf s => (dst.inf s, 0)
  | .num s m e => roundSat dst rm sat s m e

/-- The same, of the value times 2^k: the scale is applied exactly before the one rounding (R126, R113). -/
def convertScaled (src dst : Fmt) (rm : Nat) (sat : Bool) (k : Int) (x : Nat) : Nat × Flags :=
  match decodeF src x with
  | .nan s fr => (carryNan src dst s fr, if isSnan src x then fINV else 0)
  | .inf s => (dst.inf s, 0)
  | .num s m e => roundSat dst rm sat s m (e + k)

/-- Round ±m·2^e to an integer, and whether it was one (R93). -/
def roundVal (rm : Nat) (s : Bool) (m : Nat) (e : Int) : Nat × Bool :=
  if 0 ≤ e then (m * 2 ^ e.toNat, true)
  else (roundInt rm s m (-e).toNat, decide (m % 2 ^ (-e).toNat = 0))

/-- Conversion from a float to an integer of `n` bits (R99). -/
def floatToInt (src : Fmt) (signed : Bool) (n rm x : Nat) : Nat × Flags :=
  match decodeF src x with
  | .nan _ _ => (0, fINV)
  | .inf s => (wrapInt n (if s then minInt signed n else maxInt signed n), fINV)
  | .num s m e =>
    let r := roundVal rm s m e
    let v : Int := if s then -(r.1 : Int) else r.1
    if v < minInt signed n ∨ maxInt signed n < v then (wrapInt n (saturateInt signed n v), fINV)
    else (wrapInt n v, if r.2 then 0 else fINX)

/-- Conversion from an integer to a float (R100, R98). -/
def intToFloat (dst : Fmt) (rm : Nat) (sat : Bool) (v : Int) : Nat × Flags :=
  roundSat dst rm sat (decide (v < 0)) v.natAbs 0

/-- `VRINT` of one element (R431). -/
def rintF (f : Fmt) (rm x : Nat) : Nat × Flags :=
  match decodeF f x with
  | .nan s fr => (carryNan f f s fr, if isSnan f x then fINV else 0)
  | .inf _ => (x, 0)
  | .num s m e =>
    if m = 0 then (x, 0)
    else
      let r := roundVal rm s m e
      ((roundTo f 0 s r.1 0).1, if r.2 then 0 else fINX)

/-- The sign of the difference of two values that are not NaN: both zeros are equal. -/
def cmpVal (a b : Val) : Ordering :=
  let key : Val → Val → Int := fun x y =>
    match x with
    | .inf s => if s then -1 else 1
    | _ => match y with
      | .inf t => if t then 1 else -1
      | _ => 0
  match a, b with
  | .num s m e, .num t n g =>
    let u := min e g
    let x : Int := (if s then -1 else 1) * ((m * 2 ^ (e - u).toNat : Nat) : Int)
    let y : Int := (if t then -1 else 1) * ((n * 2 ^ (g - u).toNat : Nat) : Int)
    compare x y
  | .inf s, .inf t => if s = t then .eq else if s then .lt else .gt
  | x, y => compare (key x y) 0

/-- `VCMP` of one element: the condition and its flags. `c` is 0 `.eq`, 1 `.lt`, 2 `.le` (R433). -/
def compareF (f : Fmt) (c a b : Nat) : Bool × Flags :=
  if isNan f a || isNan f b then
    (false, if c = 0 then (if isSnan f a || isSnan f b then fINV else 0) else fINV)
  else
    match cmpVal (decodeF f a) (decodeF f b) with
    | .eq => (decide (c = 0) || decide (c = 2), 0)
    | .lt => (decide (c = 1) || decide (c = 2), 0)
    | .gt => (false, 0)

/-- Is `a` below `b` in the order of `VMAX` and `VMIN`, in which -0 < +0 (R432)? -/
def orderedBelow (f : Fmt) (a b : Nat) : Bool :=
  match cmpVal (decodeF f a) (decodeF f b) with
  | .lt => true
  | .gt => false
  | .eq => decide (f.signBit true ≤ a) && decide (b < f.signBit true)

/-- `VMAX` or `VMIN` of one element (R432). -/
def maxMinF (f : Fmt) (isMax : Bool) (a b : Nat) : Nat × Flags :=
  let fl : Flags := if isSnan f a || isSnan f b then fINV else 0
  match isNan f a, isNan f b with
  | true, true =>
    match nanResult f [(f, a), (f, b)] with
    | some r => (r.1, fl)
    | none => (f.nan, fl)
  | true, false => (b, fl)
  | false, true => (a, fl)
  | false, false =>
    let below := orderedBelow f a b
    (if isMax then (if below then b else a) else (if orderedBelow f b a then b else a), fl)

/-- `VEXPS` of one element: exponent (`frac` clear) or fraction (R111). -/
def expSplit (f : Fmt) (frac : Bool) (x : Nat) : Nat × Flags :=
  let w := 1 + f.ebits + f.fbits
  match decodeF f x with
  | .nan s fr =>
    (if frac then carryNan f f s fr else wrapInt w (maxInt true w), if isSnan f x then fINV else 0)
  | .inf _ => (if frac then x else wrapInt w (maxInt true w), 0)
  | .num s m e =>
    if m = 0 then (if frac then x else wrapInt w (minInt true w), 0)
    else if frac then (roundTo f 0 s m (-(Nat.log2 m : Int)))
    else (wrapInt w ((Nat.log2 m : Int) + e), 0)

/-- `VSCALE` of one element (R113, R443). -/
def scaleF (f : Fmt) (rm x : Nat) (n : Int) : Nat × Flags := convertScaled f f rm false n x

/-- Flip the sign of a pattern that is not a NaN (R430). -/
def negF (f : Fmt) (x : Nat) : Nat :=
  if isNan f x then x else if f.signBit true ≤ x then x - f.signBit true else x + f.signBit true

end Sys2Proof.Machine
end

