-- ==== Sys2Proof/Config.lean ====
section
/-! DEFINITION. What the manual leaves open, as constants without a body, and the fixed figures of the device. -/

namespace Sys2Proof.Config

/-- The free values of the device: the n-th value that the manual leaves unspecified (R10). Nothing constrains it.
DESIGN CHOICE (log entry 4). -/
opaque free : Nat → Nat

/-- Which of the results allowed by R107 and R108 the device gives for a transcendental: a fixed function of the operation,
the format, the rounding code and the operand bits. DESIGN CHOICE (log entry 10). -/
opaque transcendental : Nat → Nat → Nat → Nat → Nat

/-- The rate of the MMP's clock, which the manual does not give (R307): so many of its cycles, and one more, in so many nominal half-periods
of the arithmetic clock, and one more. DESIGN CHOICE (log entry 37). -/
opaque mmpRate : Nat × Nat

/-- Cycles of the MMP's clock in a number of nominal half-periods: the clock is never stretched (R307). -/
def mmpCycles (halves : Nat) : Nat := halves * (mmpRate.1 + 1) / (mmpRate.2 + 1)

/-- Which core of the MMP serves the misses of a tile: the manual does not say. DESIGN CHOICE (log entry 37). -/
opaque mmpCore : Nat → Nat

/-- Tiles of the device (R18). -/
def tiles : Nat := 256

/-- Bundles of an instruction SRAM (R56). -/
def bundles : Nat := 3072

/-- Bytes of staging (R177). -/
def stagingBytes : Nat := 0x100000

/-- Bytes of a frame (R179). -/
def frameBytes : Nat := 0x10000

/-- Frames of the reservoir of an NX9-M2T (R179). -/
def frames : Nat := 0x2000000

/-- Bytes of queue SRAM (Table 12.2). -/
def queueSramBytes : Nat := 0x1000000

/-- The first frame that the MMP allocates, of the frames fitted: the upper half is its own. DESIGN CHOICE (log entry 6). -/
def firstMmpFrame (fitted : Nat) : Nat := fitted / 2

/-- Outstanding commands a barge holds (R185). -/
def bargeDepth : Nat := 16

/-- Spare rows of a bank (R131). -/
def spareRows : Nat := 4096

/-- The interval of a refresh grade in cycles (Table 6.7). -/
def refreshInterval (grade : Nat) : Nat := if grade = 0 then 8192 else if grade = 1 then 4096 else 2048

end Sys2Proof.Config
end

