-- ==== Sys2Proof/Machine/Tables.lean ====
section
/-! DEFINITION. The operations of a sparse table: read, write, fill a range, and the canonical form they keep. -/

namespace Sys2Proof.Machine

/-- What key `k` reads as: its entry, or the default `d`. -/
def tget {α : Type} (d : α) : Table α → Nat → α
  | [], _ => d
  | (a, x) :: t, k => if a = k then x else tget d t k

/-- Drop the entry of key `k`. -/
def tdel {α : Type} : Table α → Nat → Table α
  | [], _ => []
  | (a, x) :: t, k => if a = k then t else if k < a then (a, x) :: t else (a, x) :: tdel t k

/-- Put an entry for key `k` in its place. -/
def tput {α : Type} : Table α → Nat → α → Table α
  | [], k, v => [(k, v)]
  | (a, x) :: t, k, v =>
    if k < a then (k, v) :: (a, x) :: t else if a = k then (k, v) :: t else (a, x) :: tput t k v

/-- Write `v` at key `k`: the default is never listed, so equal tables are equal lists. -/
def tset {α : Type} [DecidableEq α] (d : α) (t : Table α) (k : Nat) (v : α) : Table α :=
  if v = d then tdel t k else tput t k v

/-- The entries of keys below `lo`, then of keys from `hi` on: the range between reads as the default. -/
def tclear {α : Type} (t : Table α) (lo hi : Nat) : Table α :=
  t.filter fun c => decide (c.1 < lo) || decide (hi ≤ c.1)

/-- The keys of a table lie strictly above `lo` and rise strictly; no entry holds the default. -/
def tsorted {α : Type} [DecidableEq α] (d : α) : Nat → Table α → Bool
  | _, [] => true
  | lo, (a, x) :: t => decide (lo ≤ a) && !decide (x = d) && tsorted d (a + 1) t

/-- The canonical form of a table. -/
def twf {α : Type} [DecidableEq α] (d : α) (t : Table α) : Bool := tsorted d 0 t

/-- Write the values of a list at the keys `f k`, `f (k + 1)`, …, in order. -/
def tsetList {α : Type} [DecidableEq α] (d : α) (f : Nat → Nat) : Nat → List α → Table α → Table α
  | _, [], t => t
  | k, v :: vs, t => tsetList d f (k + 1) vs (tset d t (f k) v)

/-- The values at the keys `f k`, …, `f (k + n - 1)`. -/
def tgetList {α : Type} (d : α) (f : Nat → Nat) (t : Table α) : Nat → Nat → List α
  | _, 0 => []
  | k, n + 1 => tget d t (f k) :: tgetList d f t (k + 1) n

end Sys2Proof.Machine
end

