-- ==== Sys2Proof/Machine/State.lean ====
section
/-! DEFINITION. The state of the device as plain data, the two reason types, and the state right after reset. -/

namespace Sys2Proof.Machine

/-! ### Vault -/

/-- STATE of a bank (Table 6.2). -/
inductive BankMode where
  | idle | active | refreshing
  deriving DecidableEq, Repr

/-- One bank (Table 6.2). A counter is kept as the clock cycle from which it reads 0. -/
structure Bank where
  mode : BankMode := .idle
  row : Nat := 0
  intent : Bool := false
  colAt : Nat := 0
  preAt : Nat := 0
  actAt : Nat := 0
  debt : Nat := 0
  /-- the clock cycle on which the next refresh falls due: RDUE is what remains until then -/
  due : Nat := 8192
  deriving DecidableEq, Repr

/-- One channel (Table 6.2), its counters kept as in `Bank`. -/
structure Channel where
  ccdAt : Nat := 0
  rtwAt : Nat := 0
  wtrAt : Nat := 0
  rrdAt : Nat := 0
  faw0 : Nat := 0
  faw1 : Nat := 0
  faw2 : Nat := 0
  faw3 : Nat := 0
  deriving DecidableEq, Repr

/-- An entry of the row generation map (R231). The row is drained when `dgen` has reached the number of cuts its job has
taken; `spare` names its clone when `cloned`. -/
structure RowGen where
  dgen : Nat := 0
  cloned : Bool := false
  spare : Nat := 0
  deriving DecidableEq, Repr

/-- What the check bytes of a store say of one unit (R145, R177, R295). -/
inductive Mark where
  | good | correctable | uncorrectable | poisoned
  deriving DecidableEq, Repr

/-- The Active banks that a refresh guard saved, with row and intent, and the clocks of its start and end (R148). -/
structure Guard where
  saved : List (Nat × Nat × Bool)
  startAt : Nat
  endAt : Nat
  deriving DecidableEq, Repr

/-- The vault of a tile (R131). -/
structure Vault where
  cells : Table Byte := []
  marks : Table Mark := []
  banks : Table Bank := []
  channels : Table Channel := []
  rows : Table RowGen := []
  spares : Table (BitVec 12288) := []
  spareMarks : Table Mark := []
  guard : Option Guard := none
  /-- the bank-state image as a pre-emption hold took effect (R289) -/
  image : Option (BitVec 4352) := none
  exhausted : List Nat := []
  /-- the clock on which the first bank of `exhausted` joined it (R233) -/
  exhaustedAt : Nat := 0
  /-- per channel, one more than the number of the last drain window in which a row was copied (R234) -/
  drained : Table Nat := []
  corrections : Nat := 0
  /-- channels with a bond lane marked for repair (R153, R154) -/
  lanes : Table Bool := []
  deriving DecidableEq, Repr

/-! ### Registers and results in flight -/

/-- A bypass latch (R64). -/
structure Latch where
  bytes : Row := 0
  valid : Bool := false
  vec : Bool := false
  poison : Bool := false
  deriving DecidableEq, Repr

/-- A stream register (R155). `mark` says what a read of its lanes meets (R295). -/
structure Stream where
  lanes : Table (BitVec 8192) := []
  len : Nat := 0
  mask : BitVec 32 := 0
  poison : Bool := false
  mark : Mark := .good
  deriving DecidableEq, Repr

/-- A matrix beat between issue and its readable cycle: everything it read at issue (R119). `fmt` is the place of the input
format in Table 5.1; `flags` are those of the conversions that entered a term. -/
structure Beat where
  fmt : Nat
  rm : BitVec 3
  fresh : Bool
  row : Nat
  depth : Nat
  cols : Nat
  a : Row
  latch : List Row
  poison : Bool
  flags : Flags
  deriving DecidableEq, Repr

/-- What a result does when it reaches its readable cycle. -/
inductive Effect where
  | scalar (d : Nat) (x : Scalar) (poison : Bool)
  | vector (d : Nat) (x : Row) (poison : Bool)
  | pred (n : Nat) (b : Bool)
  | flags (f : Flags)
  | latch (n : Nat) (vec on : Bool) (x : Row) (poison : Bool)
  | column (l j : Nat) (x : Row) (poison : Bool)
  | hadamard (l : Nat) (columns : List Row)
  | beat (b : Beat)
  | zeroRow (r : Nat)
  | stream (q : Nat) (x : Stream)
  | store (addr : Nat) (bytes : List Byte) (poison : Bool)
  | special (n : Nat) (x : Scalar)
  deriving DecidableEq, Repr

/-- A result in flight and its readable CYC (R58). `sst` marks the image of an `SST` (R175), `vault` the data of an `RD`. -/
structure Result where
  ready : Nat
  eff : Effect
  sst : Bool := false
  vault : Bool := false
  deriving DecidableEq, Repr

/-- The register files of a task (Table 3.2). `sBad`, `vBad` and `mBad` mark registers and latch columns whose parity fails, an
error that no read has met yet; `accMark` says what a read of an accumulator row meets (R295). -/
structure Regs where
  s : Table Scalar := []
  sPoison : Table Bool := []
  sBad : Table Bool := []
  p : Table Bool := []
  v : Table Row := []
  vPoison : Table Bool := []
  vBad : Table Bool := []
  latches : Table Latch := []
  acc : Table AccRow := []
  accPoison : Table Bool := []
  accMark : Table Mark := []
  m : Table Row := []
  mPoison : Table Bool := []
  mBad : Table Bool := []
  q : Table Stream := []
  mks : Table (BitVec 32) := []
  deriving DecidableEq, Repr

/-! ### Task control -/

/-- Where a tile stands: no task, issuing, in a wait (R29), stopped by a trap (R82), or ended (R372). -/
inductive Status where
  | idle | running | waiting | stopped | ended
  deriving DecidableEq, Repr

/-- What a waiting task waits for (R445, R447, R448). -/
inductive WaitFor where
  | barrier (b phase : Nat)
  | token (id : Nat)
  | pointer (id bytes : Nat)
  deriving DecidableEq, Repr

/-- A wait: its condition, its bundle, and the clock of the write that met it, once met (R446). -/
structure Wait where
  on : WaitFor
  pc : Nat
  met : Option Nat
  deriving DecidableEq, Repr

/-- Verdicts (R23). -/
inductive Verdict where
  | clean | corrected | tainted
  deriving DecidableEq, Repr

/-- The trap record of a tile (Table 13.3) with its bank-state image (R143). -/
structure TrapRec where
  cause : Nat
  detail : Nat
  slot : Nat
  pc : Nat
  npc : Nat
  tcyc : Nat
  tclk : Nat
  bundle : Bundle
  fflg : Flags
  sgsc : BitVec 32
  sgsh : BitVec 32
  ecnt : BitVec 32
  esig : BitVec 32
  inseg : Bool
  late : Bool
  /-- the record is complete: for `BRK` and `TRAP`, from the moment the hold takes effect (R284) -/
  final : Bool
  image : BitVec 4352
  deriving DecidableEq, Repr

/-- The control state of a task (Tables 3.5, 13.8). -/
structure Ctl where
  status : Status := .idle
  pc : Nat := 0
  npc : Nat := 0
  cyc : Nat := 0
  lc : BitVec 32 := 0
  rrb : BitVec 4 := 0
  awb : BitVec 11 := 0
  fflg : Flags := 0
  sgsc : BitVec 32 := 0
  sgsh : BitVec 32 := 0
  ecnt : BitVec 32 := 0
  esig : BitVec 32 := 0
  inseg : Bool := false
  ret : List Nat := []
  busy : Table Nat := []
  mhadAt : Table Nat := []
  wait : Option Wait := none
  trap : Option TrapRec := none
  verdict : Verdict := .clean
  /-- the bundle being issued, as the decoder received it -/
  ir : Bundle := 0
  /-- the CYC at which the task stood when its gang last left a re-planning point under the re-plan hold: the bundle of that CYC is not
  held again for the same re-plan (R152, R408) -/
  passes : Option Nat := none
  deriving DecidableEq, Repr

/-- The place of a task (R24, R73, R141) and its trigger (R34). -/
structure Task where
  pasid : Nat := 0
  gid : Nat := 0
  tix : Nat := 0
  node : Nat := 0
  vpb : Nat := 0
  vpl : Nat := 0
  ctx : Nat := 0
  trig : Bool := false
  /-- once `TRIG` has issued, every command of a lower number was issued before it or with it (R427) -/
  trigBound : Nat := 0
  triggered : Bool := false
  complete : Bool := false
  deriving DecidableEq, Repr

/-! ### Staging, instruction SRAM, canal -/

/-- What a read of an 8-byte unit of staging returns: its value, whether it is poisoned, and whether an error is corrected (R177). -/
structure UnitValue where
  value : BitVec 64
  poison : Bool := false
  fixed : Bool := false
  deriving DecidableEq, Repr

/-- What a unit held before a command landed there: a core read that no wait has ordered may return it (R213). `place` is the place of
the unit's first byte in the command's staging order. -/
structure StaleUnit where
  unit : Nat
  id : Nat
  place : Nat
  was : UnitValue
  deriving DecidableEq, Repr

/-- Staging (R177): bytes, line poison, unit errors, and the values of units that a barge landed and no wait has ordered, oldest first
for each unit. -/
structure Staging where
  cells : Table Byte := []
  poison : Table Bool := []
  marks : Table Mark := []
  unseen : List StaleUnit := []
  deriving DecidableEq, Repr

/-- Instruction SRAM: bundles, errors, and the old bytes of bundles that a `.code` copy changed and no `IFENCE` has ordered
(R194, R376): none where an old bundle held an error that cannot be corrected. -/
structure Isram where
  bundles : Table Bundle := []
  marks : Table Mark := []
  unseen : List (Nat × Nat × Option Bundle) := []
  deriving DecidableEq, Repr

/-- An occupied receive latch (R246): the row, its tag, the clock of delivery. -/
structure Held where
  row : Row
  poison : Bool
  since : Nat
  deriving DecidableEq, Repr

/-- The canal side of a tile (R241, R246). -/
structure Canal where
  routes : Table (BitVec 64) := []
  /-- rows of each receive latch, oldest first: more than one stand there only during a cycle (R246) -/
  latches : Table (List Held) := []
  /-- the table in force until the end of the cycle of a `CROUTE`, and that cycle (R371) -/
  old : Option (Nat × Table (BitVec 64)) := none
  /-- the image that the `CROUTE` of the bundle now issuing reads, once its checks have read it (R244) -/
  image : Option (List UnitValue) := none
  /-- the clock of a conflict that only the second test found (R242) -/
  conflictAt : Option Nat := none
  deriving DecidableEq, Repr

/-- A canal row in flight: it enters router `tile` by input `input` on clock `enters`; `mark` is what the next router's check bits
find, `corrected` whether an error was corrected on the way (R240). -/
structure Flight where
  route : Nat
  row : Row
  poison : Bool
  corrected : Bool
  mark : Mark
  tile : Nat
  input : Nat
  enters : Nat
  gid : Nat
  deriving DecidableEq, Repr

/-! ### Barge -/

/-- A piece between its read part and its write part (R189, R215): the frame index, the byte offset of each element in the
frame, the bytes read, and the translation by which it began, which it keeps (R201, R202). `stale` is set once a shoot-down has removed
that translation. -/
structure Piece where
  frame : Nat
  offs : List Nat
  bytes : List Byte
  /-- bytes of an element -/
  size : Nat
  entry : BitVec 64
  stale : Bool := false
  deriving DecidableEq, Repr

/-- A command of a barge (R185, R189). -/
structure Cmd where
  id : Nat
  word : SlotWord
  token : Nat
  base : Nat
  /-- the commands that its valid consume fields name (R184) -/
  consume : List Nat
  started : Bool := false
  /-- the view block as read at the start (R229) -/
  view : List Scalar := []
  /-- elements whose piece has been read -/
  readPos : Nat := 0
  /-- pieces read and not yet written, oldest first -/
  pieces : List Piece := []
  done : Nat := 0
  wp : Nat := 0
  /-- bytes of a `.code` copy that do not yet make a whole bundle (R194) -/
  buf : List Byte := []
  corrected : Bool := false
  /-- the error that stops the command (Table 8.5) -/
  stop : Option Nat := none
  /-- `BSEAL`, `BOPEN`: the MMP has changed the descriptor -/
  applied : Bool := false
  /-- units that the core has written since the command was issued, with each value they have held since but the present one, oldest
  first (R213) -/
  before : List (Nat × UnitValue) := []
  deriving DecidableEq, Repr

/-- An entry of a lookaside (R202). -/
structure Lookaside where
  pasid : Nat
  tensor : Nat
  count : Nat
  frame : Nat
  entry : BitVec 64
  deriving DecidableEq, Repr

/-- A walk in progress: its command, key frame, the shoot-down counter it noted, and the level-2 entry it read; `bad` when an
entry on the way is malformed (R202). -/
structure Walk where
  id : Nat
  frame : Nat
  seq : Nat
  entry : BitVec 64
  bad : Bool
  deriving DecidableEq, Repr

/-- The barge of a tile. `queue` holds the outstanding commands in issue order (R185); `words` holds the completion word of every command issued; `issuedBy` names, for each token, the
command that most recently produced it, plus one (0: unproduced). -/
structure Barge where
  nextId : Nat := 0
  queue : List Cmd := []
  words : Table (BitVec 64) := []
  issuedBy : Table Nat := []
  lookaside : List Lookaside := []
  walks : List Walk := []
  misses : List Nat := []
  /-- per command, those that Table 9.2 orders before its start: the producers of its consumed tokens, and the last `BMARK`; for a
  `BMARK`, every earlier command -/
  past : Table (List Nat) := []
  /-- the last `BMARK` issued, plus one -/
  lastMark : Nat := 0
  /-- commands whose completion the task has observed with `WAITT` (R376) -/
  observed : List Nat := []
  deriving DecidableEq, Repr

/-- One tile. -/
structure Tile where
  ctl : Ctl := {}
  task : Task := {}
  regs : Regs := {}
  results : List Result := []
  staging : Staging := {}
  isram : Isram := {}
  vault : Vault := {}
  canal : Canal := {}
  barge : Barge := {}
  deriving DecidableEq, Repr

/-! ### Gangs -/

/-- A named barrier (R31): the count fixed by the first arrival (0: no phase open), arrivals, and phases completed. -/
structure Barrier where
  need : Nat := 0
  arrived : Nat := 0
  phase : Nat := 0
  deriving DecidableEq, Repr

/-- Hold causes (Table 2.2), the hold by which a cancel or an abort ends tasks (Table 2.3), and a hold of the gang in another
package that a lock crossing reports (R38, R250), and the hold of every gang when the control complex stops (R297). -/
inductive HoldCause where
  | refresh | spare | cut | replan | preempt | trap | cancel | remote | stop
  deriving DecidableEq, Repr

/-- The life of a gang: none, placed, placed with its image loaded, started, saved by a pre-emption. -/
inductive GangLife where
  | none | placed | loaded | started | saved
  deriving DecidableEq, Repr

/-- A gang (R24, R38). -/
structure Gang where
  life : GangLife := .none
  pasid : Nat := 0
  node : Nat := 0
  w : Nat := 0
  h : Nat := 0
  ox : Nat := 0
  oy : Nat := 0
  /-- packages spanned, minus 1 (R25) -/
  pkg : Nat := 0
  /-- the number of this package among them (R25) -/
  rank : Nat := 0
  pad : Nat := 0
  startAt : Nat := 0
  barriers : Table Barrier := []
  /-- (barrier, phase, clock): releases to come (R32) -/
  releases : List (Nat × Nat × Nat) := []
  causes : List HoldCause := []
  effectAt : Option Nat := none
  held : Bool := false
  heldSince : Nat := 0
  resumeAt : Option Nat := none
  firstTrap : Option Nat := none
  signalled : Bool := false
  variant : Nat := 0
  /-- the open phase of the job counts this gang, which has still to pass a re-planning point (R42) -/
  counted : Bool := false
  tainted : Bool := false
  /-- tasks, by TIX, that end at the hold point (Table 2.3) -/
  ending : List Nat := []
  /-- a phase cancel: the gang ends at its next re-planning point (Table 2.3) -/
  stopAt : Bool := false
  /-- the launch is placed again once its tasks are complete, without a record (R286) -/
  reissue : Bool := false
  deriving DecidableEq, Repr

/-! ### Jobs, tensors, generations -/

/-- A tensor descriptor (R180). -/
structure Desc where
  live : Bool := false
  count : Nat := 0
  fmt : BitVec 4 := 0
  shape : List Nat := []
  tile : List Nat := []
  root : Nat := 0
  sealed : Bool := false
  host : Bool := false
  /-- the tile-table entries of the frames that are mapped to copies while the tensor is sealed, by frame index (R200) -/
  moved : Table (BitVec 64) := []
  deriving DecidableEq, Repr

/-- Generation states (Table 10.1), for the generations a job retains. -/
inductive GenState where
  | draining | drained | released | failed
  deriving DecidableEq, Repr

/-- The vault image of one tile in a generation record (Table 10.5). -/
structure TileImage where
  vpb : Nat := 0
  vpl : Nat := 0
  imgtab : Nat := 0
  pmap : Nat := 0
  rowsLeft : Nat := 0
  deriving DecidableEq, Repr

/-- A closed generation (R224, R237). -/
structure Gen where
  num : Nat
  state : GenState
  dev : Bool
  cutClock : Nat
  record : Nat
  vdir : Nat
  flist : Nat
  dlist : Nat
  iflist : Nat
  inflight : Nat
  poisoned : Nat
  copies : List (Nat × Nat)
  images : Table TileImage
  descs : Table Desc
  /-- the runs of frames that its record, its lists and its images take, as the MMP allocated them (R239) -/
  runs : List (Nat × Nat) := []
  deriving DecidableEq, Repr

/-- A cut in progress (R225, R227): pending until the conditions hold, then its instant and the P of its scope are fixed; after the
instant, the cut hold lasts until the clock of the resume. -/
inductive Cut where
  | pending (dev : Bool)
  | running (dev : Bool) (instant pad : Nat)
  | closing (dev : Bool) (until_ : Nat)
  deriving DecidableEq, Repr

/-- A job (R21, R223, R286). -/
structure Job where
  live : Bool := false
  snap : Bool := false
  preemptible : Bool := false
  gen : Nat := 0
  cut : Option Cut := none
  gens : List Gen := []
  cuts : Nat := 0
  /-- every row counts as drained up to this cut, after a restore (R239) -/
  rowsClean : Nat := 0
  restoring : Option Nat := none
  parts : Table (Nat × Nat) := []
  tensors : Table Desc := []
  /-- the fabric address of each peer number, plus one; 0 where none is mapped (R253) -/
  peers : Table Nat := []
  policy : BitVec 20 := 0
  rmax : Nat := 0
  phaseLeft : Nat := 0
  phaseNum : Nat := 0
  stopped : Bool := false
  deriving DecidableEq, Repr

/-! ### Queues, threads, graph -/

/-- What a thread is doing (R257, R267, R272). -/
inductive Activity where
  | unmapped | taking | packet | waiting
  deriving DecidableEq, Repr

/-- A Lockkeeper thread and its mapped queue (R257, R267). -/
structure Thread where
  act : Activity := .unmapped
  pasid : Nat := 0
  qnum : Nat := 0
  qcb : Nat := 0
  /-- the doorbell of its queue -/
  db : Nat := 0
  ridx : Nat := 0
  kick : Nat := 0
  packet : List Scalar := []
  idleSince : Nat := 0
  /-- when its watchdog was last restarted, in quarter-cycles of the Lockkeeper clock (R297) -/
  servedAt : Nat := 0
  deriving DecidableEq, Repr

/-- A watch entry (R259): a wait packet, of a mapped queue or an evicted one, or a kick watch. -/
structure Watch where
  pasid : Nat
  qnum : Nat
  qcb : Nat
  isKick : Bool
  space : MemSpace
  addr : Nat
  value : Nat
  geq : Bool
  packet : List Scalar
  /-- the clock on which the watch fired, while its queue waits for a thread -/
  fired : Option Nat
  deriving DecidableEq, Repr

/-- A report of a write to a watched word on which the Lockkeeper has not acted (R259): the queue whose watch or whose kick word it concerns,
and the greatest value left that meets what the queue watches for. -/
structure Report where
  pasid : Nat
  qnum : Nat
  isKick : Bool
  value : Nat
  deriving DecidableEq, Repr

/-- A request to map a queue: the doorbell by which it is reached, if any, and the kick it brings (R258, R474). -/
structure MapReq where
  pasid : Nat
  qnum : Nat
  db : Option Nat
  kick : Nat
  deriving DecidableEq, Repr

/-- An incoming edge of a node (R35). -/
structure Edge where
  src : Nat
  early : Bool
  pass : Bool
  satisfied : Bool
  /-- a tainted source that the hold policy keeps unsatisfied (R274) -/
  blocked : Bool
  /-- the source's record has been written -/
  final : Bool
  deriving DecidableEq, Repr

/-- The life of a launch at its node. -/
inductive NodeLife where
  | free | waiting | ready | running | counted
  deriving DecidableEq, Repr

/-- A graph node (R273) and the launch in use at it. -/
structure Node where
  owner : Option Nat := none
  life : NodeLife := .free
  packet : List Scalar := []
  args : List Scalar := []
  slotQueue : Nat := 0
  edges : List Edge := []
  gid : Nat := 0
  ox : Nat := 0
  oy : Nat := 0
  tasksLeft : Nat := 0
  untriggered : Nat := 0
  earlyDone : Bool := false
  verdict : Verdict := .clean
  canceled : Bool := false
  tclk : Nat := 0
  cclk : Nat := 0
  readyAt : Nat := 0
  /-- effective priority (R48) -/
  prio : Nat := 0
  reserved : Bool := false
  reservedAt : Nat := 0
  /-- the wait accumulated before its placement (R48) -/
  waited : Nat := 0
  /-- it has satisfied an early edge (R286) -/
  gaveEarly : Bool := false
  /-- tasks, by TIX, cancelled before the gang started (R280) -/
  endTasks : List Nat := []
  saved : Bool := false
  reissues : Nat := 0
  /-- what it has inherited over early edges (R37) -/
  inherited : Verdict := .clean
  /-- the graph of its launch (R21) -/
  graph : Nat := 0
  /-- per job, the verdict of the last completed launch recorded at this node number (R275) -/
  last : Table (Option Verdict) := []
  vec : Nat := 0
  deriving DecidableEq, Repr

/-- The Lockkeeper complex. -/
structure Lockkeeper where
  threads : Table Thread := []
  watches : List Watch := []
  reports : List Report := []
  mapWaits : List MapReq := []
  serviceWaits : List MapReq := []
  nodes : Table Node := []
  /-- the number of the next graph (R21) -/
  nextGraph : Nat := 1
  order : List Nat := []
  /-- pending cancels: PASID, node, clock of the command (R280) -/
  cancels : List (Nat × Nat × Nat) := []
  msix : List Nat := []
  qtroot : Nat := 0
  dbroot : Nat := 0
  rwbase : Nat := 0
  cmdBusy : Bool := false
  res : BitVec 64 := 0
  err : BitVec 4 := 0
  trapq : List (BitVec 64) := []
  trapWaits : List Nat := []
  deriving DecidableEq, Repr

/-! ### Fabric and platform -/

/-- A lock crossing (R248): its edge tile and side, its pair of Sarpol ports, its padded latency, how many units have arrived, and
the hold events and barrier events seen in the last units, each by the number of the unit with its first copy, plus three (R250). -/
structure Crossing where
  live : Bool := false
  tile : Nat := 0
  side : Nat := 0
  ports : Nat × Nat := (0, 0)
  latency : Nat := 0
  units : Nat := 0
  holdSeen : List Nat := []
  arrivalSeen : List Nat := []
  deriving DecidableEq, Repr

/-- The fabric: this device's address (R253), crossings, replays of the flit at the head of each link, links down, shares by unit
(R248, R252, R298), and the value that the PCIe endpoint returned for the last AtomicOp or read with a side effect (R6, R263).
Links are named by the fabric address of the other device; 4,096 is the host's. -/
structure Fabric where
  addr : Nat := 0
  reply : BitVec 64 := 0
  /-- the clock on which the lock group stretches, plus one, and the kind of the stretch (R249) -/
  stretchAt : Nat := 0
  stretchKind : Nat := 0
  crossings : Table Crossing := []
  replays : Table Nat := []
  down : Table Bool := []
  shares : Table (List Nat) := []
  period : Nat := 0
  deriving DecidableEq, Repr

/-- The platform controller (R300, R309, R310, R311). -/
structure Platform where
  phase : Nat := 1
  bootSeq : BitVec 32 := 0
  bootSlot : Nat := 0
  vok : BitVec 4 := 0
  plerr : BitVec 4 := 0
  stretched : BitVec 64 := 0
  /-- nominal half-periods of the arithmetic clock since power-on (R307): the quarter-cycles of the Lockkeeper clock -/
  halves : Nat := 0
  throttle : Nat := 0
  hotThrottle : Bool := false
  powerThrottle : Bool := false
  /-- quadrants whose supply has drooped and not recovered (R308) -/
  droops : Table Bool := []
  pkgW : Nat := 0
  modW : Nat := 0
  grades : Table Nat := []
  hottest : Table Nat := []
  coolSamples : Table Nat := []
  /-- what the sensors measure, in degrees C -/
  sensors : List Nat := []
  /-- the clock on which the next sample of the sensors falls due (R309) -/
  sampleAt : Nat := 65536
  /-- per MMP core, when its watchdog was last restarted, counted as `halves` is (R297) -/
  coreServed : Table Nat := []
  /-- changes of grade reported to system software: quadrant and grade, oldest first (R309) -/
  reports : List (Nat × Nat) := []
  /-- processors that have stopped (R295, R297) -/
  lkStopped : Bool := false
  mmpStopped : Bool := false
  pcStopped : Bool := false
  slotA : List Byte := []
  slotB : List Byte := []
  marker0 : List Byte := []
  marker1 : List Byte := []
  /-- the fuses: the 68 bytes of the public key, OID, root and public seed, and the minimum sequence (R302) -/
  key : List Byte := List.replicate 68 0
  minSeq : Nat := 0
  deriving DecidableEq, Repr

/-- A tensor write that its barge has not made visible at fabric scope (R216) and that no agent outside the device has observed (R211): what
stood there before. -/
structure Unfenced where
  pasid : Nat
  tensor : Nat
  space : MemSpace
  addr : Nat
  node : Nat
  tile : Nat
  id : Nat
  old : List Byte
  /-- visible at device scope: agents outside the device alone may still read what stood there before (R205) -/
  dev : Bool := false
  /-- a write that its task issued before it triggered: visible to the dependants of its launch over early edges (R36, R216) -/
  early : Bool := false
  deriving DecidableEq, Repr

/-- The memories outside the tiles. Peer n's reservoir and host memory are kept apart; marks are per 64-byte block. -/
structure Mem where
  res : Table Byte := []
  marks : Table Mark := []
  /-- host memory as the device reaches it: the bytes of each PASID's address space (Table 12.1, R270) -/
  host : Table (Table Byte) := []
  qsram : Table Byte := []
  peers : Table (Table Byte) := []
  /-- owner job plus one, and the cut up to which the frame is private to the live generation (R230) -/
  frames : Table (Nat × Nat) := []
  unfenced : List Unfenced := []
  /-- frames fitted to the reservoir controllers (R2, R179): those of the NX9-M2T, or the board's. DESIGN CHOICE (log entry 28) -/
  capacity : Nat := Config.frames
  nextFrame : Nat := Config.firstMmpFrame Config.frames
  /-- runs of frames that have been given back to the MMP, first frame and number, in rising order (R53, R239) -/
  freed : List (Nat × Nat) := []
  shoot : Nat := 0
  deriving DecidableEq, Repr

/-- The state of the device. -/
structure State where
  clock : Nat := 0
  turn : Nat := 0
  cur : Nat := 0
  core : Tile := {}
  tiles : Table Tile := []
  vetted : Bool := false
  fresh : Nat := 0
  agenda : List (Nat × Instr) := []
  flights : List Flight := []
  /-- tiles of pre-empted gangs, by 65,536 · GID + TIX (R289) -/
  saved : Table Tile := []
  gangs : Table Gang := []
  jobs : Table Job := []
  lk : Lockkeeper := {}
  fabric : Fabric := {}
  platform : Platform := {}
  mem : Mem := {}
  deriving DecidableEq, Repr

/-- Why the model stops with a fault. -/
inductive Fault where
  /-- Raised by an access to a reservoir frame beyond those fitted, which does not exist (R2, R179): by a barge piece, by a flit, where the
  Lockkeeper reads its tables, queues, watched words, arguments and images, where a walk or the MMP reaches a tile table or copies a
  frame, and where the drainer writes or a restore reads an image. Safe. -/
  | noSuchFrame
  deriving DecidableEq, Repr

/-- Why the model has no meaning. -/
inductive Refusal where
  /-- An instruction whose meaning has not been written. Safe. -/
  | notModelled (mnemonic : String)
  deriving DecidableEq, Repr

/-- What a meaning answers. -/
abbrev Out := Host.Outcome State Fault Refusal

/-- The machine right after reset (R300, R301): BOOTST.PHASE is 1 (Table 14.3), no job, gang, queue mapping or generation exists,
and nothing is listed in any memory; the next steps are those of the boot sequence. The values the manual does not state are those of log
entries 3, 5, 6 and 7. -/
def State.reset : State := {}

end Sys2Proof.Machine
end

