-- ==== Sys2Proof/Machine/Ops.lean ====
section
/-! DEFINITION. The named operations over the state: tiles, memories, free values, who sees which write, holds, the fetch of a bundle, and
taking a trap. -/

namespace Sys2Proof.Machine

/-! ### Parts of the state -/

/-- Change the tile that is checked out. -/
def State.mapCore (s : State) (f : Tile → Tile) : State := { s with core := f s.core }

/-- Change the control state of the tile checked out. -/
def State.mapCtl (s : State) (f : Ctl → Ctl) : State := s.mapCore fun t => { t with ctl := f t.ctl }

/-- Change the registers of the tile checked out. -/
def State.mapRegs (s : State) (f : Regs → Regs) : State := s.mapCore fun t => { t with regs := f t.regs }

/-- Change the staging of the tile checked out. -/
def State.mapStaging (s : State) (f : Staging → Staging) : State := s.mapCore fun t => { t with staging := f t.staging }

/-- Change the vault of the tile checked out. -/
def State.mapVault (s : State) (f : Vault → Vault) : State := s.mapCore fun t => { t with vault := f t.vault }

/-- Change the canal side of the tile checked out. -/
def State.mapCanal (s : State) (f : Canal → Canal) : State := s.mapCore fun t => { t with canal := f t.canal }

/-- Change the barge of the tile checked out. -/
def State.mapBarge (s : State) (f : Barge → Barge) : State := s.mapCore fun t => { t with barge := f t.barge }

/-- Change the task of the tile checked out. -/
def State.mapTask (s : State) (f : Task → Task) : State := s.mapCore fun t => { t with task := f t.task }

/-- Change the Lockkeeper. -/
def State.mapLk (s : State) (f : Lockkeeper → Lockkeeper) : State := { s with lk := f s.lk }

/-- Change the memories. -/
def State.mapMem (s : State) (f : Mem → Mem) : State := { s with mem := f s.mem }

/-- Change the platform controller. -/
def State.mapPlatform (s : State) (f : Platform → Platform) : State := { s with platform := f s.platform }

/-- Change the fabric. -/
def State.mapFabric (s : State) (f : Fabric → Fabric) : State := { s with fabric := f s.fabric }

/-- The tile of number `n` = 16·TY + TX. -/
def State.tile (s : State) (n : Nat) : Tile := if n = s.cur then s.core else tget {} s.tiles n

/-- Check tile `n` out. -/
def State.select (s : State) (n : Nat) : State :=
  if n = s.cur then s
  else
    let ts := tset {} s.tiles s.cur s.core
    { s with cur := n, core := tget {} ts n, tiles := tdel ts n }

/-- Change tile `n`. -/
def State.mapTile (s : State) (n : Nat) (f : Tile → Tile) : State :=
  if n = s.cur then s.mapCore f else { s with tiles := tset {} s.tiles n (f (tget {} s.tiles n)) }

/-- Do `f` with tile `n` checked out, then check the former tile out again. -/
def State.onTile (s : State) (n : Nat) (f : State → State) : State := (f (s.select n)).select s.cur

/-- The gang of an identifier. -/
def State.gang (s : State) (g : Nat) : Gang := tget {} s.gangs g

/-- Change a gang. -/
def State.mapGang (s : State) (g : Nat) (f : Gang → Gang) : State := { s with gangs := tset {} s.gangs g (f (s.gang g)) }

/-- The job of a PASID. -/
def State.job (s : State) (p : Nat) : Job := tget {} s.jobs p

/-- Change a job. -/
def State.mapJob (s : State) (p : Nat) (f : Job → Job) : State := { s with jobs := tset {} s.jobs p (f (s.job p)) }

/-- The graph node of a number. -/
def State.node (s : State) (n : Nat) : Node := tget {} s.lk.nodes n

/-- Change a graph node. -/
def State.mapNode (s : State) (n : Nat) (f : Node → Node) : State :=
  s.mapLk fun l => { l with nodes := tset {} l.nodes n (f (tget {} l.nodes n)) }

/-- The column and row of a tile number. -/
def tileX (n : Nat) : Nat := n % 16
/-- See `tileX`. -/
def tileY (n : Nat) : Nat := n / 16

/-- The quadrant of a tile (R12). -/
def quadrantOf (n : Nat) : Nat := 2 * (tileY n / 8) + tileX n / 8

/-- The tiles of a W × H rectangle at (OX, OY), in increasing number. -/
def rectTiles (ox oy w h : Nat) : List Nat :=
  (List.range h).flatMap fun j => (List.range w).map fun i => 16 * (oy + j) + (ox + i)

/-- The tiles of a gang. -/
def Gang.tiles (g : Gang) : List Nat := rectTiles g.ox g.oy g.w g.h

/-- Does a gang hold tiles? -/
def Gang.placed (g : Gang) : Bool :=
  match g.life with
  | .none | .saved => false
  | _ => true

/-- The task count of a gang (R31); a gang that spans packages has its rectangle in each (R25). -/
def Gang.tasks (g : Gang) : Nat := g.w * g.h * (g.pkg + 1)

/-- The TIX of the first task of a gang in this package: the others follow in increasing tile number (R24, R25). -/
def Gang.firstTix (g : Gang) : Nat := g.rank * (g.w * g.h)

/-- The refresh grade of a quadrant. -/
def State.grade (s : State) (q : Nat) : Nat := tget 0 s.platform.grades q

/-! ### The control complex -/

/-- Has the device booted into normal running (R300, R306)? -/
def booted (s : State) : Bool := decide (s.platform.phase = 5)

/-- Does the PCIe link answer reads and writes of the management registers: from step 4 of a reset on, and in recovery (Table 14.1,
R306)? -/
def linkUp (s : State) : Bool := decide (4 ≤ s.platform.phase)

/-- Do queue SRAM, the window of BAR4 and the fabric ports answer: from step 4 of a reset on, but not in recovery, where the PCIe endpoint
and the management registers alone run (Table 14.1, R306)? -/
def deviceUp (s : State) : Bool := decide (s.platform.phase = 4) || booted s

/-- An access or a flit from outside the device: nothing while no link answers it. -/
def linked (s : State) (f : State → State) : Out := .next (if deviceUp s then f s else s)

/-- Does the Lockkeeper run (R295, R297, R300, R306)? -/
def controlRuns (s : State) : Bool := booted s && !s.platform.lkStopped

/-- Does the MMP run? -/
def mmpRuns (s : State) : Bool := booted s && !s.platform.mmpStopped

/-- Does the platform controller watch its sensors: from phase 4 on, and not in recovery (R300, R306)? -/
def platformRuns (s : State) : Bool :=
  deviceUp s && !s.platform.pcStopped

/-- A step of the Lockkeeper: nothing while it does not run. -/
def controlled (s : State) (f : State → State) : Out := .next (if controlRuns s then f s else s)

/-- A step of the MMP: nothing while it does not run. -/
def managed (s : State) (f : State → State) : Out := .next (if mmpRuns s then f s else s)

/-- A step of the platform controller: nothing while it does not run. -/
def watched (s : State) (f : State → State) : Out := .next (if platformRuns s then f s else s)

/-! ### Free values -/

/-- The next free value of the device, and the state that has used it. -/
def State.takeFree (s : State) : Nat × State := (Config.free s.fresh, { s with fresh := s.fresh + 1 })

/-- A free choice between two values. -/
def State.choose {α : Type} (s : State) (a b : α) : α × State := (if s.takeFree.1 % 2 = 0 then a else b, s.takeFree.2)

/-- A free choice between a value and each of the older ones that may still be seen. -/
def State.chooseAmong {α : Type} (s : State) (cur : α) : List α → α × State
  | [] => (cur, s)
  | x :: xs =>
    let r := s.chooseAmong cur xs
    r.2.choose x r.1

/-- Old values that a wait or a fence has ordered are gone: an entry stands only while no entry of its place (`at_`), it or a later
one, belongs to a command that `seen` names (R208). -/
def dropSeen {α : Type} (at_ : α → Nat) (seen : α → Bool) : List α → List α
  | [] => []
  | x :: xs => if (x :: xs).any (fun y => at_ y == at_ x && seen y) then dropSeen at_ seen xs else x :: dropSeen at_ seen xs

/-- A list without the first `n` elements that a predicate names. -/
def dropFirst {α : Type} (p : α → Bool) : Nat → List α → List α
  | 0, xs => xs
  | _ + 1, [] => []
  | n + 1, x :: xs => if p x then dropFirst p n xs else x :: dropFirst p (n + 1) xs

/-- The bundle at an index of instruction SRAM, none where its error cannot be corrected (R283). -/
def Isram.held (r : Isram) (k : Nat) : Option Bundle :=
  match tget .good r.marks k with
  | .uncorrectable | .poisoned => none
  | .good | .correctable => some (tget 0 r.bundles k)

/-! ### Memories outside the tiles -/

/-- `n` bytes of a table of bytes from address `a`. -/
def readBytes (t : Table Byte) (a n : Nat) : List Byte := tgetList 0 id t a n

/-- Write bytes from address `a` on. -/
def writeBytes (t : Table Byte) (a : Nat) (bs : List Byte) : Table Byte := tsetList 0 id a bs t

/-- The 64-bit word at address `a`. -/
def readWord (t : Table Byte) (a : Nat) : Scalar := BitVec.ofNat 64 (ofBytes (readBytes t a 8))

/-- Write a 64-bit word at address `a`. -/
def writeWord (t : Table Byte) (a : Nat) (x : Scalar) : Table Byte := writeBytes t a (bytesOf 8 x.toNat)

/-- The bytes of a memory space. -/
def Mem.space (m : Mem) : MemSpace → Table Byte
  | .reservoir => m.res
  | .host p => tget [] m.host p
  | .queueSram => m.qsram
  | .peer n => tget [] m.peers n

/-- Put the bytes of a memory space. -/
def Mem.setSpace (m : Mem) (sp : MemSpace) (t : Table Byte) : Mem :=
  match sp with
  | .reservoir => { m with res := t }
  | .host p => { m with host := tset [] m.host p t }
  | .queueSram => { m with qsram := t }
  | .peer n => { m with peers := tset [] m.peers n t }

/-- The key of the 64-byte block of an address: blocks of the reservoir come first, then those of queue SRAM, of each peer, and of host memory
by PASID. Addresses lie below 2^64. -/
def blockKey (sp : MemSpace) (a : Nat) : Nat :=
  match sp with
  | .reservoir => a / 64
  | .queueSram => 2 ^ 59 + a / 64
  | .peer n => (n + 1) * 2 ^ 60 + a / 64
  | .host p => (p + 1) * 2 ^ 80 + a / 64

/-- The mark of the block that holds an address (R179). -/
def Mem.mark (m : Mem) (sp : MemSpace) (a : Nat) : Mark := tget .good m.marks (blockKey sp a)

/-- Would a read of the block return poison? -/
def Mark.bad : Mark → Bool
  | .uncorrectable | .poisoned => true
  | _ => false

/-- The mark of a block, listed under its key, after a write of `n` bytes from `a`: a block written whole is clean; one written in part is
corrected, or stays poisoned (R179). -/
def storedMark (sp : MemSpace) (a n : Nat) (x : Nat × Mark) : Option (Nat × Mark) :=
  if x.1 < blockKey sp a || blockKey sp (a + n - 1) < x.1 then some x
  else
    let b := x.1 - blockKey sp 0
    if (decide (a ≤ 64 * b) && decide (64 * b + 64 ≤ a + n)) || !x.2.bad then none else some (x.1, .poisoned)

/-- Bytes written into a memory space from address `a`, with what the write does to the marks of the blocks (R179). -/
def Mem.store (m : Mem) (sp : MemSpace) (a : Nat) (bs : List Byte) : Mem :=
  if bs.isEmpty then m
  else { m.setSpace sp (writeBytes (m.space sp) a bs) with marks := m.marks.filterMap (storedMark sp a bs.length) }

/-- A 64-bit word written into the reservoir. -/
def Mem.storeWord (m : Mem) (a : Nat) (x : Scalar) : Mem := m.store .reservoir a (bytesOf 8 x.toNat)

/-- Does a read of `n` bytes meet a block that returns poison (R179)? -/
def Mem.badRun (m : Mem) (sp : MemSpace) (a n : Nat) : Bool :=
  m.marks.any fun x => x.2.bad && decide (blockKey sp a ≤ x.1) && decide (x.1 ≤ blockKey sp (a + n - 1))

/-- Does a run of bytes lie in memory that is there: in the frames fitted to the reservoir controllers, when it is one of the reservoir (R2,
R179)? -/
def Mem.fits (m : Mem) (sp : MemSpace) (a n : Nat) : Bool :=
  !(sp == .reservoir) || decide (a + n ≤ m.capacity * Config.frameBytes)

/-- Go on where every run of bytes that is reached is there; otherwise a frame that does not exist is reached (R2, R179). -/
def fitted (ok : Bool) (r : Out) : Out := if ok then r else .fault .noSuchFrame

/-- Go on with a state, or stop where there is none because a frame that does not exist was reached (R2, R179). -/
def reached : Option State → Out
  | some s => .next s
  | none => .fault .noSuchFrame

/-- As `State.onTile`, for what may reach a frame that does not exist. -/
def State.tryTile (s : State) (n : Nat) (f : State → Option State) : Option State := (f (s.select n)).map fun t => t.select s.cur

/-- Frames of a run of bytes. -/
def framesOf (n : Nat) : Nat := (n + Config.frameBytes - 1) / Config.frameBytes

/-- Blocks of a frame (R179). -/
def frameBlocks : Nat := 1024

/-- Frames `f` to `f + k - 1` filled with zero bytes under fresh check symbols. -/
def Mem.zeroFrames (m : Mem) (f k : Nat) : Mem :=
  { m with res := tclear m.res (f * Config.frameBytes) ((f + k) * Config.frameBytes),
           marks := tclear m.marks (f * frameBlocks) ((f + k) * frameBlocks) }

/-- A run of frames put into a list of runs, joined to those that it meets. -/
def addRun (r : Nat × Nat) : List (Nat × Nat) → List (Nat × Nat)
  | [] => if r.2 = 0 then [] else [r]
  | x :: xs =>
    if r.2 = 0 then x :: xs
    else if r.1 + r.2 < x.1 then r :: x :: xs
    else if x.1 + x.2 < r.1 then x :: addRun r xs
    else addRun (min r.1 x.1, max (r.1 + r.2) (x.1 + x.2) - min r.1 x.1) xs

/-- The first `k` frames, from a multiple of `unit` on, that lie in one run of a list, and the runs left. -/
def takeRun (unit k : Nat) : List (Nat × Nat) → Option (Nat × List (Nat × Nat))
  | [] => none
  | r :: rs =>
    let f := (r.1 + unit - 1) / unit * unit
    if f + k ≤ r.1 + r.2 then some (f, addRun (r.1, f - r.1) (addRun (f + k, r.1 + r.2 - (f + k)) rs))
    else (takeRun unit k rs).map fun x => (x.1, r :: x.2)

/-- At most `k` frames of a list of runs, in rising order, and the runs left. -/
def takeFrames : Nat → List (Nat × Nat) → List (Nat × Nat) × List (Nat × Nat)
  | _, [] => ([], [])
  | k, r :: rs =>
    if k = 0 then ([], r :: rs)
    else if k < r.2 then ([(r.1, k)], (r.1 + k, r.2 - k) :: rs)
    else
      let x := takeFrames (k - r.2) rs
      (r :: x.1, x.2)

/-- A run of zero frames from the MMP whose address is a multiple of `2 ^ k` bytes: from those given back, or else fresh. Answers its address
and the memory, whose `nextFrame` passes the frames fitted when there is no such run. DESIGN CHOICE (log entry 6). -/
def Mem.allocateAligned (m : Mem) (k n : Nat) : Nat × Mem :=
  let unit := 2 ^ k / Config.frameBytes
  match takeRun unit (framesOf n) m.freed with
  | some x => (x.1 * Config.frameBytes, { m.zeroFrames x.1 (framesOf n) with freed := x.2 })
  | none =>
    let f := (m.nextFrame + unit - 1) / unit * unit
    (f * Config.frameBytes, { m.zeroFrames f (framesOf n) with
      nextFrame := f + framesOf n, freed := addRun (m.nextFrame, f - m.nextFrame) m.freed })

/-- A run of zero frames from the MMP: the first address, and the memory. -/
def Mem.allocate (m : Mem) (n : Nat) : Nat × Mem := m.allocateAligned 16 n

/-- Zero frames from the MMP that need not lie together: the runs, and the memory. -/
def Mem.allocateFrames (m : Mem) (k : Nat) : List (Nat × Nat) × Mem :=
  let x := takeFrames k m.freed
  let fresh := k - (x.1.map Prod.snd).sum
  let rs := x.1 ++ if fresh = 0 then [] else [(m.nextFrame, fresh)]
  (rs, { rs.foldl (fun m r => m.zeroFrames r.1 r.2) m with freed := x.2, nextFrame := m.nextFrame + fresh })

/-- Can the MMP allocate a run of bytes? -/
def Mem.room (m : Mem) (n : Nat) : Bool := decide ((m.allocate n).2.nextFrame ≤ m.capacity)

/-- A generation whose rows and frames the device still keeps in step with later writes. -/
def Gen.kept (g : Gen) : Bool :=
  match g.state with
  | .draining | .drained => true
  | .released | .failed => false

/-- A generation that its job retains: one in states 1 to 3 or 5 (R225). What it names stands until it is released (R473). -/
def Gen.retained (g : Gen) : Bool := decide (g.state ≠ .released)

/-- Does the job still know a closed generation: it retains it, or one that is not newer (Table 10.1, R375)? DEDUCED (log entry
29): a released generation older than every retained one is unknown; with none retained it reads Released. -/
def Job.knows (j : Job) (g : Gen) : Bool :=
  g.retained || !(j.gens.any Gen.retained) || j.gens.any fun x => x.retained && decide (x.num ≤ g.num)

/-- A frame copy in its place of the list, in increasing frame order (R473). -/
def addCopy (c : Nat × Nat) : List (Nat × Nat) → List (Nat × Nat)
  | [] => [c]
  | d :: ds => if c.1 < d.1 then c :: d :: ds else d :: addCopy c ds

/-- The bytes of a frame-copy list (Table 10.6). -/
def copyListBytes (cs : List (Nat × Nat)) : List Byte :=
  (cs.length :: 0 :: cs.flatMap fun c => [c.1, c.2]).flatMap (bytesOf 8)

/-- The rows of a partition lose their map entries: no clone is left (R231). -/
def clearRows (v : Vault) (lo hi : Nat) : Vault :=
  { v with rows := v.rows.filter fun x => !(decide (lo ≤ x.1 % 32768) && decide (x.1 % 32768 < hi)) }

/-- Every row of a job counts as drained and holds no clone, as after a failure (R235) or a restore (R239). -/
def State.cleanRows (s : State) (p : Nat) : State :=
  let s := (s.job p).parts.foldl (fun s x => s.mapTile x.1 fun t => { t with vault := clearRows t.vault x.2.1 x.2.2 }) s
  s.mapJob p fun j => { j with rowsClean := j.cuts }

/-- The first word of a generation record with STATE 5 (Table 10.3). -/
def failedWord (w : Scalar) : Scalar := w &&& ~~~(BitVec.ofNat 64 (place 7 52)) ||| BitVec.ofNat 64 (place 5 52)

/-- The record of a generation that has failed: STATE reads 5, and no row is left to drain (Table 10.3, R235). -/
def markFailed (m : Mem) (g : Gen) : Mem :=
  if g.record = 0 then m
  else (m.storeWord g.record (failedWord (readWord m.res g.record))).storeWord (g.record + 56) 0

/-- A generation that has failed: no row of it is left to drain (R235, R238). -/
def Gen.fail (g : Gen) : Gen :=
  { g with state := .failed, images := g.images.foldl (fun t x => tset {} t x.1 { x.2 with rowsLeft := 0 }) [] }

/-- The generations of a job that a condition names cannot be kept: they fail, their records say so, and the clones of one that
still drains are freed (R235). -/
def State.failGens (s : State) (p : Nat) (f : Gen → Bool) : State :=
  let lost := (s.job p).gens.filter fun g => f g && g.kept
  let s := s.mapJob p fun j => { j with gens := j.gens.map fun g => if f g && g.kept then g.fail else g }
  let s := s.mapMem fun m => lost.foldl markFailed m
  if lost.any fun g => decide (g.state = .draining) then s.cleanRows p else s

/-- What a copy of a block holds: corrected bytes under fresh check symbols, or poison (R179). -/
def Mark.copied : Mark → Mark
  | .good | .correctable => .good
  | .uncorrectable | .poisoned => .poisoned

/-- A copy of the entries of keys `src` to `src + n - 1` of a table over those of keys `dst` on of another, each through `f`. -/
def copyEntries {α : Type} [DecidableEq α] (d : α) (f : α → α) (src dst n : Nat) (a b : Table α) : Table α :=
  (a.filter fun x => decide (src ≤ x.1) && decide (x.1 < src + n)).foldl (fun u x => tset d u (dst + (x.1 - src)) (f x.2))
    (tclear b dst (dst + n))

/-- Does an unfenced write fall on a run of bytes? -/
def Unfenced.within (u : Unfenced) (sp : MemSpace) (a n : Nat) : Bool :=
  u.space == sp && decide (u.addr < a + n) && decide (a < u.addr + u.old.length)

/-- Frames `f` to `f + k - 1` go back to the MMP: it may allocate them again, and of what stood there nothing is left for any reader (R53,
R239). DESIGN CHOICE (log entry 6). -/
def Mem.giveBack (m : Mem) (f k : Nat) : Mem :=
  { m with freed := addRun (f, k) m.freed,
           unfenced := m.unfenced.filter fun u => !(u.within .reservoir (f * Config.frameBytes) (k * Config.frameBytes)) }

/-- Copy `n` bytes of whole blocks from one memory space to another, with what a copy makes of their marks (R179); the values that older
writes of the bytes copied over had replaced are gone for every reader (R208). -/
def Mem.copyRun (m : Mem) (sp : MemSpace) (src : Nat) (sq : MemSpace) (dst n : Nat) : Mem :=
  { m.setSpace sq (copyEntries 0 id src dst n (m.space sp) (m.space sq)) with
    marks := copyEntries .good Mark.copied (blockKey sp src) (blockKey sq dst) (n / 64) m.marks m.marks,
    unfenced := m.unfenced.filter fun u => !(u.within sq dst n) }

/-- Copy the bytes and the block marks of frame `f` over frame `g`. -/
def Mem.copyFrame (m : Mem) (f g : Nat) : Mem :=
  m.copyRun .reservoir (f * Config.frameBytes) .reservoir (g * Config.frameBytes) Config.frameBytes

/-- The first write to a frame that generations of its job share copies the frame first, for each of them; they fail when no
frame can be allocated (R230, R235). -/
def State.copyOnWrite (s : State) (frame : Nat) : State :=
  let info := tget (0, 0) s.mem.frames frame
  if info.1 = 0 then s
  else
    let p := info.1 - 1
    let j := s.job p
    if j.cuts ≤ info.2 then s
    else
      let m := { s.mem with frames := tset (0, 0) s.mem.frames frame (info.1, j.cuts) }
      let shares (g : Gen) : Bool := g.kept && decide (info.2 ≤ g.num)
      if !(j.gens.any shares) then { s with mem := m }
      else if !m.room Config.frameBytes then
        { s with mem := m }.failGens p shares
      else
        let a := m.allocate Config.frameBytes
        let copy := a.1 / Config.frameBytes
        let m := a.2.copyFrame frame copy
        let gens := j.gens.map fun g =>
          if shares g then { g with copies := addCopy (frame, copy) g.copies } else g
        let m := (gens.filter shares).foldl (fun m g => m.store .reservoir g.flist (copyListBytes g.copies)) m
        { s with mem := m }.mapJob p fun j => { j with gens := gens }

/-- The frames of a run of bytes, each copied first where generations share it (R230). -/
def State.copyFrames (s : State) (a n : Nat) : State :=
  (List.range (framesOf (a % Config.frameBytes + n))).foldl (fun s k => s.copyOnWrite (a / Config.frameBytes + k)) s

/-- The frames of a write into a memory space, each copied first where generations share it (R230). -/
def State.copyShared (s : State) (sp : MemSpace) (a n : Nat) : State :=
  match sp with
  | .reservoir => if n = 0 then s else s.copyFrames a n
  | _ => s

/-- Do two writes fall on one element? -/
def Unfenced.meets (u v : Unfenced) : Bool := u.space == v.space && u.addr == v.addr

/-- The writes that are not yet visible once those that `shown` names are: with a write goes every older one of its element, since a
reader that the newer one binds returns no older value (R208). -/
def showUnfenced (shown : Unfenced → Bool) : List Unfenced → List Unfenced
  | [] => []
  | u :: us =>
    if (u :: us).any (fun v => v.meets u && shown v) then showUnfenced shown us else u :: showUnfenced shown us

/-- Make the writes that a condition names visible at fabric scope. -/
def State.show (s : State) (shown : Unfenced → Bool) : State :=
  s.mapMem fun m => { m with unfenced := showUnfenced shown m.unfenced }

/-- The writes that a condition names, with every older one of their elements, are visible at device scope: see `showUnfenced`. -/
def showInDevice (shown : Unfenced → Bool) : List Unfenced → List Unfenced
  | [] => []
  | u :: us =>
    (if (u :: us).any (fun v => v.meets u && shown v) then { u with dev := true } else u) :: showInDevice shown us

/-- Make the writes that a condition names visible at a scope: at device scope they do not bind an agent outside the device (R205,
R216). -/
def State.showAt (s : State) (fabric : Bool) (shown : Unfenced → Bool) : State :=
  if fabric then s.show shown else s.mapMem fun m => { m with unfenced := showInDevice shown m.unfenced }

/-! ### Reports of watched words (R259) -/

/-- Word `i` of a QCB, as memory holds it when the word is used: DESIGN CHOICE (log entry 63). It is the newest value, as in every table and image
that the Lockkeeper reads: DESIGN CHOICE (log entry 8). -/
def qcbWord (s : State) (qcb i : Nat) : Nat := (readWord s.mem.res (qcb + 8 * i)).toNat

/-- KIND. -/
def qKind (s : State) (qcb : Nat) : Nat := bits (qcbWord s qcb 0) 1 0

/-- The address of the kick word of a KIND 1 queue. -/
def kickAddr (s : State) (qcb : Nat) : Nat := bits (qcbWord s qcb 4) 47 0

/-- The watch of the kick word of a KIND 1 queue that its thread serves; an eviction arms it (R259). -/
def kickWatch (s : State) (t : Thread) : Watch :=
  { pasid := t.pasid, qnum := t.qnum, qcb := t.qcb, isKick := true, space := .reservoir,
    addr := kickAddr s t.qcb, value := t.kick, geq := true, packet := [], fired := none }

/-- Does a value of the watched word meet a watch: for a kick watch one above KMAX (R259, R272)? -/
def Watch.meets (w : Watch) (x : Nat) : Bool :=
  if w.isKick then decide (w.value < x) else if w.geq then decide (w.value ≤ x) else x == w.value

/-- What the Lockkeeper watches: its watch entries that have not fired, and the kick word of each mapped KIND 1 queue (R259). -/
def State.watched (s : State) : List Watch :=
  (s.lk.watches.filter fun w => w.fired.isNone) ++
    (s.lk.threads.filter fun t => decide (t.2.act ≠ .unmapped) && qKind s t.2.qcb == 1).map fun t => kickWatch s t.2

/-- Is the report one for the queue and the kind of a watch? -/
def Report.for_ (r : Report) (w : Watch) : Bool := r.pasid == w.pasid && r.qnum == w.qnum && r.isKick == w.isKick

/-- Note a value that meets a watch: of two for one watch that meet it the greater stands. -/
def noteReport (rs : List Report) (w : Watch) (x : Nat) : List Report :=
  if rs.any fun r => r.for_ w then
    rs.map fun r => if r.for_ w then { r with value := if w.meets r.value then max r.value x else x } else r
  else rs ++ [{ pasid := w.pasid, qnum := w.qnum, isKick := w.isKick, value := x }]

/-- The value that was reported for a watch and meets it, if any. -/
def reported (s : State) (w : Watch) : Option Nat := ((s.lk.reports.find? fun r => r.for_ w && w.meets r.value).map Report.value)

/-- A write of `n` bytes from `a` has been performed: each watched word that it touches is reported with the value it holds now, and its
writes are so observed at fabric scope, where the Lockkeeper reads it (R211, R220, R259). -/
def State.report (s : State) (sp : MemSpace) (a n : Nat) : State :=
  match s.watched.filter fun w => w.space == sp && decide (w.addr < a + n) && decide (a < w.addr + 8) with
  | [] => s
  | ws =>
    let value (w : Watch) : Nat := (readWord (s.mem.space w.space) w.addr).toNat
    (s.show fun u => ws.any fun w => u.within w.space w.addr 8).mapLk fun l => { l with
      reports := ws.foldl (fun rs w => if w.meets (value w) then noteReport rs w (value w) else rs) l.reports }

/-- A write of bytes into a memory space by any agent but a barge: a reservoir write copies the shared frames that it touches first
(R230), the marks of its blocks follow R179, the values that older writes of these bytes had replaced are gone for every reader (R208), and
watched words are reported (R259). DESIGN CHOICE (log entry 8). -/
def State.writeSpace (s : State) (sp : MemSpace) (a : Nat) (bs : List Byte) : State :=
  ((s.copyShared sp a bs.length).mapMem fun m =>
    { m.store sp a bs with unfenced := m.unfenced.filter fun u => !(u.within sp a bs.length) }).report sp a bs.length

/-- A 64-bit word written into a memory space. -/
def State.writeSpaceWord (s : State) (sp : MemSpace) (a : Nat) (x : Scalar) : State :=
  s.writeSpace sp a (bytesOf 8 x.toNat)

/-! ### What a reader sees (R208, R211, R216) -/

/-- Who reads a memory outside the tiles: a tile, the Lockkeeper, or the host (R204, R205). -/
inductive Reader where
  | tile (n : Nat)
  | lockkeeper
  | host
  deriving DecidableEq, Repr

/-- Is a write visible to the task of a tile over an early edge: its launch depends, by an edge that is satisfied, on the launch of the
write (R36, R216)? -/
def boundEarly (s : State) (tile : Nat) (u : Unfenced) : Bool :=
  u.early && (s.node (s.tile tile).task.node).edges.any fun e => e.src == u.node && e.early && e.satisfied && !e.final

/-- Does a write that is not yet visible at fabric scope bind a reader: its own tile, a dependant over an early edge, and any agent of the
device once it is visible at device scope (R205, R208, R216)? -/
def Reader.bound (r : Reader) (s : State) (u : Unfenced) : Bool :=
  match r with
  | .tile n => u.dev || u.tile == n || boundEarly s n u
  | .lockkeeper => u.dev
  | .host => false

/-- The writes of an element that a reader may not yet see, oldest first: those after the last one that binds it (R208, R216). -/
def unseenWrites (s : State) (r : Reader) (sp : MemSpace) (a : Nat) : List Unfenced :=
  (s.mem.unfenced.filter fun u => u.space == sp && u.addr == a).foldl (fun us u => if r.bound s u then [] else us ++ [u]) []

/-- The first `n` writes of a list that a predicate names are visible at device scope. -/
def inDeviceFirst (p : Unfenced → Bool) : Nat → List Unfenced → List Unfenced
  | 0, us => us
  | _ + 1, [] => []
  | n + 1, u :: us => if p u then { u with dev := true } :: inDeviceFirst p n us else u :: inDeviceFirst p (n + 1) us

/-- A reader has observed write `n` of an element, counted from 1, and with it the older ones: every later reader of the scope at which it is
observed observes them (R211). The host and the Lockkeeper, which reads with acquire there (R220), observe at fabric scope, and so does a dependant
the write that an early edge shows it (R216); a tile observes another tile's write at device scope, and its own at tile scope. -/
def Reader.observes (r : Reader) (s : State) (p : Unfenced → Bool) (n : Nat) : List Unfenced :=
  let us := s.mem.unfenced
  match n, r with
  | 0, _ => us
  | k + 1, .tile t =>
    match (us.filter p)[k]? with
    | none => us
    | some u => if boundEarly s t u then dropFirst p n us else if u.tile = t then us else inDeviceFirst p n us
  | _ + 1, _ => dropFirst p n us

/-- What an agent reads of an element of `n` bytes: the value before one of the writes that it may not yet see, or the newest one, by
a free choice. The writes that it has observed so are observed by every later reader of its scope (R208, R211). -/
def readElement (s : State) (who : Reader) (sp : MemSpace) (a n : Nat) : List Byte × State :=
  let us := unseenWrites s who sp a
  let r := s.chooseAmong us.length (List.range us.length)
  let at_ (u : Unfenced) : Bool := u.space == sp && u.addr == a
  let older := (s.mem.unfenced.filter at_).length - us.length
  ((us[r.1]?.map Unfenced.old).getD (readBytes (s.mem.space sp) a n),
    r.2.mapMem fun m => { m with unfenced := who.observes s at_ (older + r.1) })

/-- Put `xs` over the bytes of a list from place `k` on. -/
def spliceBytes (bs : List Byte) (k : Nat) (xs : List Byte) : List Byte :=
  (bs.take k ++ xs ++ bs.drop (k + xs.length)).take bs.length

/-- The elements that touch a run of bytes and have writes not yet visible everywhere: address and size. -/
def unseenElements (m : Mem) (sp : MemSpace) (a n : Nat) : List (Nat × Nat) :=
  ((m.unfenced.filter fun u => u.within sp a n).map fun u => (u.addr, u.old.length)).eraseDups

/-- What an agent that is no tile reads of a run of bytes: each element that touches it old or new as `readElement` says, whole or in part
(R208, R210, R216). -/
def readRun (s : State) (who : Reader) (sp : MemSpace) (a n : Nat) : List Byte × State :=
  (unseenElements s.mem sp a n).foldl (fun r e =>
    let x := readElement r.2 who sp e.1 e.2
    (spliceBytes r.1 (e.1 - a) (x.1.drop (a - e.1)), x.2)) (readBytes (s.mem.space sp) a n, s)

/-- A 64-bit word that the Lockkeeper reads, with acquire at fabric scope (R220, R267, R272). -/
def readSpaceWord (s : State) (sp : MemSpace) (a : Nat) : Scalar × State :=
  let r := readRun s .lockkeeper sp a 8
  (BitVec.ofNat 64 (ofBytes r.1), r.2)

/-- The words of a run, in increasing address. -/
def readSpaceWords (s : State) (sp : MemSpace) (a n : Nat) : List Scalar × State :=
  let r := readRun s .lockkeeper sp a (8 * n)
  ((List.range n).map fun i => BitVec.ofNat 64 (ofBytes ((r.1.drop (8 * i)).take 8)), r.2)

/-! ### Verdicts -/

/-- The worse of two verdicts (R23). -/
def Verdict.worst : Verdict → Verdict → Verdict
  | .tainted, _ | _, .tainted => .tainted
  | .corrected, _ | _, .corrected => .corrected
  | .clean, .clean => .clean

/-- Raise the verdict of the task checked out; it is never lowered (R293). -/
def State.raise (s : State) (v : Verdict) : State := s.mapCtl fun c => { c with verdict := c.verdict.worst v }

/-- Taint the task when a poisoned value is used as Table 13.6 says. -/
def State.taintIf (s : State) (b : Bool) : State := if b then s.raise .tainted else s

/-- Raise the verdict to corrected when a correction occurred. -/
def State.correctIf (s : State) (b : Bool) : State := if b then s.raise .corrected else s

/-! ### Fetch -/

/-- The fetch at PC: the DETAIL of an illegal-instruction fault, if any, with the bundle as the decoder receives it, 0 where no bundle stands
(log entry 61). A bundle that a `.code` copy changed and no `IFENCE` has ordered is old or new by a free choice (R56, R80, R283, R376). -/
def fetch (s : State) : (Option Nat × Bundle) × State :=
  let pc := s.core.ctl.pc
  let r := s.core.isram
  if Config.bundles ≤ pc then ((some 1, 0), s)
  else
    let olds := (r.unseen.filter fun x => x.1 == pc).map fun x => x.2.2
    let x := s.chooseAmong olds.length (List.range olds.length)
    let s := x.2.correctIf (tget .good r.marks pc == .correctable && x.1 == olds.length)
    match olds.getD x.1 (r.held pc) with
    | none => ((some 2, BitVec.ofNat 256 s.takeFree.1), s.takeFree.2)
    | some b => ((none, b), s)

/-! ### Physical names -/

/-- The physical vector register of a logical number (R76). -/
def physV (rrb : BitVec 4) (n : Nat) : Nat := if n < 32 then n else 32 + (n - 32 + rrb.toNat) % 16

/-- The physical predicate of a logical number (R76). -/
def physP (rrb : BitVec 4) (n : Nat) : Nat := if n < 4 then n else 4 + (n - 4 + rrb.toNat) % 4

/-- The physical accumulator row of a window offset (R71). -/
def physRow (awb : BitVec 11) (o : Nat) : Nat := (awb.toNat + o) % 2048

/-- A predicate by logical number: p0 reads 1 (R67, R76). -/
def readPred (s : State) (p : BitVec 3) : Bool :=
  if p = 0 then true else tget false s.core.regs.p (physP s.core.ctl.rrb p.toNat)

/-! ### Holds (R38 to R41) -/

/-- Request a hold of a gang: it takes effect after 16 + P cycles, and a cause raised during a hold joins it (R38, R41). -/
def State.requestHold (s : State) (g : Nat) (c : HoldCause) : State :=
  s.mapGang g fun x =>
    if x.causes.contains c && !(c == .trap) then x
    else
      let cs := if x.causes.contains c then x.causes else x.causes ++ [c]
      if x.held then { x with causes := cs, resumeAt := none }
      else
        match x.effectAt with
        | some _ => { x with causes := cs }
        | none => { x with causes := cs, effectAt := some (s.clock + 16 + x.pad) }

/-- Request a hold whose entry latency is 16 + `pad` for every gang of a scope, when it is this request that fixes the entry
(R227). -/
def State.requestScopeHold (s : State) (g : Nat) (c : HoldCause) (pad : Nat) : State :=
  let fresh := !(s.gang g).held && (s.gang g).effectAt.isNone
  (s.requestHold g c).mapGang g fun x =>
    if fresh && x.effectAt.isSome then { x with effectAt := some (s.clock + 16 + pad) } else x

/-- Clear a hold cause: when none is left, the gang resumes 16 + P cycles later (R38), or, had the hold not yet taken
effect, goes on. -/
def State.clearHold (s : State) (g : Nat) (c : HoldCause) : State :=
  s.mapGang g fun x =>
    let cs := x.causes.filter fun d => !(d == c)
    if cs.isEmpty && !x.causes.isEmpty then
      (if x.held then { x with causes := cs, resumeAt := some (s.clock + 16 + x.pad) }
       else { x with causes := cs, effectAt := none })
    else { x with causes := cs }

/-- Clear a hold cause of a scope: a gang that it releases, or that it has kept from its start, goes on 16 + `pad` cycles later
(R227). -/
def State.clearScopeHold (s : State) (g : Nat) (c : HoldCause) (pad : Nat) : State :=
  let x := s.gang g
  (s.clearHold g c).mapGang g fun y =>
    if x.causes.contains c && (decide (y.life ≠ .started) || (y.causes.isEmpty && y.held)) then
      { y with resumeAt := some (s.clock + 16 + pad) }
    else y

/-! ### Bank timers as counters -/

/-- What a counter reads: the cycles left until its clock (R134). -/
def left (clock t : Nat) : Nat := t - clock

/-- STATE of a bank: a refreshing bank is Idle again once ACTRDY reads 0 (Table 6.2). -/
def Bank.modeAt (b : Bank) (clock : Nat) : BankMode :=
  match b.mode with
  | .refreshing => if b.actAt ≤ clock then .idle else .refreshing
  | m => m

/-- A bank of the tile checked out, by 16·channel + bank. -/
def bankOf (s : State) (n : Nat) : Bank := tget {} s.core.vault.banks n

/-- A channel of the tile checked out. -/
def channelOf (s : State) (n : Nat) : Channel := tget {} s.core.vault.channels n

/-- An entry of the bank-state image (Table 6.5). -/
def Bank.image (b : Bank) (clock : Nat) : Nat :=
  let m := b.modeAt clock
  let st := match m with
    | .idle => 0
    | .active => 1
    | .refreshing => 2
  let act := decide (m = .active)
  place (if act then b.row else 0) 44 + place st 42 + place (if act && b.intent then 1 else 0) 41 + place b.debt 37 +
    place (left clock b.actAt) 28 + place (if act then left clock b.preAt else 0) 21 +
    place (if act then left clock b.colAt else 0) 14 + left clock b.due

/-- A channel entry of the bank-state image (Table 6.6). -/
def Channel.image (c : Channel) (clock : Nat) : Nat :=
  place (left clock c.faw3) 42 + place (left clock c.faw2) 36 + place (left clock c.faw1) 30 + place (left clock c.faw0) 24 +
    place (left clock c.wtrAt) 19 + place (left clock c.rtwAt) 15 + place (left clock c.ccdAt) 13 + place (left clock c.rrdAt) 10

/-- The bank-state image of the tile checked out, 68 words of 64 bits (R143). -/
def bankImage (s : State) : BitVec 4352 :=
  BitVec.ofNat 4352 (ofElems 8 (((List.range 64).map fun n => (bankOf s n).image s.clock) ++
    ((List.range 4).map fun n => (channelOf s n).image s.clock)))

/-! ### Taking a trap (R81, R82, R282 to R285) -/

/-- A cause found at issue: its place in the order of Table 3.8, its code and DETAIL of Table 13.2, and the slot it names. -/
structure IssueFault where
  order : Nat
  cause : Nat
  detail : Nat
  slot : Nat
  deriving DecidableEq, Repr

/-- Does the first cause come before the second: the order of Table 3.8, then the lower slot (R81)? -/
def IssueFault.before (a b : IssueFault) : Bool :=
  decide (a.order < b.order) || (decide (a.order = b.order) && decide (a.slot < b.slot))

/-- The cause that the trap record names (R81). -/
def firstFault : List IssueFault → Option IssueFault
  | [] => none
  | f :: fs =>
    match firstFault fs with
    | none => some f
    | some g => if g.before f then some g else some f

/-- The header words of a trap record (Table 13.3). -/
def TrapRec.words (r : TrapRec) (n : Nat) (t : Task) : List Nat :=
  [place r.detail 16 + place r.slot 12 + r.cause, place r.npc 16 + r.pc, r.tcyc, r.tclk,
   elemAt 8 r.bundle.toNat 0, elemAt 8 r.bundle.toNat 1, elemAt 8 r.bundle.toNat 2, elemAt 8 r.bundle.toNat 3, r.fflg.toNat,
   place t.gid 52 + place (tileX n) 48 + place (tileY n) 44 + place t.tix 28,
   place r.sgsh.toNat 32 + r.sgsc.toNat, place r.esig.toNat 32 + r.ecnt.toNat,
   (if r.late then 2 else 0) + (if r.inseg then 1 else 0), 0, 0, 0]

/-- The 672 bytes of a trap record (R284). -/
def TrapRec.bytes (r : TrapRec) (n : Nat) (t : Task) : List Byte :=
  (r.words n t).flatMap (bytesOf 8) ++ bytesOf 544 r.image.toNat

/-- Write the trap record of the tile checked out into its context area (R282, R290). -/
def writeTrapRecord (s : State) : State :=
  match s.core.ctl.trap with
  | none => s
  | some r =>
    let s := s.mapMem fun m => m.store .reservoir (s.core.task.ctx + 0x1F0000) (r.bytes s.cur s.core.task)
    s.mapGang s.core.task.gid fun g => { g with firstTrap := some (g.firstTrap.getD s.cur) }

/-- The record of a cause raised now: PC is `pc`, NPC is `npc` (R284). -/
def trapRecord (s : State) (cause detail slot pc npc : Nat) (final : Bool) : TrapRec :=
  let c := s.core.ctl
  { cause := cause, detail := detail, slot := slot, pc := pc, npc := npc, tcyc := c.cyc, tclk := s.clock, bundle := c.ir,
    fflg := c.fflg, sgsc := c.sgsc, sgsh := c.sgsh, ecnt := if c.inseg then c.ecnt else 0,
    esig := if c.inseg then c.esig else 0, inseg := c.inseg, late := false, final := final, image := bankImage s }

/-- A later cause in a tile whose `BRK` or `TRAP` record is still open: issue ends, and the record says so and names the next bundle
(R282, R284). A record that is complete stands, and so does its tile. -/
def takeLate (s : State) (r : TrapRec) (npc : Nat) : State :=
  if r.final then s else s.mapCtl fun c => { c with status := .stopped, trap := some { r with late := true, npc := npc } }

/-- Taking a trap with a suppressing cause: issue ends in the tile, the record of its first cause is written, and the trap
hold of the gang is requested (R81, R82, R282). A segment fault taints the task (R79). -/
def takeTrap (s : State) (f : IssueFault) : State :=
  match s.core.ctl.trap with
  | some r => takeLate (s.taintIf (decide (f.cause = 5) && !r.final)) r s.core.ctl.pc
  | none =>
    let s := s.taintIf (decide (f.cause = 5))
    let s := s.mapCtl fun c => { c with status := .stopped }
    let r := trapRecord s f.cause f.detail f.slot s.core.ctl.pc s.core.ctl.pc true
    let c := s.core.ctl
    let r := if f.cause = 5 then { r with sgsc := c.sgsc + 1, sgsh := c.sgsh + bundleCrc c.ir } else r
    (writeTrapRecord (s.mapCtl fun c => { c with trap := some r })).requestHold s.core.task.gid .trap

/-- A cause raised while the tile waits: the record names the wait bundle, whose own CYC is one below the count that stands
still, and NPC the bundle after it (R242, R446). After `BRK` or `TRAP` it ends issue as a late cause of the wait bundle does (R282):
DEDUCED (log entry 21). -/
def takeWaitTrap (s : State) (cause detail : Nat) : State :=
  let w := match s.core.ctl.wait with
    | some w => w.pc
    | none => s.core.ctl.pc
  match s.core.ctl.trap with
  | some r => takeLate s r (w + 1)
  | none =>
    let r := { trapRecord s cause detail 15 w (w + 1) true with tcyc := s.core.ctl.cyc - 1 }
    (writeTrapRecord (s.mapCtl fun c => { c with trap := some r, status := .stopped })).requestHold s.core.task.gid .trap

/-- `BRK` and `TRAP`: the bundle takes effect, the record is opened and completed when the hold takes effect (R285). Its bank-state image
is that before the D slot of the bundle acts: DESIGN CHOICE (log entry 61). -/
def takeSoftTrap (s : State) (cause code : Nat) : State :=
  match s.core.ctl.trap with
  | some _ => s
  | none =>
    let r := trapRecord s cause code 0 s.core.ctl.pc s.core.ctl.npc false
    (s.mapCtl fun c => { c with trap := some r }).requestHold s.core.task.gid .trap

/-- Complete the record of a `BRK` or `TRAP` as the hold takes effect (R284). A tile in a wait names the wait bundle. ECNT and ESIG are
taken here too, with the segment that NPC lies in: DESIGN CHOICE (log entry 61). -/
def completeTrap (s : State) : State :=
  match s.core.ctl.trap with
  | none => s
  | some r =>
    if r.final then s
    else
      let c := s.core.ctl
      let npc := if r.late then r.npc else match c.wait with
        | some w => if c.status = .waiting then w.pc else c.pc
        | none => c.pc
      writeTrapRecord (s.mapCtl fun c => { c with trap := some { r with
        npc := npc, fflg := c.fflg, sgsc := c.sgsc, sgsh := c.sgsh, inseg := c.inseg,
        ecnt := if c.inseg then c.ecnt else 0, esig := if c.inseg then c.esig else 0, final := true } })

/-- A latch that has lost its contents (R66). -/
def loseLatches (s : State) : State := s.mapRegs fun r => { r with latches := [] }

/-! ### Return from a trap (R287) -/

/-- The return of one tile from a trap hold: its record is gone, and a task that `BRK` or `TRAP` let run on resumes at NPC or
in its wait (R287). A tile that a suppressing cause stopped does not resume (R82). -/
def returnFromTrap (s : State) : State :=
  s.mapCtl fun c =>
    match c.trap with
    | none => c
    | some r => if c.status = .stopped then c else { c with trap := none, pc := if c.status = .waiting then c.pc else r.npc }

end Sys2Proof.Machine
end

