-- ==== Sys2Proof/Machine/Staging.lean ====
section
/-! DEFINITION. Staging: addresses, units and lines, what a read by the core and by the barge returns, what a write leaves, and the
races between the two (R177, R178, R185, R208, R213, R215). -/

namespace Sys2Proof.Machine

/-! ### Addresses, units and lines -/

/-- A staging address: every address wraps modulo 2^20 (R177). -/
def stageAddr (a : Nat) : Nat := a % Config.stagingBytes

/-- The 8-byte units that `n` bytes from `a` touch, in order. -/
def unitsOf (a n : Nat) : List Nat :=
  if n = 0 then []
  else (List.range ((a % 8 + n + 7) / 8)).map fun i => stageAddr (a / 8 * 8 + 8 * i) / 8

/-- The 32-byte lines that `n` bytes from `a` touch, in order. -/
def linesOf (a n : Nat) : List Nat :=
  if n = 0 then []
  else (List.range ((a % 32 + n + 31) / 32)).map fun i => stageAddr (a / 32 * 32 + 32 * i) / 32

/-- `n` bytes of staging from address `a`, wrapping. -/
def Staging.bytes (t : Staging) (a n : Nat) : List Byte := tgetList 0 stageAddr t.cells a n

/-- The 8-byte value of a unit. -/
def Staging.unit (t : Staging) (u : Nat) : BitVec 64 := BitVec.ofNat 64 (ofBytes (t.bytes (8 * u) 8))

/-- Is any line of the range poisoned? -/
def Staging.poisoned (t : Staging) (a n : Nat) : Bool := (linesOf a n).any fun l => tget false t.poison l

/-- Does any unit of the range hold a mark? -/
def Staging.marked (t : Staging) (k : Mark) (a n : Nat) : Bool := (unitsOf a n).any fun u => tget .good t.marks u == k

/-- Does a read of the range meet poison or an error that it cannot correct (R177, R192)? -/
def Staging.bad (t : Staging) (a n : Nat) : Bool := t.poisoned a n || t.marked .uncorrectable a n

/-- What a unit holds now. -/
def Staging.held (t : Staging) (u : Nat) : UnitValue :=
  { value := t.unit u, poison := tget false t.poison (u / 4) || tget .good t.marks u == .uncorrectable,
    fixed := tget .good t.marks u == .correctable }

/-- The units listed hold free bytes: what a read of an uncorrectable unit returns is unspecified (R10, R177). -/
def spoilUnits : List Nat → State → State
  | [], s => s
  | u :: us, s =>
    spoilUnits us (s.takeFree.2.mapStaging fun t => { t with cells := tsetList 0 id (8 * u) (bytesOf 8 s.takeFree.1) t.cells })

/-- The units of a range that hold an error that cannot be corrected hold free bytes. -/
def spoilRange (s : State) (a n : Nat) : State :=
  spoilUnits ((unitsOf a n).filter fun u => tget .good s.core.staging.marks u == .uncorrectable) s

/-- A read that finds an error it cannot correct sets the poison tag of the line (R295). -/
def tagLines (s : State) (a n : Nat) : State :=
  let bad := (unitsOf a n).filter fun u => tget .good s.core.staging.marks u == .uncorrectable
  s.mapStaging fun t => { t with poison := bad.foldl (fun p u => tset false p (u / 4) true) t.poison }

/-! ### Reads of what stands, and by the core -/

/-- What a read of a unit as it stands returns: free bytes, poisoned, where its error cannot be corrected, and the line's tag is set
(R177, R295). -/
def readHeld (s : State) (u : Nat) : UnitValue × State :=
  if tget .good s.core.staging.marks u = .uncorrectable then
    ({ value := BitVec.ofNat 64 s.takeFree.1, poison := true },
      s.takeFree.2.mapStaging fun t => { t with poison := tset false t.poison (u / 4) true })
  else (s.core.staging.held u, s)

/-- What a read of a list of units as they stand returns. -/
def heldUnits (s : State) : List Nat → List UnitValue × State
  | [] => ([], s)
  | u :: us =>
    let r := readHeld s u
    let rs := heldUnits r.2 us
    (r.1 :: rs.1, rs.2)

/-- What a core read of one unit returns: an old value where a barge landing of it is not yet ordered, by a free choice (R213). The
core never goes back to a value older than one it has read (R208). -/
def readUnit (s : State) (u : Nat) : UnitValue × State :=
  let xs := s.core.staging.unseen.filter fun x => x.unit == u
  let r := s.chooseAmong xs.length (List.range xs.length)
  let s := r.2.mapStaging fun t => { t with unseen := dropFirst (fun x => x.unit == u) r.1 t.unseen }
  match xs[r.1]? with
  | some x => (x.was, s)
  | none => readHeld s u

/-- What a core read of a list of units returns. -/
def readUnits (s : State) : List Nat → List UnitValue × State
  | [] => ([], s)
  | u :: us =>
    let r := readUnit s u
    let rs := readUnits r.2 us
    (r.1 :: rs.1, rs.2)

/-- A core read of `n` bytes at an 8-byte aligned address: the number the bytes spell, whether they are poisoned, and the
state, whose verdict a correction has raised (R177, R378). -/
def stageLoad (s : State) (a n : Nat) : (Nat × Bool) × State :=
  let r := readUnits s (unitsOf a n)
  ((ofElems 8 (r.1.map fun x => x.value.toNat), r.1.any UnitValue.poison), r.2.correctIf (r.1.any UnitValue.fixed))

/-! ### What a write leaves -/

/-- Does a write of `n` bytes from `a` cover a unit whole? -/
def wholeUnit (a n u : Nat) : Bool :=
  (List.range 8).all fun i => decide ((8 * u + i + Config.stagingBytes - a) % Config.stagingBytes < n)

/-- The units that a write covers in part and that hold an error it cannot correct (R177). -/
def Staging.lost (t : Staging) (a n : Nat) : List Nat :=
  (unitsOf a n).filter fun u => tget .good t.marks u == .uncorrectable && !wholeUnit a n u

/-- What a store does to the marks and tags of staging: a unit written whole gets fresh check bits; one written in part is
corrected, or its line is poisoned (R177); a line written whole and clean loses its tag (R294). -/
def Staging.stored (t : Staging) (a n : Nat) (poison : Bool) : Staging :=
  let wholeLine (l : Nat) : Bool := (List.range 4).all fun i => wholeUnit a n (4 * l + i)
  let marks := (unitsOf a n).foldl (fun m u => tset .good m u .good) t.marks
  let tags := (linesOf a n).foldl (fun m l =>
    tset false m l (poison || (t.lost a n).any (fun u => u / 4 == l) || (tget false m l && !wholeLine l))) t.poison
  { t with marks := marks, poison := tags }

/-- Does a partial write of the range meet an error that it corrects (R177)? -/
def Staging.mends (t : Staging) (a n : Nat) : Bool :=
  (unitsOf a n).any fun u => tget .good t.marks u == .correctable && !wholeUnit a n u

/-- Put bytes into staging from address `a`, wrapping. -/
def Staging.put (t : Staging) (a : Nat) (bs : List Byte) (poison : Bool) : Staging :=
  let t' := t.stored a bs.length poison
  { t' with cells := tsetList 0 stageAddr a bs t'.cells }

/-- The unit goes back to what it held in `t`, mark and bytes. -/
def Staging.keepUnit (t now : Staging) (u : Nat) : Staging :=
  { now with cells := tsetList 0 id (8 * u) (bytesOf 8 (t.unit u).toNat) now.cells,
             marks := tset .good now.marks u (tget .good t.marks u) }

/-- The lines whose four units are all listed go back to the tags they had in `t`. -/
def Staging.keepTags (t now : Staging) (us : List Nat) : Staging :=
  { now with poison := us.foldl (fun p u =>
      if (List.range 4).all fun i => us.contains (u / 4 * 4 + i) then tset false p (u / 4) (tget false t.poison (u / 4)) else p) now.poison }

/-! ### Barge commands and their order -/

/-- The kinds of barge command. -/
inductive BKind where
  | load | code | gather | store | scatter
  | reduce (rm : BitVec 3) (sat : Bool) (fmt : BitVec 4)
  | atomic (op : Nat) (scope : Nat)
  | fence (scope : Nat)
  | mark
  | sealOff
  | sealOn
  deriving DecidableEq, Repr

/-- The kind of a queued command, from its word. -/
def Cmd.kind (c : Cmd) : BKind :=
  match decode .x c.word with
  | .ok (.bcopy _ _ _ code dir _) => if code = 1 then .code else if dir = 1 then .store else .load
  | .ok (.bgath _ _ _ _) => .gather
  | .ok (.bscat _ _ _) => .scatter
  | .ok (.breda _ _ r a f _) => .reduce r (a == 1) f
  | .ok (.batom _ _ c o _) => .atomic o.toNat c.toNat
  | .ok (.bfence _ _ c _) => .fence c.toNat
  | .ok (.bseal _ _ _) => .sealOn
  | .ok (.bopen _ _ _) => .sealOff
  | _ => .mark

/-- Does the command move elements of a tensor? -/
def BKind.moves : BKind → Bool
  | .fence _ | .mark | .sealOff | .sealOn => false
  | _ => true

/-- Does it take one dimension from an index list? -/
def BKind.indexed : BKind → Bool
  | .gather | .scatter => true
  | _ => false

/-- Does its read part read the tensor? -/
def BKind.loads : BKind → Bool
  | .load | .code | .gather => true
  | _ => false

/-- Does it land bytes in staging or instruction SRAM? -/
def BKind.lands : BKind → Bool
  | .load | .code | .gather | .atomic _ _ => true
  | _ => false

/-- Word `i` of a command's view block (Table 8.3). -/
def vword (c : Cmd) (i : Nat) : Nat := (c.view.getD i 0).toNat

/-- The tensor number of HANDLE. -/
def vTensor (c : Cmd) : Nat := bits (vword c 0) 23 0

/-- The generation count of HANDLE. -/
def vCount (c : Cmd) : Nat := bits (vword c 0) 31 24

/-- SBASE. -/
def vBase (c : Cmd) : Nat := bits (vword c 1) 19 0

/-- RET, a multiple of 8. -/
def vRet (c : Cmd) : Nat := bits (vword c 15) 19 3 * 8

/-- Do `n` bytes from `a` touch a unit? -/
def touchesUnit (a n u : Nat) : Bool :=
  decide (0 < n) && decide ((8 * u + Config.stagingBytes - a / 8 * 8) % Config.stagingBytes < a % 8 + n)

/-- Has a command landed bytes in a unit (R190, R197)? -/
def Cmd.landed (c : Cmd) (u : Nat) : Bool :=
  match c.kind with
  | .load | .gather => touchesUnit (vBase c) c.wp u
  | .atomic _ _ => touchesUnit (vRet c) c.wp u
  | _ => false

/-- The commands of `xs` with every command that one of them comes after, and so on back: the order of Table 9.2 is transitive, and a
command comes after commands of smaller ids only, so `n` above every id of `xs` suffices (R206). -/
def pastClosure (t : Table (List Nat)) : Nat → List Nat → List Nat
  | 0, xs => xs
  | n + 1, xs => pastClosure t n (if xs.contains n then xs ++ tget [] t n else xs)

/-- Is command `d` the command `k`, or ordered after it? -/
def Barge.follows (b : Barge) (d k : Nat) : Bool := (pastClosure b.past (d + 1) [d]).contains k

/-! ### The values that the core's writes replace while a command is outstanding (R213) -/

/-- The values of a unit that a command may still read, oldest first, but for the present one. -/
def Cmd.replaced (c : Cmd) (u : Nat) : List UnitValue := (c.before.filter fun x => x.1 == u).map Prod.snd

/-- Put the values of a unit that a command may still read. -/
def Cmd.setReplaced (c : Cmd) (u : Nat) (vs : List UnitValue) : Cmd :=
  { c with before := (c.before.filter fun x => !(x.1 == u)) ++ vs.map fun v => (u, v) }

/-- Change, for each outstanding command, the values of a unit that it may still read. -/
def mapReplaced (s : State) (u : Nat) (f : Cmd → List UnitValue → List UnitValue) : State :=
  s.mapBarge fun b => { b with queue := b.queue.map fun d => d.setReplaced u (f d (d.replaced u)) }

/-- Is a command closed to what stood in a unit before command `k` wrote it: it is ordered after `k`, or it lands, and so after `k`, in
issue order (R206, R215)? -/
def closedTo (b : Barge) (d : Cmd) (k : Nat) : Bool := d.kind.lands || b.follows d.id k

/-! ### A core store -/

/-- The outstanding commands that have landed in a unit. -/
def landedHere (s : State) (u : Nat) : List Nat := (s.core.barge.queue.filter fun c => c.landed u).map Cmd.id

/-- What the unit held before each of the last landings that the core may still see undone, those of outstanding commands. -/
def lateLandings (s : State) (u : Nat) : List StaleUnit :=
  ((s.core.staging.unseen.filter fun x => x.unit == u).reverse.takeWhile fun x => (landedHere s u).contains x.id).reverse

/-- Places among the landings at which a core store may come, but for the last: before any of them. -/
def storePlaces (s : State) (u : Nat) : Nat :=
  if (lateLandings s u).isEmpty && !(landedHere s u).isEmpty then 1 else (lateLandings s u).length

/-- The unit goes on holding the core's write, which hides every landing. -/
def storeStands (old : Staging) (s : State) (u : Nat) : State :=
  (mapReplaced s u fun _ vs => vs ++ [old.held u]).mapStaging fun t => { t with unseen := t.unseen.filter fun y => !(y.unit == u) }

/-- The unit goes back to the landing it held: the core's write came before the landings from place `k` on. -/
def landingStands (old : Staging) (s : State) (u k : Nat) : State :=
  let late := (lateLandings s u).drop k
  let after := if (lateLandings s u).isEmpty then landedHere s u else late.map StaleUnit.id
  let now := s.core.staging.held u
  (mapReplaced s u fun d vs => if after.any (closedTo s.core.barge d) then vs else vs ++ [now]).mapStaging fun t =>
    { old.keepUnit t u with unseen := (t.unseen.filter fun y => !(y.unit == u)) ++ match late with
      | [] => []
      | e :: es => { e with was := now } :: es }

/-- The unit of a core store, which the state already holds, where `old` is what stood there: when outstanding commands have landed in
the unit, it ends holding the core's write or a landing of theirs, by a free choice (R213). The second part lists the units of the second
kind. -/
def settleStore (old : Staging) (r : State × List Nat) (u : Nat) : State × List Nat :=
  let n := storePlaces r.1 u
  let x := r.1.chooseAmong n (List.range n)
  if x.1 = n then (storeStands old x.2 u, r.2) else (landingStands old x.2 u x.1, u :: r.2)

/-- Put bytes into the staging of the tile checked out: a unit written in part that held an uncorrectable error merges with
unspecified bytes (R177). -/
def putStaging (s : State) (a : Nat) (bs : List Byte) (poison : Bool) : State :=
  (spoilRange s a bs.length).mapStaging fun t => t.put a bs poison

/-- A core store as its bytes become visible (R127, R175, R213, R422, R423). -/
def coreStore (s : State) (a : Nat) (bs : List Byte) (poison : Bool) : State :=
  let s := spoilRange (s.correctIf (s.core.staging.mends a bs.length)) a bs.length
  let old := s.core.staging
  let r := (unitsOf a bs.length).foldl (settleStore old) (s.mapStaging fun t => t.put a bs poison, [])
  r.1.mapStaging fun t => old.keepTags t r.2

/-! ### Reads by the barge -/

/-- The values of a unit, of those that the core's writes have replaced for command `id`. -/
def replacedFor (s : State) (id u : Nat) : List UnitValue :=
  match s.core.barge.queue.find? fun c => c.id == id with
  | some c => c.replaced u
  | none => []

/-- What the barge finds in a unit as it stands: free bytes, poisoned, where its error cannot be corrected (R10, R177). -/
def bargeHeld (s : State) (u : Nat) : UnitValue × State :=
  if tget .good s.core.staging.marks u = .uncorrectable then
    ({ value := BitVec.ofNat 64 s.takeFree.1, poison := true }, s.takeFree.2)
  else (s.core.staging.held u, s)

/-- What the barge reads of a unit of staging for a command: a write of the core since the issue may or may not be seen, by a free choice;
neither this command nor one ordered after it goes back to a value older than the one read (R208, R213). -/
def bargeUnit (s : State) (id u : Nat) : UnitValue × State :=
  let vs := replacedFor s id u
  let r := s.chooseAmong vs.length (List.range vs.length)
  let keep := vs.length - r.1
  let t := if vs.isEmpty then s
    else mapReplaced r.2 u fun d ws => if s.core.barge.follows d.id id then ws.drop (ws.length - keep) else ws
  match vs[r.1]? with
  | some v => (v, t)
  | none => bargeHeld t u

/-- What the barge reads of a list of units. -/
def bargeUnits (id : Nat) : State → List Nat → List UnitValue × State
  | s, [] => ([], s)
  | s, u :: us =>
    let r := bargeUnit s id u
    let rs := bargeUnits id r.2 us
    (r.1 :: rs.1, rs.2)

/-- `n` bytes of staging from address `a` as the barge reads them, and the units they come from. -/
def bargeBytes (s : State) (id a n : Nat) : (List Byte × List UnitValue) × State :=
  let r := bargeUnits id s (unitsOf a n)
  ((((r.1.flatMap fun x => bytesOf 8 x.value.toNat).drop (a % 8)).take n, r.1), r.2)

/-! ### A landing of the barge -/

/-- The values of a unit that each outstanding command may still read, once command `id`, for which the core had written the unit `n` times,
lands there with `was` standing and `now` new, at place `k` among those writes. -/
def replaceAt (s : State) (id u n k : Nat) (was now : UnitValue) : State :=
  mapReplaced s u fun d vs =>
    if vs.isEmpty || k + vs.length < n then vs
    else
      let m := k + vs.length + 1 - n
      let ws := vs ++ [was]
      ((if closedTo s.core.barge d id then [] else ws.take m) ++ now :: ws.drop m).dropLast

/-- The unit holds the landing of command `id`: until a wait orders it, a core read may return what the unit held. -/
def landingSeen (s : State) (x : StaleUnit) : State := s.mapStaging fun t => { t with unseen := t.unseen ++ [x] }

/-- The unit goes back to the core's write, which came after the landing. -/
def landingHidden (old : Staging) (s : State) (u : Nat) : State :=
  s.mapStaging fun t =>
    let t := old.keepUnit t u
    { t with poison := tset false t.poison (u / 4) (tget false old.poison (u / 4) || tget false t.poison (u / 4)) }

/-- The unit of a landing of command `id`, which the state already holds, where `old` is what stood there and `place` is where its bytes
stand in staging order. When the core has written the unit while the command was outstanding, the unit ends holding one of the two writes,
by a free choice of the place of the landing among them (R213). -/
def settleLanding (old : Staging) (id : Nat) (s : State) (x : Nat × Nat) : State :=
  let n := (replacedFor s id x.1).length
  let c := s.chooseAmong n (List.range n)
  let t := replaceAt c.2 id x.1 n c.1 (old.held x.1) (s.core.staging.held x.1)
  if c.1 = n then landingSeen t { unit := x.1, id := id, place := x.2, was := old.held x.1 } else landingHidden old t x.1

/-- Bytes of a command land in staging at address `a`; `wp` is the place of the first in its staging order (R177, R190, R213). -/
def landStaging (s : State) (id wp a : Nat) (bs : List Byte) : State :=
  let s := spoilRange s a bs.length
  let old := s.core.staging
  let us := (unitsOf a bs.length).zipIdx.map fun u => (u.1, wp + 8 * u.2 - a % 8)
  us.foldl (settleLanding old id) (s.mapStaging fun t => t.put a bs false)

end Sys2Proof.Machine
end

