-- ==== Sys2Proof/Machine/Operands.lean ====
section
/-! DEFINITION. Every operand form: scalar and vector sources, latches, fixed rows, predicates, accumulator rows, matrix
latches, streams and special registers, each read at issue (R58). A read gives the value and its poison tag. -/

namespace Sys2Proof.Machine

/-- The latch of slot `n` (R64). -/
def latchOf (s : State) (n : Nat) : Latch := tget {} s.core.regs.latches n

/-- A scalar register by number: s0 reads 0 (R67). -/
def readS (s : State) (n : Nat) : Scalar × Bool :=
  if n = 0 then (0, false) else (tget 0 s.core.regs.s n, tget false s.core.regs.sPoison n)

/-- A scalar source code (Table 15.1); a latch gives its bytes 0 to 7 (R64). -/
def readScalar (s : State) (c : BitVec 6) : Scalar × Bool :=
  if c.toNat < 56 then readS s c.toNat
  else ((latchOf s (c.toNat - 56)).bytes.truncate 64, (latchOf s (c.toNat - 56)).poison)

/-- The fixed rows (Table 3.3). -/
def fixedRow (c : Nat) : Row :=
  if c = 48 then 0
  else if c = 49 then BitVec.allOnes 768
  else if c = 50 then BitVec.ofNat 768 (ofElems 1 (List.range 96))
  else if c = 51 then BitVec.ofNat 768 (ofElems 2 (List.range 48))
  else if c = 52 then BitVec.ofNat 768 (ofElems 4 (List.range 24))
  else if c = 53 then BitVec.ofNat 768 (ofElems 8 (List.replicate 12 0x3FF0000000000000))
  else if c = 54 then BitVec.ofNat 768 (ofElems 4 (List.replicate 24 0x3F800000))
  else BitVec.ofNat 768 (ofElems 2 (List.replicate 48 0x3C00))

/-- A vector register by logical number (R76). -/
def readV (s : State) (n : Nat) : Row × Bool :=
  (tget 0 s.core.regs.v (physV s.core.ctl.rrb n), tget false s.core.regs.vPoison (physV s.core.ctl.rrb n))

/-- A vector source code (Table 15.1): a register, a fixed row, or a latch with all its bytes (R64, R70). -/
def readVector (s : State) (c : BitVec 6) : Row × Bool :=
  if c.toNat < 48 then readV s c.toNat
  else if c.toNat < 56 then (fixedRow c.toNat, false)
  else ((latchOf s (c.toNat - 56)).bytes, (latchOf s (c.toNat - 56)).poison)

/-- An accumulator row by physical number (R71). -/
def accRow (s : State) (r : Nat) : AccRow × Bool :=
  (tget 0 s.core.regs.acc r, tget false s.core.regs.accPoison r)

/-- Column `j` of matrix latch `l` (R115). -/
def latchColumn (s : State) (l j : Nat) : Row × Bool :=
  (tget 0 s.core.regs.m (64 * l + j), tget false s.core.regs.mPoison (64 * l + j))

/-- A stream register (R155). -/
def streamOf (s : State) (q : BitVec 3) : Stream := tget {} s.core.regs.q q.toNat

/-- The DEPTH of a mask pair (Table 3.4). -/
def maskDepth (s : State) (k : BitVec 3) : Nat := (tget 0x00400060#32 s.core.regs.mks k.toNat).toNat % 128

/-- The COLS of a mask pair (Table 3.4). -/
def maskCols (s : State) (k : BitVec 3) : Nat := (tget 0x00400060#32 s.core.regs.mks k.toNat).toNat / 2 ^ 16 % 128

/-- The address of a scalar source with an offset, and whether it is poisoned (R320, R326). -/
def stageBase (s : State) (c : BitVec 6) (off align : Nat) : Nat :=
  stageAddr ((readScalar s c).1.toNat % 2 ^ 20 + off) / align * align

/-- The completion word of a token, as its barge last wrote it (R75, Table 8.4); a token that the task has not produced reads
as pending, all zero (Table 3.5). -/
def tokenWord (s : State) (k : Nat) : BitVec 64 :=
  let b := s.core.barge
  match tget 0 b.issuedBy k with
  | 0 => 0
  | i + 1 => tget 0 b.words i

/-- A special register as `MFS` reads it (Table 3.5): zero-extended, as it stands at issue. -/
def readSpecial (s : State) (n : Nat) : Scalar :=
  let c := s.core.ctl
  let t := s.core.task
  if n = 0x00 then BitVec.ofNat 64 c.cyc
  else if n = 0x01 then BitVec.ofNat 64 (tileX s.cur)
  else if n = 0x02 then BitVec.ofNat 64 (tileY s.cur)
  else if n = 0x03 then BitVec.ofNat 64 t.gid
  else if n = 0x04 then BitVec.ofNat 64 t.tix
  else if n = 0x08 then c.lc.zeroExtend 64
  else if n = 0x09 then c.rrb.zeroExtend 64
  else if n = 0x0A then c.awb.zeroExtend 64
  else if n = 0x0C then BitVec.ofNat 64 t.vpb
  else if n = 0x0D then BitVec.ofNat 64 t.vpl
  else if n = 0x0E then BitVec.ofNat 64 (s.grade (quadrantOf s.cur))
  else if n = 0x0F then BitVec.ofNat 64 (s.job t.pasid).gen
  else if n = 0x10 then c.fflg.zeroExtend 64
  else if n = 0x11 then c.sgsc.zeroExtend 64
  else if n = 0x12 then c.sgsh.zeroExtend 64
  else if n < 0x28 then (tget 0x00400060#32 s.core.regs.mks (n - 0x20)).zeroExtend 64
  else tokenWord s (n - 0x40)

end Sys2Proof.Machine
end

