-- ==== Sys2Proof/Machine/Flags.lean ====
section
/-! DEFINITION. The six sticky flags of FFLG (Table 3.6) and the flags of a list of element results. -/

namespace Sys2Proof.Machine

/-- The union of the flags that elements raise (R101, R429). -/
def allFlags : List (Nat × Flags) → Flags
  | [] => 0
  | (_, f) :: xs => f ||| allFlags xs

/-- Set flags in FFLG: they are sticky (R74, R101). -/
def setFlags (s : State) (f : Flags) : State := s.mapCtl fun c => { c with fflg := c.fflg ||| f }

/-- `MTS` to FFLG: each bit written as 1 is cleared (R73, R387). -/
def clearFlags (s : State) (x : Scalar) : State :=
  s.mapCtl fun c => { c with fflg := c.fflg &&& ~~~(x.truncate 6) }

end Sys2Proof.Machine
end

