-- ==== Sys2Proof/Machine/Land.lean ====
section
/-! DEFINITION. Results reaching their readable cycle (R58, R64): registers, latches, accumulators, stores, special registers. -/

namespace Sys2Proof.Machine

/-! ### The matrix beat (R119) -/

/-- K of an input format, by its place in Table 5.1. -/
def beatK (f : Nat) : Nat :=
  if f = 0 then 12 else if f = 1 then 24 else if f < 4 then 48 else 96

/-- N of an input format (Table 5.1). -/
def beatN (f : Nat) : Nat := if f = 0 then 32 else 64

/-- The width of an input element in bytes. -/
def beatWidth (f : Nat) : Nat :=
  if f = 0 then 8 else if f = 1 then 4 else if f < 4 then 2 else 1

/-- The width of an accumulator element in bytes. -/
def accWidth (f : Nat) : Nat := if f = 0 then 8 else 4

/-- The accumulator format of a floating-point input format: f64 for f64, otherwise f32 (Table 5.1). -/
def accFmt (f : Nat) : Fmt := if f = 0 then fmtOf 0 else fmtOf 1

/-- Pairs of the first `d` elements of two lists. -/
def firstPairs (d : Nat) (a b : List Nat) : List (Nat × Nat) := (a.zip b).take d

/-- One column of a beat: the accumulator element `old` unless the beat is fresh, plus the first `d` products, rounded once
(R102, R103), or wrapped for an integer format (R104). -/
def beatColumn (f rm : Nat) (fresh : Bool) (old : Nat) (d : Nat) (a b : List Nat) : Nat × Flags :=
  if 6 ≤ f then
    let signed := decide (f = 6)
    let sum := (firstPairs d a b).foldl (fun (t : Int) (p : Nat × Nat) => t + readInt signed 8 p.1 * readInt signed 8 p.2) 0
    (wrapInt 32 ((if fresh then 0 else toSigned 32 old) + sum), 0)
  else if fresh && d == 0 then (0, 0)
  else
    let g := fmtOf f
    let products := (firstPairs d a b).map fun p => [(g, p.1), (g, p.2)]
    exactRound (accFmt f) rm (if fresh then products else [(accFmt f, old)] :: products)

/-- The columns of a beat. -/
def beatColumns (b : Beat) (old : Nat) : Nat → List Row → List (Nat × Flags)
  | _, [] => []
  | j, col :: cols =>
    let w := beatWidth b.fmt
    let k := beatK b.fmt
    beatColumn b.fmt b.rm.toNat b.fresh (elemAt (accWidth b.fmt) old j) b.depth (elems w k b.a.toNat) (elems w k col.toNat) ::
      beatColumns b old (j + 1) cols

/-- The accumulator row and the flags that a beat leaves: the first columns are new, the rest stand (R119). -/
def beatRow (b : Beat) (old : AccRow) : AccRow × Flags :=
  let w := accWidth b.fmt
  let n := beatN b.fmt
  let new := beatColumns b old.toNat 0 b.latch
  let rest := (elems w n old.toNat).drop new.length
  (BitVec.ofNat 2048 (ofElems w (new.map Prod.fst ++ rest)), allFlags new)

/-- The poison tag of the row after a beat (R122). -/
def beatPoison (b : Beat) (old : Bool) : Bool :=
  if 0 < b.depth && 0 < b.cols && b.poison then true
  else if b.fresh && b.cols == beatN b.fmt && !b.poison then false
  else old

/-- Write an accumulator row and its tag. -/
def setAcc (r : Regs) (n : Nat) (x : AccRow) (poison : Bool) : Regs :=
  { r with acc := tset 0 r.acc n x, accPoison := tset false r.accPoison n poison }

/-- A write of a whole accumulator row renews its check bits (R295). -/
def renewAcc (r : Regs) (n : Nat) : Regs := { r with accMark := tset .good r.accMark n .good }

/-- A read of accumulator row `n`: an error that can be corrected raises the verdict, one that cannot sets the row's poison tag
(R293, R295). -/
def meetAcc (s : State) (n : Nat) : State :=
  match tget .good s.core.regs.accMark n with
  | .good => s
  | .correctable => s.raise .corrected
  | .uncorrectable | .poisoned => s.mapRegs fun r => { r with accPoison := tset false r.accPoison n true }

/-- Does a beat read its accumulator row: not when it is fresh, nor when it has no column (R119, R293)? -/
def Beat.reads (b : Beat) : Bool := !b.fresh && decide (0 < b.cols)

/-- A beat at its issue cycle + 6: its accumulator term is the row as every earlier result left it (R120). With no column the row
stands (R119). -/
def landBeat (s : State) (b : Beat) : State :=
  let s := if b.reads then meetAcc s b.row else s
  let old := accRow s b.row
  let new := beatRow b old.1
  let s := s.mapRegs fun r => if b.cols = 0 then { r with accPoison := tset false r.accPoison b.row (beatPoison b old.2) }
    else setAcc r b.row new.1 (beatPoison b old.2)
  let s := if b.cols = beatN b.fmt then s.mapRegs fun r => renewAcc r b.row else s
  setFlags s (new.2 ||| b.flags)

/-! ### One result -/

/-- A result in its slot's latch: the mark and the kind always, the contents only under a true predicate (R64). -/
def landLatch (r : Regs) (n : Nat) (vec on : Bool) (x : Row) (poison : Bool) : Regs :=
  let l := tget {} r.latches n
  let l' : Latch :=
    { bytes := if on then x else l.bytes, valid := true, vec := vec, poison := if on then poison else l.poison }
  { r with latches := tset {} r.latches n l' }

/-- The special registers written at the end of a bundle: those of `MTS`, `LOOP` and `LOOPR` by number (Table 3.5), 0x100 the
close of a segment, 0x101 the mark of `TRIG`, 0x102 the end of the task. -/
def landSpecial (s : State) (n : Nat) (x : Scalar) : State :=
  if n = 0x08 then s.mapCtl fun c => { c with lc := x.truncate 32 }
  else if n = 0x09 then s.mapCtl fun c => { c with rrb := x.truncate 4 }
  else if n = 0x0A then s.mapCtl fun c => { c with awb := x.truncate 11 }
  else if n = 0x10 then clearFlags s x
  else if n = 0x100 then s.mapCtl fun c => { c with inseg := false }
  else if n = 0x101 then
    if s.core.task.trig then s else s.mapTask fun t => { t with trig := true, trigBound := s.core.barge.nextId }
  else if n = 0x102 then s.mapCtl fun c => { c with status := .ended }
  else s.mapRegs fun r => { r with mks := tset 0x00400060#32 r.mks (n - 0x20) (x.truncate 32 &&& 0x007F007F#32) }

/-- What a result does on its readable cycle. -/
def landEffect (s : State) : Effect → State
  | .scalar d x p => s.mapRegs fun r =>
    { r with s := tset 0 r.s d x, sPoison := tset false r.sPoison d p, sBad := tset false r.sBad d false }
  | .vector d x p => s.mapRegs fun r =>
    { r with v := tset 0 r.v d x, vPoison := tset false r.vPoison d p, vBad := tset false r.vBad d false }
  | .pred n b => s.mapRegs fun r => { r with p := tset false r.p n b }
  | .flags f => setFlags s f
  | .latch n vec on x p => s.mapRegs fun r => landLatch r n vec on x p
  | .column l j x p => s.mapRegs fun r =>
    { r with m := tset 0 r.m (64 * l + j) x, mPoison := tset false r.mPoison (64 * l + j) p,
             mBad := tset false r.mBad (64 * l + j) false }
  | .hadamard l cols => s.mapRegs fun r =>
    { r with m := tsetList 0 id (64 * l) cols r.m, mPoison := tclear r.mPoison (64 * l) (64 * l + 64),
             mBad := tclear r.mBad (64 * l) (64 * l + 64) }
  | .beat b => landBeat s b
  | .zeroRow n => s.mapRegs fun r => renewAcc (setAcc r n 0 false) n
  | .stream q x => s.mapRegs fun r => { r with q := tset {} r.q q x }
  | .store a bs p => coreStore s a bs p
  | .special n x => landSpecial s n x

/-- Does a result write a special register? -/
def Result.isSpecial (r : Result) : Bool :=
  match r.eff with
  | .special _ _ => true
  | _ => false

/-- Land a list of results in order. -/
def landList (s : State) (rs : List Result) : State := rs.foldl (fun s r => landEffect s r.eff) s

/-- Every result whose readable cycle has come: special registers first, so that a flag raised on the cycle on which an `MTS`
takes effect stays set (R74), then the rest in issue order (R62, R64). -/
def land (s : State) : State :=
  let rs := s.core.results.filter fun r => decide (r.ready ≤ s.core.ctl.cyc)
  let s := s.mapCore fun t => { t with results := t.results.filter fun r => !decide (r.ready ≤ t.ctl.cyc) }
  landList (landList s (rs.filter Result.isSpecial)) (rs.filter fun r => !r.isSpecial)

/-- A result in flight. -/
def State.push (s : State) (r : Result) : State := s.mapCore fun t => { t with results := t.results ++ [r] }

/-- A result readable `lat` cycles after this bundle (R58). -/
def State.after (s : State) (lat : Nat) (e : Effect) : State := s.push { ready := s.core.ctl.cyc + lat, eff := e }

/-- Every result in flight of an ended task, in the order of their readable cycles: the `k`-th round lands those that are due
within `k` cycles of the end (R372). -/
def landRest : Nat → Nat → State → State
  | 0, _, s => s
  | n + 1, at_, s =>
    match s.core.results with
    | [] => s
    | _ :: _ => landRest n (at_ + 1) (land (s.mapCtl fun c => { c with cyc := at_ }))

/-- The longest time a result stays in flight, in cycles: that of `MHAD` (R84). -/
def longestFlight : Nat := 66

/-- Land every result of an ended task, leaving CYC as it stands. -/
def landAll (s : State) : State :=
  (landRest longestFlight (s.core.ctl.cyc + 1) s).mapCtl fun c => { c with cyc := s.core.ctl.cyc }

end Sys2Proof.Machine
end

