-- ==== Sys2Proof/Machine/Vault.lean ====
section
/-! DEFINITION. The vault: bank state machine (Table 6.3), columns, the row generation map and clones (R231 to R233). -/

namespace Sys2Proof.Machine

/-- Put a bank of the tile checked out. -/
def setBank (s : State) (n : Nat) (b : Bank) : State := s.mapVault fun v => { v with banks := tset {} v.banks n b }

/-- Put a channel of the tile checked out. -/
def setChannel (s : State) (n : Nat) (c : Channel) : State := s.mapVault fun v => { v with channels := tset {} v.channels n c }

/-- The number of a bank: 16 · channel + bank (R143). -/
def bankNo (c : BitVec 2) (b : BitVec 4) : Nat := 16 * c.toNat + b.toNat

/-- The banks of a channel. -/
def banksOf (c : Nat) : List Nat := (List.range 16).map fun b => 16 * c + b

/-! ### Conditions of Table 6.3: has the counter reached 0 by this clock? -/

/-- A counter reads 0. -/
def ready (s : State) (t : Nat) : Bool := decide (t ≤ s.clock)

/-- A FAW slot of the channel reads 0. -/
def freeSlot (s : State) (c : Channel) : Bool := ready s c.faw0 || ready s c.faw1 || ready s c.faw2 || ready s c.faw3

/-- `ACT`, `ACTW` and `REFB` (Table 6.3). -/
def canActivate (s : State) (n : Nat) : Bool :=
  let b := bankOf s n
  let c := channelOf s (n / 16)
  b.modeAt s.clock == .idle && ready s b.actAt && ready s c.rrdAt && freeSlot s c

/-- `RD` (Table 6.3). -/
def canRead (s : State) (n : Nat) : Bool :=
  let b := bankOf s n
  let c := channelOf s (n / 16)
  b.modeAt s.clock == .active && ready s b.colAt && ready s c.ccdAt && ready s c.wtrAt

/-- `WR` (Table 6.3). -/
def canWrite (s : State) (n : Nat) : Bool :=
  let b := bankOf s n
  let c := channelOf s (n / 16)
  b.modeAt s.clock == .active && b.intent && ready s b.colAt && ready s c.ccdAt && ready s c.rtwAt

/-- `PRE` (Table 6.3). -/
def canPrecharge (s : State) (n : Nat) : Bool :=
  let b := bankOf s n
  match b.modeAt s.clock with
  | .idle => true
  | .active => ready s b.preAt
  | .refreshing => false

/-- `PREA` (Table 6.3): no bank refreshing, every active bank ready. -/
def canPrechargeAll (s : State) (c : Nat) : Bool := (banksOf c).all fun n => canPrecharge s n

/-- `REF` (Table 6.3). -/
def canRefreshAll (s : State) (c : Nat) : Bool :=
  (banksOf c).all (fun n => (bankOf s n).modeAt s.clock == .idle && ready s (bankOf s n).actAt) && ready s (channelOf s c).ccdAt

/-! ### Effects of Table 6.3 -/

/-- Occupy the lowest-numbered free FAW slot for 32 cycles (R135). -/
def takeSlot (s : State) (c : Channel) : Channel :=
  if ready s c.faw0 then { c with faw0 := s.clock + 32 }
  else if ready s c.faw1 then { c with faw1 := s.clock + 32 }
  else if ready s c.faw2 then { c with faw2 := s.clock + 32 }
  else { c with faw3 := s.clock + 32 }

/-- The channel side of an activate or a bank refresh. -/
def activateChannel (s : State) (n : Nat) : State :=
  setChannel s (n / 16) { takeSlot s (channelOf s (n / 16)) with rrdAt := s.clock + 4 }

/-- `ACT` (`intent` false) and `ACTW` (`intent` true): the effect on bank state. -/
def activateBank (s : State) (n row : Nat) (intent : Bool) : State :=
  let b := bankOf s n
  activateChannel (setBank s n { b with
    mode := .active, row := row, intent := intent,
    colAt := s.clock + (if intent then 72 else 30), preAt := s.clock + (if intent then 110 else 68) }) n

/-- `RD`: the effect on bank state. -/
def readBank (s : State) (n : Nat) : State :=
  let b := bankOf s n
  let c := channelOf s (n / 16)
  setChannel (setBank s n { b with preAt := max b.preAt (s.clock + 8) }) (n / 16)
    { c with ccdAt := s.clock + 2, rtwAt := s.clock + 12 }

/-- `WR`: the effect on bank state. -/
def writeBank (s : State) (n : Nat) : State :=
  let b := bankOf s n
  let c := channelOf s (n / 16)
  setChannel (setBank s n { b with preAt := max b.preAt (s.clock + 32) }) (n / 16)
    { c with ccdAt := s.clock + 2, wtrAt := s.clock + 16 }

/-- `PRE`: an active bank goes idle, tRP follows; an idle bank stays as it is. -/
def prechargeBank (s : State) (n : Nat) : State :=
  let b := bankOf s n
  if b.modeAt s.clock = .active then setBank s n { b with mode := .idle, actAt := s.clock + 30 } else s

/-- A refresh of one bank with its recovery time: DEBT falls by one unless it is 0 (R146). -/
def refreshBank (s : State) (n time : Nat) : State :=
  let b := bankOf s n
  setBank s n { b with mode := .refreshing, actAt := s.clock + time, debt := b.debt - 1 }

/-- Do `f` for each number of a list. -/
def forEach (s : State) (f : State → Nat → State) (ns : List Nat) : State := ns.foldl f s

/-- Is every bank of the tile Idle with ACTRDY 0 (R151, R234)? -/
def banksIdle (s : State) : Bool :=
  (List.range 64).all fun n => (bankOf s n).modeAt s.clock == .idle && ready s (bankOf s n).actAt

/-! ### Columns (R131, R145) -/

/-- A row of a bank: bank · 32,768 + row. -/
def rowKey (n row : Nat) : Nat := n * 32768 + row

/-- The key of a column: sixteen to a row. -/
def columnKey (n row col : Nat) : Nat := 16 * rowKey n row + col

/-- The 96 bytes of a column. -/
def column (v : Vault) (k : Nat) : List Byte := readBytes v.cells (96 * k) 96

/-- Put the 96 bytes of a column with fresh check bytes, or with the poison syndrome (R145). -/
def setColumn (v : Vault) (k : Nat) (x : Row) (poison : Bool) : Vault :=
  { v with cells := writeBytes v.cells (96 * k) (bytesOf 96 x.toNat),
           marks := tset .good v.marks k (if poison then .poisoned else .good) }

/-- The channel of a column. -/
def columnChannel (k : Nat) : Nat := k / (16 * 32768 * 16)

/-- What a read of a column with mark `m` meets: the mark, and, while a lane of its channel fails, an error that the read corrects
or poisons by a free choice (R145, R154). Which reads pass over the lane is not stated. DESIGN CHOICE (log entry 30): each may. -/
def laneMark (s : State) (ch : Nat) (m : Mark) : Mark × State :=
  if tget false s.core.vault.lanes ch && (m == .good || m == .correctable) then s.chooseAmong m [.correctable, .uncorrectable]
  else (m, s)

/-- What a read of a column meets. -/
def columnMark (s : State) (k : Nat) : Mark × State := laneMark s (columnChannel k) (tget .good s.core.vault.marks k)

/-- What `RD` delivers of a column: its bytes, free bytes where an error cannot be corrected or the column was written poisoned,
and its poison (R145, R398). A correction raises the verdict and counts towards the repair of a lane (R153). -/
def loadColumn (s : State) (k : Nat) : (Row × Bool) × State :=
  let x : Row := BitVec.ofNat 768 (ofBytes (column s.core.vault k))
  let m := columnMark s k
  match m.1 with
  | .good => ((x, false), m.2)
  | .correctable => ((x, false), (m.2.raise .corrected).mapVault fun v => { v with corrections := v.corrections + 1 })
  | .uncorrectable | .poisoned => ((BitVec.ofNat 768 m.2.takeFree.1, true), m.2.takeFree.2)

/-- The platform controller marks a lane of a channel for repair when its corrected-error count crosses its threshold, which the
manual does not give: a free choice at each correction (R153; log entry 30). -/
def markLane (s : State) (old ch : Nat) : State :=
  if s.core.vault.corrections = old then s
  else
    let c := s.choose true false
    c.2.mapVault fun v => { v with lanes := tset false v.lanes ch (tget false v.lanes ch || c.1) }

/-! ### Clones (R231, R232) -/

/-- The row generation map entry of a row. -/
def rowGen (s : State) (n row : Nat) : RowGen := tget {} s.core.vault.rows (rowKey n row)

/-- Is a row of a job's partition on a tile undrained, D = 0: its newest generation still drains, has an image of the tile, and
the row has not been copied since the cut (R231)? -/
def undrained (j : Job) (tile : Nat) (g : RowGen) : Bool :=
  decide (g.dgen < j.cuts) && decide (j.rowsClean < j.cuts) &&
    match j.gens with
    | x :: _ => decide (x.state = .draining) && x.images.any fun im => im.1 == tile
    | [] => false

/-- D of a row of the task checked out. -/
def drainedRow (s : State) (n row : Nat) : Bool := !undrained (s.job s.core.task.pasid) s.cur (rowGen s n row)

/-- The spare indices in use in a bank. -/
def sparesUsed (v : Vault) (n : Nat) : List Nat :=
  (v.rows.filter fun x => x.1 / 32768 == n && x.2.cloned).map fun x => x.2.spare

/-- Free spare rows of a bank (R131). -/
def freeSpares (s : State) (n : Nat) : Nat := Config.spareRows - (sparesUsed s.core.vault n).length

/-- The lowest spare index that a list does not hold. -/
def lowestFree (used : List Nat) : Nat → Nat → Nat
  | 0, k => k
  | n + 1, k => if used.contains k then lowestFree used n (k + 1) else k

/-- The spare threshold of a gang (R233). -/
def spareThreshold (pad : Nat) : Nat := 2 + (15 + pad) / 140

/-- The key of a spare row. -/
def spareKey (n spare : Nat) : Nat := 4096 * n + spare

/-- Clone a row into a free spare row, and request the spare-exhaustion hold when too few are left (R232, R233). It is the lowest one that
is free: DESIGN CHOICE (log entry 46). -/
def cloneRow (s : State) (n row : Nat) : State :=
  let v := s.core.vault
  let used := sparesUsed v n
  let k := lowestFree used (used.length + 1) 0
  let cols := (List.range 16).map fun c => columnKey n row c
  let image : BitVec 12288 := BitVec.ofNat 12288 (ofElems 96 (cols.map fun q => ofBytes (column v q)))
  let g := rowGen s n row
  let s := s.mapVault fun v => { v with
    rows := tset {} v.rows (rowKey n row) { g with cloned := true, spare := k },
    spares := tset 0 v.spares (spareKey n k) image,
    spareMarks := tsetList .good id (16 * spareKey n k) (cols.map fun q => tget .good v.marks q) v.spareMarks }
  let gid := s.core.task.gid
  if freeSpares s n < spareThreshold (s.gang gid).pad then
    (s.mapVault fun v => { v with
      exhausted := if v.exhausted.contains n then v.exhausted else v.exhausted ++ [n],
      exhaustedAt := if v.exhausted.isEmpty then s.clock else v.exhaustedAt }).requestHold gid .spare
  else s

/-- An activate with intent clones an undrained row that has no clone (R232). -/
def cloneIfNeeded (s : State) (n row : Nat) : State :=
  if drainedRow s n row || (rowGen s n row).cloned then s else cloneRow s n row

/-- `ACT` or `ACTW` of a row, with the clone rule (R348). -/
def activate (s : State) (n row : Nat) (intent : Bool) : State :=
  let s := activateBank s n row intent
  if intent then cloneIfNeeded s n row else s

end Sys2Proof.Machine
end

