-- ==== Sys2Proof/Machine/Canal.lean ====
section
/-! DEFINITION. The canal mesh: route entries, the hop of a row, the conflict tests and receive latches (R240 to R247). -/

namespace Sys2Proof.Machine

/-! ### Route entries (Table 11.1) -/

/-- V of an entry. -/
def routeV (e : BitVec 64) : Bool := e.getLsbD 15

/-- IN of an entry. -/
def routeIn (e : BitVec 64) : Nat := bits e.toNat 14 12

/-- Does OUT name side `k`: 0 north, 1 east, 2 south, 3 west? -/
def routeOut (e : BitVec 64) (k : Nat) : Bool := e.getLsbD (8 + k)

/-- DLV of an entry. -/
def routeDlv (e : BitVec 64) : Bool := e.getLsbD 7

/-- LATCH of an entry. -/
def routeLatch (e : BitVec 64) : Nat := bits e.toNat 6 5

/-- A valid entry with a nonzero reserved field or an IN of 5 to 7 (R244). -/
def routeMalformed (e : BitVec 64) : Bool :=
  routeV e && (decide (e.toNat / 2 ^ 16 ≠ 0) || decide (e.toNat % 32 ≠ 0) || decide (5 ≤ routeIn e))

/-! ### The mesh -/

/-- The neighbour of a tile on a side, on the grid. -/
def neighbour (n k : Nat) : Option Nat :=
  if k = 0 then (if 16 ≤ n then some (n - 16) else none)
  else if k = 1 then (if n % 16 < 15 then some (n + 1) else none)
  else if k = 2 then (if n < 240 then some (n + 16) else none)
  else (if 0 < n % 16 then some (n - 1) else none)

/-- The input by which a row that left by side `k` arrives: 1 north, 2 east, 3 south, 4 west. -/
def arrivalInput (k : Nat) : Nat := (k + 2) % 4 + 1

/-- The cycles of a hop: 2 inside a quadrant, 6 across a boundary (R240). -/
def hopCycles (a b : Nat) : Nat := if quadrantOf a = quadrantOf b then 2 else 6

/-- A live lock crossing of an edge tile on a side, used by a gang: one that spans packages (R25, R242, R248). -/
def crossingOf (s : State) (gid n k : Nat) : Bool :=
  decide (0 < (s.gang gid).pkg) && s.fabric.crossings.any fun c => c.2.live && c.2.tile == n && c.2.side == k

/-- Would a row that leaves tile `n` by side `k` stay in its gang, or cross by a lock crossing (R242)? -/
def sideContinues (s : State) (gid n k : Nat) : Bool :=
  match neighbour n k with
  | some m => (s.gang gid).tiles.contains m || crossingOf s gid n k
  | none => crossingOf s gid n k

/-- Two valid entries claim one output or one latch: a row whose entry has V = 0 leaves on no output (R242). A row that enters by another
input than its entry's IN, and so conflicts already, claims its outputs and its latch all the same: DESIGN CHOICE (log entry 71). -/
def entriesMeet (a b : BitVec 64) : Bool :=
  routeV a && routeV b && ((List.range 4).any (fun k => routeOut a k && routeOut b k) || (routeDlv a && routeDlv b && routeLatch a == routeLatch b))

/-- An entry that cannot carry a row that arrives by an input: invalid, another input, or leaving the gang (R242). -/
def entryFails (s : State) (gid n : Nat) (e : BitVec 64) (input : Nat) : Bool :=
  !routeV e || routeIn e != input || (List.range 4).any fun k => routeOut e k && !sideContinues s gid n k

/-- Rows of the gang that enter the router of the tile checked out, numbered `n`, on a clock cycle. -/
def entering (s : State) (n t : Nat) : List Flight :=
  s.flights.filter fun f => f.tile == n && f.enters == t && f.gid == s.core.task.gid

/-- Is a row in a conflict with the entry of its route, or with another row that enters with it (R242)? -/
def rowConflicts (s : State) (n : Nat) (routes : Table (BitVec 64)) (fs : List Flight) (f : Flight) : Bool :=
  let e := tget 0 routes f.route
  entryFails s f.gid n e f.input || (fs.filter fun g => !(g == f)).any fun g => entriesMeet e (tget 0 routes g.route)

/-- The row a `SEND` would inject conflicts: it would leave the gang, or meet a row that enters on the same cycle (R242). -/
def sendConflicts (s : State) (route : Nat) : Bool :=
  let n := s.cur
  let routes := s.core.canal.routes
  let e := tget 0 routes route
  entryFails s s.core.task.gid n e 0 ||
    (entering s n (s.clock + 1)).any fun g => entriesMeet e (tget 0 routes g.route)

/-- The route table in force at the tile checked out on this clock cycle: the old one to the end of the cycle of a `CROUTE` (R242, R244). -/
def routesNow (s : State) : Table (BitVec 64) :=
  match s.core.canal.old with
  | some o => if o.1 = s.clock then o.2 else s.core.canal.routes
  | none => s.core.canal.routes

/-- The rows in conflict by the early test of this clock cycle at the tile checked out, which uses the table in force on it (R242). -/
def earlyRows (s : State) : List Flight :=
  let fs := entering s s.cur (s.clock + 1)
  fs.filter (rowConflicts s s.cur (routesNow s) fs)

/-- Does the early test of this clock cycle find a row in conflict at the tile checked out? -/
def earlyConflict (s : State) : Bool := !(earlyRows s).isEmpty

/-- Discard the rows that the early test of the tile checked out finds (R242). -/
def discardConflicts (s : State) : State :=
  let bad := earlyRows s
  if bad.isEmpty then s else { s with flights := s.flights.filter fun f => !(bad.contains f) }

/-- Was a conflict found by the second test on this clock cycle at the tile checked out (R242)? -/
def lateConflict (s : State) : Bool := s.core.canal.conflictAt == some s.clock

/-! ### Receive latches -/

/-- Rows of a receive latch, oldest first. -/
def heldRows (s : State) (l : Nat) : List Held := tget [] s.core.canal.latches l

/-- Does a latch overrun on this cycle (R247): its oldest row has stood for five cycles, or a further row was delivered and no
`RECV` of the latch issues on this cycle? -/
def overruns (s : State) (l : Nat) (taken : Bool) : Bool :=
  let hs := heldRows s l
  match hs with
  | [] => false
  | h :: _ => decide (h.since + 5 ≤ s.clock) || (decide (2 ≤ hs.length) && !taken)

/-- An overrun of the tile checked out, given the latches that its bundle takes rows from. -/
def anyOverrun (s : State) (taken : List Nat) : Bool := (List.range 4).any fun l => overruns s l (taken.contains l)

/-- Take the oldest row of a latch (R246). -/
def takeRow (s : State) (l : Nat) : State :=
  s.mapCanal fun c => { c with latches := tset [] c.latches l ((tget [] c.latches l).drop 1) }

/-- Deliver a row to a latch of the tile checked out: an ended task's tile discards it and the launch is tainted (R373). -/
def deliver (s : State) (f : Flight) (l : Nat) : State :=
  if s.core.ctl.status = .ended then s.mapGang s.core.task.gid fun g => { g with tainted := true }
  else
    let h : Held := { row := f.row, poison := f.poison, since := s.clock }
    (s.correctIf f.corrected).mapCanal fun c => { c with latches := tset [] c.latches l (tget [] c.latches l ++ [h]) }

/-- The rows that leave a router for its neighbours (R240). A row over a lock crossing leaves the package. -/
def forwards (n t : Nat) (e : BitVec 64) (f : Flight) : List Flight :=
  (List.range 4).filterMap fun k =>
    if routeOut e k then
      (neighbour n k).map fun m => { f with tile := m, input := arrivalInput k, enters := t + hopCycles n m }
    else none

/-- What the check bits of a row find as it enters a router: an error that they correct is noted for the receiving task, one that
they cannot poisons the row (R240). -/
def Flight.checked (f : Flight) : Flight :=
  match f.mark with
  | .good => f
  | .correctable => { f with corrected := true, mark := .good }
  | .uncorrectable | .poisoned => { f with poison := true, mark := .good }

/-- One row enters the router of the tile checked out: it is checked, forwarded and delivered. -/
def enterRouter (s : State) (x : Flight) : State :=
  let f := x.checked
  let e := tget 0 s.core.canal.routes f.route
  let on := (forwards s.cur s.clock e f).filter fun g => (s.gang f.gid).tiles.contains g.tile
  let s := { s with flights := s.flights ++ on }
  if routeDlv e then deliver s f (routeLatch e) else s

/-- Every row that enters the router of the tile checked out on this clock cycle. After a `CROUTE` on the cycle before, the
test is made again against the new table, and rows in conflict are discarded (R242). -/
def arrive (s : State) : State :=
  let fs := entering s s.cur s.clock
  let again := match s.core.canal.old with
    | some o => decide (o.1 + 1 = s.clock)
    | none => false
  let bad := if again then fs.filter (rowConflicts s s.cur s.core.canal.routes fs) else []
  let s := { s with flights := s.flights.filter fun f => !(fs.contains f) }
  let s := if bad.isEmpty then s
    else if s.core.ctl.status = .ended then s.mapGang s.core.task.gid fun g => { g with tainted := true }
    else s.mapCanal fun c => { c with conflictAt := some s.clock }
  (fs.filter fun f => !(bad.contains f)).foldl enterRouter s

end Sys2Proof.Machine
end

