-- ==== Sys2Proof/Machine/Check.lean ====
section
/-! DEFINITION. What each slot word reads, writes and occupies, and the checks a bundle passes before any slot takes effect
(R81, Table 3.8). -/

namespace Sys2Proof.Machine

/-! ### The use of a word -/

/-- Where the result of a word goes, as its fields name it. -/
inductive Dest where
  | none
  | scalar (d : BitVec 6)
  | vector (d : BitVec 6)
  | pred (d : BitVec 3)
  | rows (o : BitVec 8) (count : Nat)
  | column (l : BitVec 2) (j : BitVec 6)
  | hadamard (l : BitVec 2)
  | stream (q : BitVec 3)
  | special (n : BitVec 8)
  | loop
  | loopr
  deriving DecidableEq, Repr

/-- A physical place that at most one result may reach on one cycle (R62). -/
inductive Target where
  | scalar (n : Nat)
  | vector (n : Nat)
  | pred (n : Nat)
  | row (n : Nat)
  | column (n : Nat)
  | stream (n : Nat)
  | special (n : Nat)
  deriving DecidableEq, Repr

/-- The use of a slot word: its slot and predicate field, its scalar and vector sources, its destination, its latency (R83,
R84), its occupancy (R61), and, where it writes its slot's latch (R65), whether the result is a vector. -/
structure Use where
  slot : Slot
  pr : BitVec 3
  scalars : List (BitVec 6) := []
  vectors : List (BitVec 6) := []
  dest : Dest := .none
  lat : Nat := 1
  beats : Nat := 1
  latch : Option Bool := none
  deriving DecidableEq, Repr

/-- The slot of a vector engine. -/
def vslot : VSlot → Slot
  | .v0 => .v0
  | .v1 => .v1

/-- The use of each slot word; an event and the NOP have none. -/
def useOf : Instr → Option Use
  | .br _ p => some { slot := .c, pr := p }
  | .brp _ _ p => some { slot := .c, pr := p }
  | .call _ p => some { slot := .c, pr := p }
  | .ret p => some { slot := .c, pr := p }
  | .loop _ p => some { slot := .c, pr := p, dest := .loop }
  | .loopr _ _ _ p => some { slot := .c, pr := p, dest := .loopr }
  | .waitb _ _ p => some { slot := .c, pr := p }
  | .arrb _ _ p => some { slot := .c, pr := p }
  | .waitt _ p => some { slot := .c, pr := p }
  | .waitp _ s p => some { slot := .c, pr := p, scalars := [s] }
  | .trig p => some { slot := .c, pr := p }
  | .endTask p => some { slot := .c, pr := p }
  | .seg e g _ p => some { slot := .c, pr := p, scalars := [e, g] }
  | .sege p => some { slot := .c, pr := p }
  | .ifence p => some { slot := .c, pr := p }
  | .snap p => some { slot := .c, pr := p }
  | .genq d a p => some { slot := .c, pr := p, scalars := [a], dest := .scalar d, lat := 2, latch := some false }
  | .brk _ p => some { slot := .c, pr := p }
  | .trap _ p => some { slot := .c, pr := p }
  | .pand d _ _ p => some { slot := .c, pr := p, dest := .pred d }
  | .por d _ _ p => some { slot := .c, pr := p, dest := .pred d }
  | .pxor d _ _ p => some { slot := .c, pr := p, dest := .pred d }
  | .pnot d _ p => some { slot := .c, pr := p, dest := .pred d }
  | .add d a b p => some { slot := .a, pr := p, scalars := [a, b], dest := .scalar d, latch := some false }
  | .sub d a b p => some { slot := .a, pr := p, scalars := [a, b], dest := .scalar d, latch := some false }
  | .andS d a b p => some { slot := .a, pr := p, scalars := [a, b], dest := .scalar d, latch := some false }
  | .orS d a b p => some { slot := .a, pr := p, scalars := [a, b], dest := .scalar d, latch := some false }
  | .xorS d a b p => some { slot := .a, pr := p, scalars := [a, b], dest := .scalar d, latch := some false }
  | .shl d a b p => some { slot := .a, pr := p, scalars := [a, b], dest := .scalar d, latch := some false }
  | .shr d a b p => some { slot := .a, pr := p, scalars := [a, b], dest := .scalar d, latch := some false }
  | .sra d a b p => some { slot := .a, pr := p, scalars := [a, b], dest := .scalar d, latch := some false }
  | .mul d a b p => some { slot := .a, pr := p, scalars := [a, b], dest := .scalar d, latch := some false, lat := 3 }
  | .mulh d a b p => some { slot := .a, pr := p, scalars := [a, b], dest := .scalar d, latch := some false, lat := 3 }
  | .mulhu d a b p => some { slot := .a, pr := p, scalars := [a, b], dest := .scalar d, latch := some false, lat := 3 }
  | .maxS d a b _ p => some { slot := .a, pr := p, scalars := [a, b], dest := .scalar d, latch := some false }
  | .minS d a b _ p => some { slot := .a, pr := p, scalars := [a, b], dest := .scalar d, latch := some false }
  | .clz d a p => some { slot := .a, pr := p, scalars := [a], dest := .scalar d, latch := some false }
  | .ffs d a p => some { slot := .a, pr := p, scalars := [a], dest := .scalar d, latch := some false }
  | .popc d a p => some { slot := .a, pr := p, scalars := [a], dest := .scalar d, latch := some false }
  | .sel d a b _ p => some { slot := .a, pr := p, scalars := [a, b], dest := .scalar d, latch := some false }
  | .cmp d a b _ p => some { slot := .a, pr := p, scalars := [a, b], dest := .pred d }
  | .addi d a _ p => some { slot := .a, pr := p, scalars := [a], dest := .scalar d, latch := some false }
  | .lds d a _ p => some { slot := .a, pr := p, scalars := [a], dest := .scalar d, latch := some false, lat := 3 }
  | .sts v a _ p => some { slot := .a, pr := p, scalars := [v, a] }
  | .li d _ p => some { slot := .a, pr := p, dest := .scalar d, latch := some false }
  | .lih d _ p => some { slot := .a, pr := p, dest := .scalar d, latch := some false }
  | .vaddF u _ _ d a b p => some { slot := vslot u, pr := p, vectors := [a, b], dest := .vector d, latch := some true, lat := 3 }
  | .vsubF u _ _ d a b p => some { slot := vslot u, pr := p, vectors := [a, b], dest := .vector d, latch := some true, lat := 3 }
  | .vmulF u _ _ d a b p => some { slot := vslot u, pr := p, vectors := [a, b], dest := .vector d, latch := some true, lat := 3 }
  | .vfma u _ _ d a b p => some { slot := vslot u, pr := p, vectors := [a, b], dest := .vector d, latch := some true, lat := 4 }
  | .vmaxF u _ d a b p => some { slot := vslot u, pr := p, vectors := [a, b], dest := .vector d, latch := some true, lat := 3 }
  | .vminF u _ d a b p => some { slot := vslot u, pr := p, vectors := [a, b], dest := .vector d, latch := some true, lat := 3 }
  | .vcpys u _ d a b p => some { slot := vslot u, pr := p, vectors := [a, b], dest := .vector d, latch := some true, lat := 3 }
  | .vcmpEqF u _ d a b p => some { slot := vslot u, pr := p, vectors := [a, b], dest := .vector d, latch := some true, lat := 3 }
  | .vcmpLtF u _ d a b p => some { slot := vslot u, pr := p, vectors := [a, b], dest := .vector d, latch := some true, lat := 3 }
  | .vcmpLeF u _ d a b p => some { slot := vslot u, pr := p, vectors := [a, b], dest := .vector d, latch := some true, lat := 3 }
  | .vabsF u _ d a p => some { slot := vslot u, pr := p, vectors := [a], dest := .vector d, latch := some true, lat := 3 }
  | .vnegF u _ d a p => some { slot := vslot u, pr := p, vectors := [a], dest := .vector d, latch := some true, lat := 3 }
  | .vrint u _ _ d a p => some { slot := vslot u, pr := p, vectors := [a], dest := .vector d, latch := some true, lat := 3 }
  | .vredF u _ _ d a p => some { slot := vslot u, pr := p, vectors := [a], dest := .vector d, latch := some true, lat := 6 }
  | .vscale u _ _ d a b p => some { slot := vslot u, pr := p, vectors := [a, b], dest := .vector d, latch := some true, lat := 3 }
  | .vrcp u f _ d a p => some { slot := vslot u, pr := p, vectors := [a], dest := .vector d, latch := some true, lat := if f = 0 then 20 else 8, beats := if f = 0 then 4 else 1 }
  | .vsqrt u f _ d a p => some { slot := vslot u, pr := p, vectors := [a], dest := .vector d, latch := some true, lat := if f = 0 then 20 else 8, beats := if f = 0 then 4 else 1 }
  | .vrsq u f _ d a p => some { slot := vslot u, pr := p, vectors := [a], dest := .vector d, latch := some true, lat := if f = 0 then 20 else 8, beats := if f = 0 then 4 else 1 }
  | .vexp2 u f _ d a p => some { slot := vslot u, pr := p, vectors := [a], dest := .vector d, latch := some true, lat := if f = 0 then 20 else 8, beats := if f = 0 then 4 else 1 }
  | .vlog2 u f _ d a p => some { slot := vslot u, pr := p, vectors := [a], dest := .vector d, latch := some true, lat := if f = 0 then 20 else 8, beats := if f = 0 then 4 else 1 }
  | .vsin u f _ d a p => some { slot := vslot u, pr := p, vectors := [a], dest := .vector d, latch := some true, lat := if f = 0 then 20 else 8, beats := if f = 0 then 4 else 1 }
  | .vcos u f _ d a p => some { slot := vslot u, pr := p, vectors := [a], dest := .vector d, latch := some true, lat := if f = 0 then 20 else 8, beats := if f = 0 then 4 else 1 }
  | .vtanh u f _ d a p => some { slot := vslot u, pr := p, vectors := [a], dest := .vector d, latch := some true, lat := if f = 0 then 20 else 8, beats := if f = 0 then 4 else 1 }
  | .vaddI u _ _ d a b p => some { slot := vslot u, pr := p, vectors := [a, b], dest := .vector d, latch := some true, lat := 2 }
  | .vsubI u _ _ d a b p => some { slot := vslot u, pr := p, vectors := [a, b], dest := .vector d, latch := some true, lat := 2 }
  | .vmulI u _ _ d a b p => some { slot := vslot u, pr := p, vectors := [a, b], dest := .vector d, latch := some true, lat := 2 }
  | .vmulh u _ d a b p => some { slot := vslot u, pr := p, vectors := [a, b], dest := .vector d, latch := some true, lat := 2 }
  | .vmaxI u _ d a b p => some { slot := vslot u, pr := p, vectors := [a, b], dest := .vector d, latch := some true, lat := 2 }
  | .vminI u _ d a b p => some { slot := vslot u, pr := p, vectors := [a, b], dest := .vector d, latch := some true, lat := 2 }
  | .vand u _ d a b p => some { slot := vslot u, pr := p, vectors := [a, b], dest := .vector d, latch := some true, lat := 2 }
  | .vor u _ d a b p => some { slot := vslot u, pr := p, vectors := [a, b], dest := .vector d, latch := some true, lat := 2 }
  | .vxor u _ d a b p => some { slot := vslot u, pr := p, vectors := [a, b], dest := .vector d, latch := some true, lat := 2 }
  | .vshl u _ d a b p => some { slot := vslot u, pr := p, vectors := [a, b], dest := .vector d, latch := some true, lat := 2 }
  | .vshr u _ d a b p => some { slot := vslot u, pr := p, vectors := [a, b], dest := .vector d, latch := some true, lat := 2 }
  | .vabsI u _ _ d a p => some { slot := vslot u, pr := p, vectors := [a], dest := .vector d, latch := some true, lat := 2 }
  | .vnegI u _ _ d a p => some { slot := vslot u, pr := p, vectors := [a], dest := .vector d, latch := some true, lat := 2 }
  | .vclz u _ d a p => some { slot := vslot u, pr := p, vectors := [a], dest := .vector d, latch := some true, lat := 2 }
  | .vffs u _ d a p => some { slot := vslot u, pr := p, vectors := [a], dest := .vector d, latch := some true, lat := 2 }
  | .vpopc u _ d a p => some { slot := vslot u, pr := p, vectors := [a], dest := .vector d, latch := some true, lat := 2 }
  | .vcmpEqI u _ d a b p => some { slot := vslot u, pr := p, vectors := [a, b], dest := .vector d, latch := some true, lat := 2 }
  | .vcmpLtI u _ d a b p => some { slot := vslot u, pr := p, vectors := [a, b], dest := .vector d, latch := some true, lat := 2 }
  | .vcmpLeI u _ d a b p => some { slot := vslot u, pr := p, vectors := [a, b], dest := .vector d, latch := some true, lat := 2 }
  | .vredI u _ _ d a p => some { slot := vslot u, pr := p, vectors := [a], dest := .vector d, latch := some true, lat := 6 }
  | .vmaxe u _ d a b p => some { slot := vslot u, pr := p, vectors := [a, b], dest := .vector d, latch := some true, lat := 2 }
  | .vexps u _ _ d a p => some { slot := vslot u, pr := p, vectors := [a], dest := .vector d, latch := some true, lat := 2 }
  | .vsel u _ d a b p => some { slot := vslot u, pr := p, vectors := [a, b], dest := .vector d, latch := some true, lat := 2 }
  | .vshuf u _ d a b p => some { slot := vslot u, pr := p, vectors := [a, b], dest := .vector d, latch := some true, lat := 2 }
  | .vdup u _ d a b p => some { slot := vslot u, pr := p, vectors := [a, b], dest := .vector d, latch := some true, lat := 2 }
  | .vcvtFromFloat u _ _ d a _ _ p => some { slot := vslot u, pr := p, vectors := [a], dest := .vector d, latch := some true, lat := 3 }
  | .vcvtFromInt u _ _ _ d a _ _ p => some { slot := vslot u, pr := p, vectors := [a], dest := .vector d, latch := some true, lat := 3 }
  | .vcvtWidenF8 u _ d a _ p => some { slot := vslot u, pr := p, vectors := [a], dest := .vector d, latch := some true, lat := 3 }
  | .mpush l c v p => some { slot := .m, pr := p, vectors := [v], dest := .column l c, lat := 2 }
  | .mhad l _ _ p => some { slot := .m, pr := p, dest := .hadamard l, lat := 66, beats := 64 }
  | .msta _ _ s _ p => some { slot := .m, pr := p, scalars := [s] }
  | .mzero n o p => some { slot := .m, pr := p, dest := .rows o (2 ^ n.toNat), lat := 6 }
  | .mfs _ d p => some { slot := .m, pr := p, dest := .scalar d, lat := 2, latch := some false }
  | .mts n s p => some { slot := .m, pr := p, scalars := [s], dest := .special n }
  | .maccF64 _ w v _ _ _ p => some { slot := .m, pr := p, vectors := [v], dest := .rows w 1, lat := 6 }
  | .maccF32 _ w v _ _ _ p => some { slot := .m, pr := p, vectors := [v], dest := .rows w 1, lat := 6 }
  | .maccF16 _ w v _ _ _ p => some { slot := .m, pr := p, vectors := [v], dest := .rows w 1, lat := 6 }
  | .maccB16 _ w v _ _ _ p => some { slot := .m, pr := p, vectors := [v], dest := .rows w 1, lat := 6 }
  | .maccF8e4 _ w v _ _ _ p => some { slot := .m, pr := p, vectors := [v], dest := .rows w 1, lat := 6 }
  | .maccF8e5 _ w v _ _ _ p => some { slot := .m, pr := p, vectors := [v], dest := .rows w 1, lat := 6 }
  | .maccI8 _ w v _ _ p => some { slot := .m, pr := p, vectors := [v], dest := .rows w 1, lat := 6 }
  | .maccN8 _ w v _ _ p => some { slot := .m, pr := p, vectors := [v], dest := .rows w 1, lat := 6 }
  | .maccaF64 _ w _ _ _ _ _ p => some { slot := .m, pr := p, dest := .rows w 1, lat := 6 }
  | .maccaF32 _ w _ _ _ _ _ p => some { slot := .m, pr := p, dest := .rows w 1, lat := 6 }
  | .maccaF16 _ w _ _ _ _ _ p => some { slot := .m, pr := p, dest := .rows w 1, lat := 6 }
  | .maccaB16 _ w _ _ _ _ _ p => some { slot := .m, pr := p, dest := .rows w 1, lat := 6 }
  | .maccaF8e4 _ w _ _ _ _ _ p => some { slot := .m, pr := p, dest := .rows w 1, lat := 6 }
  | .maccaF8e5 _ w _ _ _ _ _ p => some { slot := .m, pr := p, dest := .rows w 1, lat := 6 }
  | .maccaI8 _ w _ _ _ _ p => some { slot := .m, pr := p, dest := .rows w 1, lat := 6 }
  | .maccaN8 _ w _ _ _ _ p => some { slot := .m, pr := p, dest := .rows w 1, lat := 6 }
  | .mdrainF32F32 _ _ d _ _ _ p => some { slot := .m, pr := p, dest := .vector d, lat := 5, latch := some true }
  | .mdrainF32F16 _ _ d _ _ _ p => some { slot := .m, pr := p, dest := .vector d, lat := 5, latch := some true }
  | .mdrainF32B16 _ _ d _ _ _ p => some { slot := .m, pr := p, dest := .vector d, lat := 5, latch := some true }
  | .mdrainF32F8e4 _ _ d _ _ _ p => some { slot := .m, pr := p, dest := .vector d, lat := 5, latch := some true }
  | .mdrainF32F8e5 _ _ d _ _ _ p => some { slot := .m, pr := p, dest := .vector d, lat := 5, latch := some true }
  | .mdrainF64F64 _ _ d _ _ _ p => some { slot := .m, pr := p, dest := .vector d, lat := 5, latch := some true }
  | .mdrainF64F32 _ _ d _ _ _ p => some { slot := .m, pr := p, dest := .vector d, lat := 5, latch := some true }
  | .mdrainI32I32 _ d _ _ p => some { slot := .m, pr := p, dest := .vector d, lat := 5, latch := some true }
  | .mdrainI32I16 _ d _ _ p => some { slot := .m, pr := p, dest := .vector d, lat := 5, latch := some true }
  | .mdrainI32I8 _ d _ _ p => some { slot := .m, pr := p, dest := .vector d, lat := 5, latch := some true }
  | .act _ _ s p => some { slot := .d, pr := p, scalars := [s] }
  | .actw _ _ s p => some { slot := .d, pr := p, scalars := [s] }
  | .rd _ _ _ v p => some { slot := .d, pr := p, dest := .vector v, lat := 24, latch := some true }
  | .wr _ _ _ v p => some { slot := .d, pr := p, vectors := [v] }
  | .pre _ _ p => some { slot := .d, pr := p }
  | .prea _ p => some { slot := .d, pr := p }
  | .ref _ p => some { slot := .d, pr := p }
  | .refb _ _ p => some { slot := .d, pr := p }
  | .sgen d l _ v p => some { slot := .f, pr := p, dest := .stream d, lat := 2 ^ l.toNat + 2, beats := 2 ^ l.toNat, vectors := [v] }
  | .sgenb d l _ v p => some { slot := .f, pr := p, dest := .stream d, lat := 2 ^ l.toNat + 2, beats := 2 ^ l.toNat, vectors := [v] }
  | .sregen d _ l _ p => some { slot := .f, pr := p, dest := .stream d, lat := 2 * 2 ^ l.toNat + 2, beats := 2 * 2 ^ l.toNat }
  | .sand d _ _ l _ p => some { slot := .f, pr := p, dest := .stream d, lat := 2 ^ l.toNat + 2, beats := 2 ^ l.toNat }
  | .sor d _ _ l _ p => some { slot := .f, pr := p, dest := .stream d, lat := 2 ^ l.toNat + 2, beats := 2 ^ l.toNat }
  | .sxor d _ _ l _ p => some { slot := .f, pr := p, dest := .stream d, lat := 2 ^ l.toNat + 2, beats := 2 ^ l.toNat }
  | .sxnor d _ _ l _ p => some { slot := .f, pr := p, dest := .stream d, lat := 2 ^ l.toNat + 2, beats := 2 ^ l.toNat }
  | .smux d _ _ l _ _ p => some { slot := .f, pr := p, dest := .stream d, lat := 2 ^ l.toNat + 2, beats := 2 ^ l.toNat }
  | .snot d _ l p => some { slot := .f, pr := p, dest := .stream d, lat := 2 ^ l.toNat + 2, beats := 2 ^ l.toNat }
  | .smov d _ l p => some { slot := .f, pr := p, dest := .stream d, lat := 2 ^ l.toNat + 2, beats := 2 ^ l.toNat }
  | .sdly d _ l _ p => some { slot := .f, pr := p, dest := .stream d, lat := 2 ^ l.toNat + 2, beats := 2 ^ l.toNat }
  | .scnt _ l v _ p => some { slot := .f, pr := p, dest := .vector v, lat := 2 ^ l.toNat + 4, latch := some true, beats := 2 ^ l.toNat }
  | .scls _ v p => some { slot := .f, pr := p, dest := .vector v, lat := 2 }
  | .sld d l s p => some { slot := .f, pr := p, dest := .stream d, lat := 2 ^ l.toNat + 2, beats := 2 ^ l.toNat, scalars := [s] }
  | .sst _ l s p => some { slot := .f, pr := p, lat := 2 ^ l.toNat + 2, beats := 2 ^ l.toNat, scalars := [s] }
  | .ldv d s _ p => some { slot := .x, pr := p, scalars := [s], dest := .vector d, lat := 4, latch := some true }
  | .stv v s _ p => some { slot := .x, pr := p, scalars := [s], vectors := [v] }
  | .send _ v p => some { slot := .x, pr := p, vectors := [v] }
  | .recv d _ p => some { slot := .x, pr := p, dest := .vector d, latch := some true }
  | .croute s p => some { slot := .x, pr := p, scalars := [s] }
  | .bcopy _ s _ _ _ p => some { slot := .x, pr := p, scalars := [s] }
  | .bgath _ s _ p => some { slot := .x, pr := p, scalars := [s] }
  | .bscat _ s p => some { slot := .x, pr := p, scalars := [s] }
  | .breda _ s _ _ _ p => some { slot := .x, pr := p, scalars := [s] }
  | .batom _ s _ _ p => some { slot := .x, pr := p, scalars := [s] }
  | .bfence _ s _ p => some { slot := .x, pr := p, scalars := [s] }
  | .bmark _ s p => some { slot := .x, pr := p, scalars := [s] }
  | .bseal _ s p => some { slot := .x, pr := p, scalars := [s] }
  | .bopen _ s p => some { slot := .x, pr := p, scalars := [s] }
  | _ => none

/-- Does the predicate of a word read 1 (R57)? -/
def predOf (s : State) (i : Instr) : Bool :=
  match useOf i with
  | some u => readPred s u.pr
  | none => true

/-! ### Targets (R62) -/

/-- The places a word's result will reach: a discarded write reaches none (R63, R68). DESIGN CHOICE (log entry 31): a column of a
matrix latch is such a place, so that an `MPUSH` and an `MHAD` which land on one column on one cycle collide; R62 does not name it. -/
def destTargets (s : State) : Dest → List Target
  | .none => []
  | .scalar d => if d = 0 then [] else [.scalar d.toNat]
  | .vector d => if d = 63 then [] else [.vector (physV s.core.ctl.rrb d.toNat)]
  | .pred d => if d = 0 then [] else [.pred (physP s.core.ctl.rrb d.toNat)]
  | .rows o n => (List.range n).map fun i => .row (physRow s.core.ctl.awb (o.toNat + i))
  | .column l j => [.column (64 * l.toNat + j.toNat)]
  | .hadamard l => (List.range 64).map fun j => .column (64 * l.toNat + j)
  | .stream q => [.stream q.toNat]
  | .special n => [.special n.toNat]
  | .loop => if s.core.ctl.lc = 0 then [] else [.special 0x08]
  | .loopr =>
    if s.core.ctl.lc = 0 then []
    else [.special 0x08, .special 0x09, .special 0x0A, .pred (physP (s.core.ctl.rrb - 1) 4)]

/-- The places that a result in flight will reach. -/
def effectTargets : Effect → List Target
  | .scalar d _ _ => [.scalar d]
  | .vector d _ _ => [.vector d]
  | .pred n _ => [.pred n]
  | .flags _ => []
  | .latch _ _ _ _ _ => []
  | .column l j _ _ => [.column (64 * l + j)]
  | .hadamard l _ => (List.range 64).map fun j => .column (64 * l + j)
  | .beat b => [.row b.row]
  | .zeroRow r => [.row r]
  | .stream q _ => [.stream q]
  | .store _ _ _ => []
  | .special n _ => [.special n]

/-- Have two lists of places one in common? -/
def share (a b : List Target) : Bool := a.any fun x => b.contains x

/-- Will a word's result meet a result in flight (R62)? -/
def meetsFlight (s : State) (u : Use) : Bool :=
  let ts := destTargets s u.dest
  !ts.isEmpty && s.core.results.any fun r => r.ready == s.core.ctl.cyc + u.lat && share ts (effectTargets r.eff)

/-- Will the results of two words of one bundle meet (R62)? -/
def meetsWord (s : State) (u w : Use) : Bool := u.lat == w.lat && share (destTargets s u.dest) (destTargets s w.dest)

/-! ### Staging ranges (R127, R175, R424) -/

/-- A run of staging bytes. -/
structure Range where
  addr : Nat
  len : Nat
  deriving DecidableEq, Repr

/-- Do two runs share a byte, addresses wrapping? -/
def Range.meets (a b : Range) : Bool :=
  decide (0 < a.len) && decide (0 < b.len) &&
    (decide ((b.addr + Config.stagingBytes - a.addr) % Config.stagingBytes < a.len) ||
      decide ((a.addr + Config.stagingBytes - b.addr) % Config.stagingBytes < b.len))

/-- Columns that `MSTA` stores (R127). -/
def mstaCount (s : State) (w : BitVec 2) (k : BitVec 3) : Nat := min (maskCols s k) (if w = 0 then 64 else 32)

/-- The width of an element that `MSTA` stores. -/
def mstaWidth (w : BitVec 2) : Nat := if w = 0 then 4 else 8

/-- The bytes of an image of a stream (R174). -/
def imageBytes (l : BitVec 2) : Nat := 6 * (1024 * 2 ^ l.toNat) + 8

/-- The bytes that a word stores, other than an `SST`. -/
def storeRange (s : State) : Instr → Option Range
  | .sts _ a i _ => some { addr := stageBase s a (8 * i.toNat) 8, len := 8 }
  | .stv _ b o _ => some { addr := stageBase s b (32 * o.toNat) 32, len := 96 }
  | .msta w _ a k _ => some { addr := stageBase s a 0 (mstaWidth w), len := mstaWidth w * mstaCount s w k }
  | _ => none

/-- The image that an `SST` stores. -/
def imageRange (s : State) : Instr → Option Range
  | .sst _ l a _ => some { addr := stageBase s a 0 8, len := imageBytes l }
  | _ => none

/-- The bytes that a word loads. -/
def loadRange (s : State) : Instr → Option Range
  | .lds _ a i _ => some { addr := stageBase s a (8 * i.toNat) 8, len := 8 }
  | .ldv _ b o _ => some { addr := stageBase s b (32 * o.toNat) 32, len := 96 }
  | .sld _ l a _ => some { addr := stageBase s a 0 8, len := imageBytes l }
  | _ => none

/-- Every run of bytes that a word touches. -/
def touches (s : State) (i : Instr) : List Range :=
  (storeRange s i).toList ++ (imageRange s i).toList ++ (loadRange s i).toList

/-- The `SST` images in flight. -/
def flyingImages (s : State) : List Range :=
  s.core.results.filterMap fun r =>
    match r.eff with
    | .store a bs _ => if r.sst then some { addr := a, len := bs.length } else none
    | _ => none

/-! ### Checks of one word -/

/-- A schedule fault of a slot. -/
def schedule (u : Use) : IssueFault := { order := 2, cause := 2, detail := 0, slot := u.slot.num }

/-- A timing fault. -/
def timing (detail slot : Nat) : IssueFault := { order := 4, cause := 4, detail := detail, slot := slot }

/-- The fault, when the condition holds. -/
def when (b : Bool) (f : IssueFault) : List IssueFault := if b then [f] else []

/-- A latch code that reads a latch without a valid mark, or of the other kind (R66). -/
def badLatch (s : State) (vec : Bool) (c : BitVec 6) : Bool :=
  decide (56 ≤ c.toNat) && (!(latchOf s (c.toNat - 56)).valid || (latchOf s (c.toNat - 56)).vec != vec)

/-- Does the word read a latch? -/
def readsLatch (u : Use) : Bool := (u.scalars ++ u.vectors).any fun c => decide (56 ≤ c.toNat)

/-- Is the slot of the word occupied by an earlier operation (R61)? -/
def occupied (s : State) (u : Use) : Bool := decide (s.core.ctl.cyc < tget 0 s.core.ctl.busy u.slot.num)

/-- The rule on where a word may stand, whatever its predicate (R28, R244). -/
def misplaced (s : State) : Instr → Bool
  | .waitb _ _ _ | .waitt _ _ | .waitp _ _ _ | .seg _ _ _ _ | .endTask _ | .croute _ _ => s.core.ctl.inseg
  | .sege _ => !s.core.ctl.inseg
  | _ => false

/-- Rules that hold whatever the predicate: `SEG` names no latch (R408), and no beat on a Hadamard latch 64 or 65 cycles after
its load began (R130). -/
def alwaysBad (s : State) : Instr → Bool
  | .seg e g _ _ => decide (56 ≤ e.toNat) || decide (56 ≤ g.toNat)
  | .maccF64 l _ _ _ _ _ _ | .maccF32 l _ _ _ _ _ _ | .maccF16 l _ _ _ _ _ _ | .maccB16 l _ _ _ _ _ _
  | .maccF8e4 l _ _ _ _ _ _ | .maccF8e5 l _ _ _ _ _ _ | .maccI8 l _ _ _ _ _ | .maccN8 l _ _ _ _ _
  | .maccaF64 l _ _ _ _ _ _ _ | .maccaF32 l _ _ _ _ _ _ _ | .maccaF16 l _ _ _ _ _ _ _ | .maccaB16 l _ _ _ _ _ _ _
  | .maccaF8e4 l _ _ _ _ _ _ _ | .maccaF8e5 l _ _ _ _ _ _ _ | .maccaI8 l _ _ _ _ _ _ | .maccaN8 l _ _ _ _ _ _ =>
    let m := tget 0 s.core.ctl.mhadAt l.toNat
    decide (0 < m) && (s.core.ctl.cyc + 1 == m + 64 || s.core.ctl.cyc + 1 == m + 65)
  | _ => false

/-- A participant count that R31 does not allow. -/
def badCount (s : State) (b : BitVec 11) (c : BitVec 12) : Bool :=
  let g := s.gang s.core.task.gid
  let x := tget {} g.barriers b.toNat
  decide (c.toNat = 0) || decide (g.tasks < c.toNat) || (decide (x.need ≠ 0) && decide (x.need ≠ c.toNat))

/-- The consume fields of a barge command's scalar (R184): the tokens of the valid ones. -/
def consumes (x : Scalar) : List Nat :=
  [20, 27, 34].filterMap fun lo => if x.getLsbD (lo + 6) then some (bits x.toNat (lo + 5) lo) else none

/-- The outstanding commands of the barge: those whose completion word has not left pending (R185). -/
def outstanding (s : State) : List Cmd := s.core.barge.queue

/-- Has the task produced a token (R185)? -/
def produced (s : State) (k : Nat) : Bool := tget 0 s.core.barge.issuedBy k != 0

/-- The cases in which a barge command raises a schedule fault (R185). -/
def bargeBad (s : State) (k : BitVec 6) (c : BitVec 6) : Bool :=
  let cs := consumes (readScalar s c).1
  decide (Config.bargeDepth ≤ (outstanding s).length) || (outstanding s).any (fun x => x.token == k.toNat) ||
    cs.contains k.toNat || cs.any fun t => !produced s t

/-- A stream operand that does not hold the length of the len field (R165). -/
def badLength (s : State) (l : BitVec 2) (q : BitVec 3) : Bool := decide ((streamOf s q).len ≠ l.toNat)

/-- The 512 bytes of a route image as a read at issue finds them (R213, R244), as 64 units. -/
def readImage (s : State) (c : BitVec 6) : List UnitValue × State := readUnits s (unitsOf (stageBase s c 0 512) 512)

/-- The units of the route image that a `CROUTE` loads: those that the checks of its bundle have read. -/
def routeUnits (s : State) (c : BitVec 6) : List UnitValue := s.core.canal.image.getD (readImage s c).1

/-- The schedule faults that a true-predicate word raises by its own rule. A route image with poison in it raises none, be it malformed too: DESIGN
CHOICE (log entry 12). -/
def scheduleBad (s : State) : Instr → Bool
  | .call _ _ => decide (8 ≤ s.core.ctl.ret.length)
  | .ret _ => s.core.ctl.ret.isEmpty
  | .waitb b c _ | .arrb b c _ => badCount s b c
  | .waitt k _ | .waitp k _ _ => !produced s k.toNat
  | .snap _ => !(s.job s.core.task.pasid).snap
  | .recv _ l _ => (heldRows s l.toNat).isEmpty
  | .send r _ _ => let e := tget 0 s.core.canal.routes r.toNat; !routeV e || decide (routeIn e ≠ 0)
  | .croute c _ =>
    let us := routeUnits s c
    !(us.any UnitValue.poison) && us.any fun x => routeMalformed x.value
  | .bcopy k c _ _ _ _ | .bgath k c _ _ | .bscat k c _ | .breda k c _ _ _ _ | .batom k c _ _ _ | .bfence k c _ _
  | .bmark k c _ | .bseal k c _ | .bopen k c _ => bargeBad s k c
  | .sregen _ a l _ _ | .snot _ a l _ | .smov _ a l _ | .sdly _ a l _ _ | .scnt a l _ _ _ | .sst a l _ _ => badLength s l a
  | .sand _ a b l _ _ | .sor _ a b l _ _ | .sxor _ a b l _ _ | .sxnor _ a b l _ _ => badLength s l a || badLength s l b
  | .smux _ a b l _ q _ => badLength s l a || badLength s l b || badLength s l q
  | _ => false

/-- The partition check of an activate (R140). -/
def partitionBad (s : State) : Instr → Bool
  | .act _ _ c _ | .actw _ _ c _ =>
    let r := (readScalar s c).1.toNat
    !(decide (s.core.task.vpb ≤ r) && decide (r < s.core.task.vpl))
  | _ => false

/-- A D word whose condition of Table 6.3 fails (R135). -/
def commandBad (s : State) : Instr → Bool
  | .act c b _ _ | .actw c b _ _ | .refb c b _ => !canActivate s (bankNo c b)
  | .rd c b _ _ _ => !canRead s (bankNo c b)
  | .wr c b _ _ _ => !canWrite s (bankNo c b)
  | .pre c b _ => !canPrecharge s (bankNo c b)
  | .prea c _ => !canPrechargeAll s c.toNat
  | .ref c _ => !canRefreshAll s c.toNat
  | _ => false

/-- A re-planning `SEG` that finds a bank open or `RD` data outstanding (R151). -/
def replanBad (s : State) : Instr → Bool
  | .seg _ _ m _ => m == 1 && (!banksIdle s || s.core.results.any Result.vault)
  | _ => false

/-- The check of two class masks (R161). -/
def pairBad (corr : BitVec 1) (a b : BitVec 32) : Bool := if corr = 0 then a &&& b != 0 else a != b

/-- The class-mask checks (R161, R170, R171). -/
def correlationBad (s : State) : Instr → Bool
  | .sand _ a b _ c _ | .sor _ a b _ c _ | .sxor _ a b _ c _ | .sxnor _ a b _ c _ =>
    pairBad c (streamOf s a).mask (streamOf s b).mask
  | .smux _ a b _ c q _ =>
    let x := (streamOf s a).mask
    let y := (streamOf s b).mask
    let z := (streamOf s q).mask
    pairBad c x y || x &&& z != 0 || y &&& z != 0
  | .sdly _ a _ _ _ => (streamOf s a).mask.toNat / 2 ^ 16 != 0
  | _ => false

/-- The DETAIL of a segment fault: bit 0 the count, bit 1 the signature (R410); 0 when both agree. -/
def segmentDetail (s : State) : Nat :=
  let c := s.core.ctl
  (if c.sgsc + 1 = c.ecnt then 0 else 1) + (if c.sgsh + bundleCrc c.ir = c.esig then 0 else 2)

/-- Is the issue cycle inside the drain window of a snapshot-enabled job (R234)? -/
def inWindow (s : State) : Bool := (s.job s.core.task.pasid).snap && decide (3968 ≤ s.core.ctl.cyc % 4096)

/-- Is it the first cycle of the window? -/
def opensWindow (s : State) : Bool := (s.job s.core.task.pasid).snap && decide (s.core.ctl.cyc % 4096 = 3968)

/-- The faults of one word. DEDUCED (log entry 31): a word under a false predicate, whose result changes no register (R57), collides
with no other result (R62). A D word that both fails Table 6.3 and stands in the drain window reports DETAIL 0, the condition that the
checker of R348 tests first (R138, R234). -/
def wordFaults (s : State) (i : Instr) : List IssueFault :=
  match useOf i with
  | none => []
  | some u =>
    let on := readPred s u.pr
    let n := u.slot.num
    when (!i.wellFormed) { order := 1, cause := 1, detail := 0, slot := n } ++
    when (occupied s u || u.scalars.any (badLatch s false) || u.vectors.any (badLatch s true) || misplaced s i ||
      alwaysBad s i || (on && (meetsFlight s u || scheduleBad s i ||
        (touches s i).any fun r => (flyingImages s).any r.meets))) (schedule u) ++
    when (on && partitionBad s i) { order := 3, cause := 3, detail := 0, slot := n } ++
    when (on && commandBad s i) (timing 0 n) ++
    when (decide (u.slot = .d) && inWindow s) (timing 1 n) ++
    when (on && replanBad s i) (timing 2 n) ++
    when (on && correlationBad s i) { order := 5, cause := 6, detail := 0, slot := n }

/-! ### Checks of the words of a bundle together -/

/-- Is the word a true-predicate `SEG`? -/
def opensSegment (s : State) : Instr → Bool
  | .seg _ _ _ p => readPred s p
  | _ => false

/-- Is the word a true-predicate `SEGE`? -/
def closesSegment (s : State) : Instr → Bool
  | .sege p => readPred s p
  | _ => false

/-- `LOOP` or `LOOPR`. -/
def isLoop : Instr → Bool
  | .loop _ _ | .loopr _ _ _ _ => true
  | _ => false

/-- `MTS` to LC, RRB or AWB. -/
def movesLoopState : Instr → Bool
  | .mts n _ _ => n == 0x08 || n == 0x09 || n == 0x0A
  | _ => false

/-- Do two words of one bundle break R62, R66, R74, R175 or R424 together? Only results under true predicates collide (log entry
31). -/
def pairClash (s : State) (i j : Instr) : Bool :=
  match useOf i, useOf j with
  | some u, some w =>
    let on := readPred s u.pr && readPred s w.pr
    (opensSegment s i && readsLatch w) ||
    (isLoop i && movesLoopState j) || (isLoop j && movesLoopState i) ||
    (on && (meetsWord s u w ||
      (storeRange s i).toList.any (fun r => (storeRange s j).toList.any r.meets) ||
      (imageRange s i).toList.any (fun r => (touches s j).any r.meets) ||
      (imageRange s j).toList.any (fun r => (touches s i).any r.meets)))
  | _, _ => false

/-- The faults of every pair of words: each names the slot of the word that comes second in the pair. -/
def pairFaults (s : State) (ws : List Instr) : List IssueFault :=
  ws.flatMap fun j =>
    match useOf j with
    | none => []
    | some u => when (ws.any fun i => i != j && pairClash s i j) (schedule u)

/-- The receive latches that a bundle takes rows from. -/
def takenLatches (s : State) (ws : List Instr) : List Nat :=
  ws.filterMap fun
    | .recv _ l p => if readPred s p then some l.toNat else none
    | _ => none

/-- The routes on which a bundle injects a row. -/
def sentRoutes (s : State) (ws : List Instr) : List Nat :=
  ws.filterMap fun
    | .send r _ p => if readPred s p then some r.toNat else none
    | _ => none

/-- The canal causes of this cycle (R242, R247). -/
def canalFaults (s : State) (ws : List Instr) : List IssueFault :=
  when ((sentRoutes s ws).any (sendConflicts s)) { order := 6, cause := 7, detail := 0, slot := 6 } ++
  when (earlyConflict s || lateConflict s) { order := 6, cause := 7, detail := 0, slot := 15 } ++
  when (anyOverrun s (takenLatches s ws)) { order := 6, cause := 8, detail := 0, slot := 15 }

/-- Every cause that a bundle of these words raises, Table 3.8 and then the segment fault (R81, R283). -/
def bundleFaults (s : State) (ws : List Instr) : List IssueFault :=
  ws.flatMap (wordFaults s) ++ pairFaults s ws ++
  when (opensWindow s && !banksIdle s) (timing 1 15) ++
  canalFaults s ws ++
  when (ws.any (closesSegment s) && decide (segmentDetail s ≠ 0)) { order := 7, cause := 5, detail := segmentDetail s, slot := 0 }

end Sys2Proof.Machine
end

