-- ==== Sys2Proof/Machine/Issue.lean ====
section
/-! DEFINITION. Issuing one slot word: its check when no bundle has vetted it, its occupancy, and its effect or, under a false
predicate, only its latch mark (R57, R61, R64). -/

namespace Sys2Proof.Machine

/-- Occupy the slot for the word's beats, and note the start of a Hadamard load (R61, R130). -/
def occupy (i : Instr) (s : State) : State :=
  match useOf i with
  | none => s
  | some u => s.mapCtl fun c => { c with
      busy := if 1 < u.beats then tset 0 c.busy u.slot.num (c.cyc + u.beats) else c.busy,
      mhadAt := match u.dest with
        | .hadamard l => tset 0 c.mhadAt l.toNat (c.cyc + 1)
        | _ => c.mhadAt }

/-- The latch mark of a false-predicate result: it sets the valid mark and the kind on its readable cycle (R64). -/
def markLatch (i : Instr) (s : State) : State :=
  match useOf i with
  | some u =>
    match u.latch with
    | some vec => s.after u.lat (.latch u.slot.num vec false 0 false)
    | none => s
  | none => s

/-- A word that has passed every check (R57). -/
def perform (i : Instr) (s : State) (f : State → State) : State :=
  if predOf s i then f (occupy i s) else markLatch i (occupy i s)

/-- A slot word by itself, or as one of the words of a vetted bundle. A word by itself is checked as a bundle that holds it
alone (R81). -/
def issueWord (i : Instr) (s : State) (f : State → State) : Out :=
  if s.vetted then .next (perform i s f)
  else
    match firstFault (bundleFaults s [i]) with
    | some x => .next (takeTrap s x)
    | none => .next (perform i s f)

/-- A scalar result of slot `n`: the register, unless it is s0, and the latch (R63 to R65). -/
def scalarResult (s : State) (n : Nat) (d : BitVec 6) (lat : Nat) (x : Scalar × Bool) : State :=
  let s := if d = 0 then s else s.after lat (.scalar d.toNat x.1 x.2)
  s.after lat (.latch n false true (x.1.zeroExtend 768) x.2)

/-- A vector result of slot `n`: the physical register, unless the code is 63, and the latch (R60, R63 to R65). -/
def vectorResult (s : State) (n : Nat) (d : BitVec 6) (lat : Nat) (x : Row × Bool) : State :=
  let s := if d = 63 then s else s.after lat (.vector (physV s.core.ctl.rrb d.toNat) x.1 x.2)
  s.after lat (.latch n true true x.1 x.2)

/-- A predicate result: p0 discards it (R68). -/
def predResult (s : State) (d : BitVec 3) (b : Bool) : State :=
  if d = 0 then s else s.after 1 (.pred (physP s.core.ctl.rrb d.toNat) b)

/-- Flags that an operation raises on its readable cycle (R74). -/
def flagResult (s : State) (lat : Nat) (f : Flags) : State := if f = 0 then s else s.after lat (.flags f)

end Sys2Proof.Machine
end

