-- ==== Sys2Proof/Machine/Barge.lean ====
section
/-! DEFINITION. The X slot's barge commands at issue (R183 to R185, R355): the command is queued with its view address, its token
is produced and reads pending. -/

namespace Sys2Proof.Machine

/-- The commands that a scalar's consume fields name: the most recent producers of the tokens (R184, R185). -/
def consumedIds (s : State) (x : Scalar) : List Nat := (consumes x).map fun k => tget 0 s.core.barge.issuedBy k - 1

/-- The command that a barge word queues (R184). -/
def newCmd (s : State) (i : Instr) (k : Nat) (x : Scalar) : Cmd :=
  { id := s.core.barge.nextId, word := (encode i).getD 0, token := k, base := x.toNat % 2 ^ 20 / 256 * 256,
    consume := consumedIds s x }

/-- `BMARK`. -/
def isMark : Instr → Bool
  | .bmark _ _ _ => true
  | _ => false

/-- Does a barge command use its scalar as an address: `BFENCE` and `BMARK` read no view block (R354)? -/
def usesBase : Instr → Bool
  | .bfence _ _ _ _ | .bmark _ _ _ => false
  | _ => true

/-- The commands that Table 9.2 orders before the start of a new command. -/
def pastOf (b : Barge) (i : Instr) (consumed : List Nat) : List Nat :=
  if isMark i then List.range b.nextId
  else if b.lastMark = 0 then consumed
  else (b.lastMark - 1) :: consumed

/-- Queue a command: the token is produced and reads pending from the next cycle on (R185); a poisoned scalar used as an address
taints the task (R293, R347). -/
def queueCmd (s : State) (i : Instr) (k c : BitVec 6) : State :=
  let x := readScalar s c
  let cmd := newCmd s i k.toNat x.1
  (s.taintIf (x.2 && usesBase i)).mapBarge fun b => { b with
    nextId := b.nextId + 1, queue := b.queue ++ [cmd], issuedBy := tset 0 b.issuedBy k.toNat (b.nextId + 1),
    past := tset [] b.past b.nextId (pastOf b i cmd.consume),
    lastMark := if isMark i then b.nextId + 1 else b.lastMark }

/-- `BCOPY` (R357). -/
def execBcopy (k a : BitVec 6) (t : BitVec 2) (c d : BitVec 1) (p : BitVec 3) (s : State) : Out :=
  issueWord (.bcopy k a t c d p) s fun s => queueCmd s (.bcopy k a t c d p) k a

/-- `BGATH` (R359). -/
def execBgath (k a : BitVec 6) (t : BitVec 2) (p : BitVec 3) (s : State) : Out :=
  issueWord (.bgath k a t p) s fun s => queueCmd s (.bgath k a t p) k a

/-- `BSCAT` (R366). -/
def execBscat (k a : BitVec 6) (p : BitVec 3) (s : State) : Out :=
  issueWord (.bscat k a p) s fun s => queueCmd s (.bscat k a p) k a

/-- `BREDA` (R365). -/
def execBreda (k a : BitVec 6) (m : BitVec 3) (t : BitVec 1) (f : BitVec 4) (p : BitVec 3) (s : State) : Out :=
  issueWord (.breda k a m t f p) s fun s => queueCmd s (.breda k a m t f p) k a

/-- `BATOM` (R356). -/
def execBatom (k a : BitVec 6) (c : BitVec 2) (o : BitVec 5) (p : BitVec 3) (s : State) : Out :=
  issueWord (.batom k a c o p) s fun s => queueCmd s (.batom k a c o p) k a

/-- `BFENCE` (R358). -/
def execBfence (k a : BitVec 6) (c : BitVec 2) (p : BitVec 3) (s : State) : Out :=
  issueWord (.bfence k a c p) s fun s => queueCmd s (.bfence k a c p) k a

/-- `BMARK` (R360). -/
def execBmark (k a : BitVec 6) (p : BitVec 3) (s : State) : Out :=
  issueWord (.bmark k a p) s fun s => queueCmd s (.bmark k a p) k a

/-- `BSEAL` (R361). -/
def execBseal (k a : BitVec 6) (p : BitVec 3) (s : State) : Out :=
  issueWord (.bseal k a p) s fun s => queueCmd s (.bseal k a p) k a

/-- `BOPEN` (R361). -/
def execBopen (k a : BitVec 6) (p : BitVec 3) (s : State) : Out :=
  issueWord (.bopen k a p) s fun s => queueCmd s (.bopen k a p) k a

end Sys2Proof.Machine
end

