-- ==== Sys2Proof/Machine/Control.lean ====
section
/-! DEFINITION. The C slot: branches, loops, barriers, waits, segments, traps, cuts and predicate operations (R362 to R448). -/

namespace Sys2Proof.Machine

/-! ### Flow of control -/

/-- Make a bundle index the next to issue (R56). -/
def branchTo (s : State) (t : Nat) : State := s.mapCtl fun c => { c with npc := t }

/-- `NOP`: no effect, no latch (R393). -/
def execNop (s : State) : Out := .next s

/-- `BR` (R362). -/
def execBr (t : BitVec 12) (p : BitVec 3) (s : State) : Out := issueWord (.br t p) s fun s => branchTo s t.toNat

/-- `BRP` (R364). -/
def execBrp (t : BitVec 12) (q p : BitVec 3) (s : State) : Out :=
  issueWord (.brp t q p) s fun s => if readPred s q then branchTo s t.toNat else s

/-- `CALL`: PC + 1 on the return stack, the last pushed at its head (R367). -/
def execCall (t : BitVec 12) (p : BitVec 3) (s : State) : Out :=
  issueWord (.call t p) s fun s => branchTo (s.mapCtl fun c => { c with ret := (c.pc + 1) :: c.ret }) t.toNat

/-- `RET` (R401). -/
def execRet (p : BitVec 3) (s : State) : Out :=
  issueWord (.ret p) s fun s =>
    match s.core.ctl.ret with
    | [] => s
    | t :: ts => branchTo (s.mapCtl fun c => { c with ret := ts }) t

/-- The common part of the loops: LC counts down and the branch is taken while it stays above 0 (R77, R381). -/
def countLoop (s : State) (t : Nat) : State :=
  let lc := s.core.ctl.lc - 1
  let s := s.after 1 (.special 0x08 (lc.zeroExtend 64))
  if lc = 0 then s else branchTo s t

/-- `LOOP` (R381). -/
def execLoop (t : BitVec 12) (p : BitVec 3) (s : State) : Out :=
  issueWord (.loop t p) s fun s => if s.core.ctl.lc = 0 then s else countLoop s t.toNat

/-- `LOOPR`: the new LC, RRB, AWB and stage predicate are in force for the next bundle (R77, R382). -/
def execLoopr (t : BitVec 12) (n : BitVec 2) (w : BitVec 9) (p : BitVec 3) (s : State) : Out :=
  issueWord (.loopr t n w p) s fun s =>
    let c := s.core.ctl
    if c.lc = 0 then s
    else
      let rrb := c.rrb - 1
      let awb := c.awb + w.signExtend 11
      let s := countLoop s t.toNat
      let s := s.after 1 (.special 0x09 (rrb.zeroExtend 64))
      let s := s.after 1 (.special 0x0A (awb.zeroExtend 64))
      s.after 1 (.pred (physP rrb 4) (decide (n.toNat + 1 ≤ (c.lc - 1).toNat)))

/-! ### Barriers and waits -/

/-- Count one arrival at a barrier of a gang: the phase it joins, and the state. The completing arrival, whose bundle issued on
clock `t`, fixes the release (R31, R32). -/
def arriveAt (s : State) (gid b c t : Nat) : Nat × State :=
  let x := tget {} (s.gang gid).barriers b
  let need := if x.need = 0 then c else x.need
  if x.arrived + 1 < need then
    (x.phase, s.mapGang gid fun g => { g with barriers := tset {} g.barriers b { x with need := need, arrived := x.arrived + 1 } })
  else
    (x.phase, s.mapGang gid fun g => { g with
      barriers := tset {} g.barriers b { need := 0, arrived := 0, phase := x.phase + 1 },
      releases := g.releases ++ [(b, x.phase, t + 24 + g.pad)] })

/-- Wait for a condition (R29, R446). -/
def waitFor (s : State) (w : WaitFor) (met : Option Nat) : State :=
  s.mapCtl fun c => { c with status := .waiting, wait := some { on := w, pc := c.pc, met := met } }

/-- `ARRB` (R352). -/
def execArrb (b : BitVec 11) (c : BitVec 12) (p : BitVec 3) (s : State) : Out :=
  issueWord (.arrb b c p) s fun s => (arriveAt s s.core.task.gid b.toNat c.toNat s.clock).2

/-- `WAITB` (R445). -/
def execWaitb (b : BitVec 11) (c : BitVec 12) (p : BitVec 3) (s : State) : Out :=
  issueWord (.waitb b c p) s fun s =>
    let x := arriveAt s s.core.task.gid b.toNat c.toNat s.clock
    waitFor x.2 (.barrier b.toNat x.1) none

/-- STATE of a completion word (Table 8.4). -/
def wordState (w : BitVec 64) : Nat := bits w.toNat 63 61

/-- WP of a completion word (Table 8.4). -/
def wordWp (w : BitVec 64) : Nat := bits w.toNat 20 0

/-- Does a wait's condition hold on the completion words as they stand (R446)? A barrier's is its release alone (R32). -/
def waitHolds (b : Barge) : WaitFor → Bool
  | .barrier _ _ => false
  | .token id => decide (wordState (tget 0 b.words id) ≠ 0)
  | .pointer id n => decide (wordState (tget 0 b.words id) ≠ 0) || decide (n ≤ wordWp (tget 0 b.words id))

/-- The command that most recently produced a token. -/
def producer (s : State) (k : Nat) : Nat := tget 0 s.core.barge.issuedBy k - 1

/-- `WAITT` (R448). -/
def execWaitt (k : BitVec 6) (p : BitVec 3) (s : State) : Out :=
  issueWord (.waitt k p) s fun s =>
    let w := WaitFor.token (producer s k.toNat)
    waitFor s w (if waitHolds s.core.barge w then some s.clock else none)

/-- `WAITP`: a poisoned count taints the task (R447). -/
def execWaitp (k a : BitVec 6) (p : BitVec 3) (s : State) : Out :=
  issueWord (.waitp k a p) s fun s =>
    let n := readScalar s a
    let w := WaitFor.pointer (producer s k.toNat) n.1.toNat
    waitFor (s.taintIf n.2) w (if waitHolds s.core.barge w then some s.clock else none)

/-- `TRIG`: marked once the bundle's own commands are issued (R34, R427). -/
def execTrig (p : BitVec 3) (s : State) : Out := issueWord (.trig p) s fun s => s.after 1 (.special 0x101 0)

/-- `END`: issue ends with this bundle (R372). -/
def execEnd (p : BitVec 3) (s : State) : Out := issueWord (.endTask p) s fun s => s.after 1 (.special 0x102 0)

/-! ### Segments -/

/-- `SEG` (R79, R408): a poisoned expected value taints the task. SGSC and SGSH count the bundle when it ends. -/
def execSeg (e g : BitVec 6) (m : BitVec 1) (p : BitVec 3) (s : State) : Out :=
  issueWord (.seg e g m p) s fun s =>
    let x := readScalar s e
    let y := readScalar s g
    (loseLatches (s.taintIf (x.2 || y.2))).mapCtl fun c => { c with
      ecnt := x.1.truncate 32, esig := y.1.truncate 32, sgsc := 0, sgsh := 0, inseg := true }

/-- Is any poison tag of v, s, q, m or an accumulator row set (R410)? -/
def anyPoison (r : Regs) : Bool :=
  r.vPoison.any (fun x => x.2) || r.sPoison.any (fun x => x.2) || r.mPoison.any (fun x => x.2) || r.accPoison.any (fun x => x.2) ||
    r.q.any fun x => x.2.poison

/-- `SEGE`: its accumulators agree, or the bundle would not take effect; the segment closes after the bundle is counted
(R410). -/
def execSege (p : BitVec 3) (s : State) : Out :=
  issueWord (.sege p) s fun s => (s.taintIf (anyPoison s.core.regs)).after 1 (.special 0x100 0)

/-- `IFENCE`: later fetches see every `.code` copy that the task has observed complete (R376). -/
def execIfence (p : BitVec 3) (s : State) : Out :=
  issueWord (.ifence p) s fun s =>
    let seen := s.core.barge.observed
    s.mapCore fun t => { t with isram := { t.isram with unseen := dropSeen (fun x => x.1) (fun x => seen.contains x.2.1) t.isram.unseen } }

/-! ### Traps, cuts, queries -/

/-- `BRK` (R363). -/
def execBrk (c : BitVec 8) (p : BitVec 3) (s : State) : Out := issueWord (.brk c p) s fun s => takeSoftTrap s 9 c.toNat

/-- `TRAP` (R426). -/
def execTrap (c : BitVec 8) (p : BitVec 3) (s : State) : Out := issueWord (.trap c p) s fun s => takeSoftTrap s 10 c.toNat

/-- A request to cut a job: it merges into a cut that is pending or whose hold stands (R225). A request of the device turns a pending cut of
the job into one of the device. -/
def requestCut (s : State) (pasid : Nat) (dev : Bool) : State :=
  s.mapJob pasid fun j => { j with cut := match j.cut with
    | some (.pending d) => some (.pending (d || dev))
    | some c => some c
    | none => some (.pending dev) }

/-- `SNAP.job` (R419). -/
def execSnap (p : BitVec 3) (s : State) : Out := issueWord (.snap p) s fun s => requestCut s s.core.task.pasid false

/-- The code of a generation state (Table 10.1). -/
def genCode : GenState → Nat
  | .draining => 2
  | .drained => 3
  | .released => 4
  | .failed => 5

/-- Has a cut of the job been requested and not yet taken (R375)? -/
def cutWaits (j : Job) : Bool :=
  match j.cut with
  | some (.pending _) | some (.running _ _ _) => true
  | _ => false

/-- State and undrained rows in a tile's vault of a generation (R238, R375). -/
def queryGen (j : Job) (tile g : Nat) : Nat × Nat :=
  if j.gen < g then (6, 0)
  else if j.gen = g then (if cutWaits j then 1 else 0, 0)
  else
    match j.gens.find? fun x => x.num == g with
    | some x => if j.knows x then (genCode x.state, (tget {} x.images tile).rowsLeft) else (6, 0)
    | none => (6, 0)

/-- `GENQ` (R238). -/
def execGenq (d a : BitVec 6) (p : BitVec 3) (s : State) : Out :=
  issueWord (.genq d a p) s fun s =>
    let x := readScalar s a
    let g := bits x.1.toNat 31 0
    let r := queryGen (s.job s.core.task.pasid) s.cur g
    scalarResult s 0 d 2 (BitVec.ofNat 64 (place r.1 61 + place r.2 32 + g), x.2)

/-! ### Predicates (R395) -/

/-- `PAND`. -/
def execPand (d a b p : BitVec 3) (s : State) : Out :=
  issueWord (.pand d a b p) s fun s => predResult s d (readPred s a && readPred s b)

/-- `POR`. -/
def execPor (d a b p : BitVec 3) (s : State) : Out :=
  issueWord (.por d a b p) s fun s => predResult s d (readPred s a || readPred s b)

/-- `PXOR`. -/
def execPxor (d a b p : BitVec 3) (s : State) : Out :=
  issueWord (.pxor d a b p) s fun s => predResult s d (readPred s a != readPred s b)

/-- `PNOT`. -/
def execPnot (d a p : BitVec 3) (s : State) : Out :=
  issueWord (.pnot d a p) s fun s => predResult s d (!readPred s a)

end Sys2Proof.Machine
end

