-- ==== Sys2Proof/Machine/Graph.lean ====
section
/-! DEFINITION. Completion words, triggers and edges of the hardware task graph, completion records, the completion of tasks and
launches, and the end of tasks by cancel or abort (R21 to R23, R34 to R37, R45, R273 to R275). -/

namespace Sys2Proof.Machine

/-! ### Words of packets and records -/

/-- Word `i` of a packet. -/
def pword (p : List Scalar) (i : Nat) : Nat := (p.getD i 0).toNat

/-- The code of a verdict (Table 12.6). -/
def verdictCode : Verdict → Nat
  | .clean => 0
  | .corrected => 1
  | .tainted => 2

/-- The memory space of a record-space code (RSP of Table 12.5); in host memory, that of the PASID of the queue (R270). -/
def recordSpace (job c : Nat) : Option MemSpace :=
  if c = 1 then some .reservoir else if c = 2 then some (.host job) else if c = 3 then some .queueSram else none

/-- The four words of a completion record (Table 12.6). -/
def recordWords (err : Nat) (canc : Bool) (verd state gid ox oy tclk cclk : Nat) : List Nat :=
  [place err 16 + place canc.toNat 7 + place verd 5 + state, place gid 52 + place ox 48 + place oy 44, tclk, cclk]

/-- Write a completion record where a packet of a job's queue names one (R270). A record in frames that are not there is lost, and the packet has its other
effects: DESIGN CHOICE (log entry 28). -/
def writeRecord (s : State) (job : Nat) (p : List Scalar) (ws : List Nat) : State :=
  let a := bits (pword p 5) 47 0
  match recordSpace job (bits (pword p 5) 49 48) with
  | none => s
  | some sp => if s.mem.fits sp a 32 then s.writeSpace sp a (ws.flatMap (bytesOf 8)) else s

/-- Raise an MSI-X vector. -/
def raiseVector (s : State) (v : Nat) : State := s.mapLk fun l => { l with msix := l.msix ++ [v] }

/-! ### Edges (R34 to R37, R274, R275) -/

/-- A node is in use from its launch packet until its completion is written (R273). -/
def Node.inUse (n : Node) : Bool := decide (n.life ≠ .free)

/-- The nodes in use. -/
def nodesInUse (s : State) : List Nat := (s.lk.nodes.filter fun x => x.2.inUse).map Prod.fst

/-- Is every incoming edge satisfied? -/
def Node.satisfied (n : Node) : Bool := n.edges.all Edge.satisfied

/-- A waiting node whose every edge is satisfied becomes ready (R274). -/
def becomeReady (s : State) (n : Nat) : State :=
  let x := s.node n
  if x.life = .waiting && x.satisfied then
    (s.mapNode n fun x => { x with
      life := .ready, readyAt := s.clock, prio := bits (pword x.packet 0) 5 4, reserved := false, waited := 0 }).mapLk fun l => { l with order := l.order ++ [n] }
  else s

/-- The edges of a node, with those that leave `src` changed. -/
def Node.mapEdges (x : Node) (src : Nat) (f : Edge → Edge) : Node :=
  { x with edges := x.edges.map fun e => if e.src == src && !e.final then f e else e }

/-- Change the edges that leave node `src` towards nodes of the same job, then see which nodes become ready. -/
def updateEdges (s : State) (src : Nat) (f : Edge → Edge) : State :=
  let owner := (s.node src).owner
  let ns := (s.lk.nodes.filter fun x => x.2.inUse && decide (x.2.owner = owner) && x.2.edges.any fun e => e.src == src && !e.final).map
    Prod.fst
  let s := ns.foldl (fun s n => s.mapNode n fun x => x.mapEdges src f) s
  ns.foldl becomeReady s

/-- The place of a saved tile: by its gang and its task (R289). -/
def savedKey (gid tix : Nat) : Nat := 65536 * gid + tix

/-- The task of a launch on a tile, as it stands there or, when the launch is saved, as it stood (R292). -/
def taskTile (s : State) (n tile : Nat) : Tile :=
  let x := s.node n
  let g := s.gang x.gid
  if x.saved then tget {} s.saved (savedKey x.gid (g.firstTix + g.tiles.idxOf tile)) else s.tile tile

/-- The commands of a launch on a tile that its early edges order: those below the bound were issued before `TRIG`, or before the task
ended without one (R34, R36, R46). A tile that runs no task of the launch has none. -/
def earlyBound (s : State) (n tile : Nat) : Nat :=
  let t := taskTile s n tile
  if t.task.node ≠ n then 0 else if t.task.trig || t.task.triggered then t.task.trigBound else t.barge.nextId

/-- Every task of the source has triggered: its early edges are satisfied, and what its tasks wrote before is visible to the dependants (R35,
R36, R216). -/
def earlySatisfied (s : State) (src : Nat) : State :=
  let gave := s.lk.nodes.any fun x => x.2.inUse && x.2.edges.any fun e => e.src == src && e.early && !e.final
  let s := s.mapNode src fun x => { x with earlyDone := true, gaveEarly := x.gaveEarly || gave }
  let before (u : Unfenced) : Bool := u.node == src && decide (u.id < earlyBound s src u.tile)
  let s := s.mapMem fun m => { m with unfenced := m.unfenced.map fun u => if before u then { u with early := true } else u }
  updateEdges s src fun e => if e.early then { e with satisfied := true } else e

/-- A dependant over an early edge carries the verdict of its source: it keeps what it inherits through a reissue (R37). -/
def Node.inherit (x : Node) (v : Verdict) : Node := { x with inherited := x.inherited.worst v, verdict := x.verdict.worst v }

/-- The source's record is written: late edges are evaluated by their policy, and a dependant over an early edge inherits the
verdict (R35, R37). -/
def recordEdges (s : State) (src : Nat) (v : Verdict) : State :=
  let ns := (s.lk.nodes.filter fun x => x.2.inUse && x.2.edges.any fun e => e.src == src && !e.final && e.early).map Prod.fst
  let s := ns.foldl (fun s n => s.mapNode n fun x => x.inherit v) s
  updateEdges s src fun e =>
    let e := { e with final := true }
    if e.satisfied then e
    else if e.pass || decide (v ≠ .tainted) then { e with satisfied := true }
    else { e with blocked := true }

/-! ### Completion records (R22, R270) -/

/-- May the record of a counted launch be written: every early source has written its own (R22)? -/
def recordDue (s : State) (n : Nat) : Bool :=
  let x := s.node n
  decide (x.life = .counted) && x.edges.all fun e => !e.early || e.final

/-- A node that is free again: it stays assigned, and keeps the graph of its last launch and the last verdict of each job (R273,
R275). -/
def Node.freed (x : Node) (v : Verdict) : Node :=
  { owner := x.owner, graph := x.graph, last := match x.owner with
    | some p => tset none x.last p (some v)
    | none => x.last }

/-- Write the launch completion record: the node's verdict is final, its edges are evaluated, and the node is free (R22, R273).
Every write of the launch is visible at fabric scope. -/
def writeLaunchRecord (s : State) (n : Nat) : State :=
  let x := s.node n
  let s := writeRecord s (x.owner.getD 0) x.packet
    (recordWords 0 x.canceled (verdictCode x.verdict) 2 x.gid x.ox x.oy x.tclk x.cclk)
  let s := if (pword x.packet 0).testBit 7 then raiseVector s x.vec else s
  let s := s.show fun u => u.node == n
  let s := recordEdges s n x.verdict
  s.mapNode n fun y => y.freed x.verdict

/-! ### Completion words and triggers -/

/-- A completion word (Table 8.4). A count that its field of 21 bits cannot hold is taken modulo 2^21: DESIGN CHOICE (log entry 53). -/
def completionWord (state err frames wp : Nat) : BitVec 64 :=
  BitVec.ofNat 64 (place state 61 + place err 56 + place (frames % 2 ^ 21) 32 + wp % 2 ^ 21)

/-- A write of a completion word meets the wait of the task that waits for it (R446). -/
def meetWait (s : State) : State :=
  s.mapCtl fun c =>
    match c.wait with
    | some w => if w.met.isNone && waitHolds s.core.barge w.on then { c with wait := some { w with met := some s.clock } } else c
    | none => c

/-- Has the task checked out met the conditions of a trigger (R34)? -/
def triggerDue (s : State) : Bool :=
  let t := s.core.task
  t.trig && !t.triggered && !(s.core.barge.queue.any fun c => decide (c.id < t.trigBound))

/-- The task checked out triggers: when it is the last of its launch, the early edges are satisfied, unless the launch is to be
reissued (R286). -/
def trigger (s : State) : State :=
  if s.core.task.triggered then s
  else
    let s := s.mapTask fun t => { t with triggered := true, trigBound := if t.trig then t.trigBound else s.core.barge.nextId }
    let n := s.core.task.node
    let s := s.mapNode n fun x => { x with untriggered := x.untriggered - 1 }
    if (s.node n).untriggered = 0 && (s.node n).life = .running && !(s.gang s.core.task.gid).reissue then earlySatisfied s n else s

/-- See whether the task triggers. -/
def checkTrigger (s : State) : State := if triggerDue s then trigger s else s

/-- A command of the tile checked out ends: its completion word is written last (R190), a corrected one raises the verdict
(R191), and it is no longer outstanding. One that ends failed or partial leaves the verdict (R191); what a correction in staging did to it
stands (R177, log entry 45). -/
def finishCmd (s : State) (id state err frames wp : Nat) : State :=
  let s := s.correctIf (decide (state = 2))
  let s := s.mapBarge fun b => { b with
    words := tset 0 b.words id (completionWord state err frames wp), queue := b.queue.filter fun c => c.id != id,
    walks := b.walks.filter fun w => w.id != id, misses := b.misses.filter fun m => m != id }
  checkTrigger (meetWait s)

/-! ### Completion of tasks and launches (R21) -/

/-- A tile given up by its gang: what belongs to the task's context is gone; staging, instruction SRAM, vault, lookaside and
registers stand, the barge goes on numbering its commands, and the completion words of the tokens hold their final states until the next
task starts there (R221, R470). -/
def freeTile (t : Tile) : Tile :=
  { t with ctl := {}, task := {}, results := [], canal := {},
           barge := { lookaside := t.barge.lookaside, nextId := t.barge.nextId, words := t.barge.words, issuedBy := t.barge.issuedBy } }

/-- A gang leaves the phase that counts it (R42). -/
def leavePhase (s : State) (g : Nat) : State :=
  if (s.gang g).counted then
    (s.mapGang g fun x => { x with counted := false }).mapJob (s.gang g).pasid fun j =>
      { j with phaseLeft := j.phaseLeft - 1, phaseNum := if j.phaseLeft = 1 then j.phaseNum + 1 else j.phaseNum }
  else s

/-- The tiles of a gang as they stand, on the grid or saved. -/
def gangTiles (s : State) (gid : Nat) : List Tile :=
  let g := s.gang gid
  (List.range (g.w * g.h)).map fun i =>
    let key := savedKey gid (g.firstTix + i)
    if (s.saved.any fun x => x.1 == key) then tget {} s.saved key else s.tile (g.tiles.getD i 0)

/-- The bytes of a context area (R290). -/
def contextBytes : Nat := 0x200000

/-- The context areas of the tasks of a gang. -/
def contextsOf (s : State) (g : Nat) : List Nat :=
  (gangTiles s g).map fun t => t.task.ctx

/-- A gang is gone: its tiles are free, its rows in flight, its context areas and its identifier are given up. -/
def dropGang (s : State) (g : Nat) : State :=
  let x := s.gang g
  let s := (leavePhase s g).mapMem fun m =>
    (contextsOf s g).foldl (fun m a => m.giveBack (a / Config.frameBytes) (framesOf contextBytes)) m
  let s := if x.placed then x.tiles.foldl (fun s n => s.mapTile n freeTile) s else s
  { s with gangs := tdel s.gangs g, flights := s.flights.filter fun f => f.gid != g,
           saved := tclear s.saved (savedKey g 0) (savedKey (g + 1) 0) }

/-- Every task of the launch is complete: the counter reaches zero, and the gang ends (R21). A launch that a cancel met is tainted
(R44). A launch to be reissued becomes ready again from its retained packet, with a verdict of at least corrected and with what it
has inherited (R37, R286); one that has satisfied an early edge by now ends as an abort (R286). DESIGN CHOICE (log entry 33): its wait
starts again from 0 with the reissue. -/
def endLaunch (s : State) (n : Nat) : State :=
  let g := (s.node n).gid
  let x := s.gang g
  if x.reissue && !(s.node n).gaveEarly then
    ((dropGang s g).mapNode n fun y => { y with
      life := .ready, verdict := y.inherited.worst .corrected, reissues := y.reissues + 1, readyAt := s.clock, tasksLeft := 0, untriggered := 0,
      saved := false, prio := bits (pword y.packet 0) 5 4, reserved := false, waited := 0, earlyDone := false }).mapLk fun l => { l with order := l.order ++ [n] }
  else
    let s := if (s.node n).earlyDone then s else earlySatisfied s n
    (dropGang s g).mapNode n fun y => { y with
      life := .counted, cclk := s.clock, verdict := if x.tainted || y.canceled then .tainted else y.verdict }

/-- The task checked out is complete: its verdict joins the launch's, and a task that has not triggered triggers (R23, R34). -/
def completeTask (s : State) : State :=
  let n := s.core.task.node
  let s := trigger (s.mapTask fun t => { t with complete := true })
  let s := s.mapNode n fun x => { x with verdict := x.verdict.worst s.core.ctl.verdict, tasksLeft := x.tasksLeft - 1 }
  if (s.node n).tasksLeft = 0 then endLaunch s n else s

/-! ### End by cancel or abort (R45) -/

/-- A command of an ended task: one that has not begun fails with CANCEL, one in progress stops after its current piece. -/
def stopCmd (s : State) (c : Cmd) : State :=
  if c.started then
    s.mapBarge fun b => { b with queue := b.queue.map fun d =>
      if d.id == c.id then { d with stop := some (d.stop.getD 4) } else d }
  else finishCmd s c.id 3 4 0 0

/-- The counter of a task that runs on a tile (Table 2.1). -/
def tileCounter (t : Tile) : Nat :=
  (decide (t.ctl.status ≠ .ended)).toNat + t.barge.queue.length

/-- The task checked out ends at the hold point, tainted (R23, R45). Results in flight are discarded (R82). A task whose counter has reached
zero keeps its verdict (R44); its trap record, if it left one, is done with. -/
def endTaskHere (s : State) : State :=
  if s.core.ctl.status = .idle || s.core.task.complete then s
  else if tileCounter s.core = 0 then s.mapCtl fun c => { c with trap := none }
  else
    let s := s.mapCore fun t => { t with results := [], canal := { t.canal with latches := [] } }
    let s := s.mapCtl fun c => { c with status := .ended, verdict := .tainted, wait := none, trap := none, inseg := false }
    s.core.barge.queue.foldl stopCmd s

/-- Is any trap record left on the tiles of a gang? -/
def gangTrapped (s : State) (g : Nat) : Bool := (s.gang g).tiles.any fun n => (s.tile n).ctl.trap.isSome

/-- The hold point of a cancel or abort: the tasks listed end, and the trap is resolved when no record is left (R41). -/
def endTasksAtHold (s : State) (g : Nat) : State :=
  let x := s.gang g
  let s := x.tiles.foldl (fun s n => s.onTile n fun s =>
    if x.ending.contains s.core.task.tix then endTaskHere s else s) s
  let s := s.mapGang g fun y => { y with ending := [] }
  let s := s.clearHold g .cancel
  if (s.gang g).causes.contains .trap && !gangTrapped s g then
    (s.mapGang g fun y => { y with firstTrap := none, signalled := false }).clearHold g .trap
  else s

/-- Ask that the tasks of a gang end at the hold point: at once when the gang is held already. -/
def requestEnd (s : State) (g : Nat) (tixs : List Nat) : State :=
  let s := s.mapGang g fun x => { x with ending := x.ending ++ tixs.filter fun t => !(x.ending.contains t) }
  let s := s.requestHold g .cancel
  if (s.gang g).held then endTasksAtHold s g else s

/-- Every task of a gang in this package, by TIX (R25). -/
def allTasks (g : Gang) : List Nat := (List.range (g.w * g.h)).map fun i => g.firstTix + i

/-- A launch that will issue no bundle leaves its queue or the ready set, with a record that says so (Table 2.3). DEDUCED (log entry
33): its early edges count as satisfied, as R46 says of a task that ends by cancel. -/
def cancelUnstarted (s : State) (n : Nat) (gid ox oy : Nat) : State :=
  let s := s.mapLk fun l => { l with order := l.order.filter fun m => m != n }
  let s := s.mapNode n fun x => { x with
    life := .counted, verdict := .tainted, canceled := true, gid := gid, ox := ox, oy := oy, tclk := 0, cclk := s.clock }
  let s := if (s.node n).earlyDone then s else earlySatisfied s n
  writeLaunchRecord s n

/-- A pre-empted launch whose first bundle has issued ends with its saved tasks (Table 2.3). -/
def cancelSaved (s : State) (n : Nat) : State :=
  let x := s.node n
  let s := s.mapLk fun l => { l with order := l.order.filter fun m => m != n }
  let s := if x.earlyDone then s else earlySatisfied s n
  (dropGang s x.gid).mapNode n fun x => { x with
    life := .counted, verdict := .tainted, canceled := true, cclk := s.clock, saved := false, untriggered := 0, tasksLeft := 0 }

/-- A cancel of the launch at a node (Table 2.3). A reissued launch that stands ready again counts as not dispatched: DESIGN CHOICE (log
entry 41). -/
def cancelLaunch (s : State) (n : Nat) : State :=
  let x := s.node n
  match x.life with
  | .free | .counted => s
  | .waiting => cancelUnstarted s n 0 0 0
  | .ready => if x.saved then cancelSaved s n else cancelUnstarted s n 0 0 0
  | .running =>
    let g := s.gang x.gid
    if x.saved then cancelSaved s n
    else if g.life = .started then
      let s := s.mapNode n fun x => { x with canceled := true }
      requestEnd (s.mapGang x.gid fun y => { y with reissue := false }) x.gid (allTasks g)
    else cancelUnstarted (dropGang s x.gid) n x.gid x.ox x.oy

end Sys2Proof.Machine
end

