-- ==== Sys2Proof/Machine/Gen.lean ====
section
/-! DEFINITION. Generations: the cut, the generation record and its lists, the drainer, restore (R223 to R239, R473), and the
creation of jobs, partitions and tensors (R141, R180, R223). -/

namespace Sys2Proof.Machine

/-! ### Cuts (R225, R227) -/

/-- Generations that count towards the eight of R225. -/
def countedGens (j : Job) : Nat := (j.gens.filter Gen.retained).length

/-- Does R225 allow the job's next cut? -/
def cutAllowed (j : Job) : Bool :=
  decide (countedGens j < 8) &&
    match j.gens with
    | [] => true
    | g :: _ => decide (g.state ≠ .draining)

/-- The gangs of a job that have started and hold their tiles. -/
def gangsOf (s : State) (p : Nat) : List Nat :=
  (s.gangs.filter fun g => decide (g.2.pasid = p) && decide (g.2.life = .started)).map Prod.fst

/-- The gangs of a job that are placed, started or not. -/
def placedGangs (s : State) (p : Nat) : List Nat := (s.gangs.filter fun g => g.2.pasid == p && g.2.placed).map Prod.fst

/-- The largest padded latency of the gangs listed. -/
def largestPad (s : State) (gs : List Nat) : Nat := gs.foldl (fun m g => max m (s.gang g).pad) 0

/-- Clone each row of the tile checked out that is open with write intent and has no clone; bank state does not change (R227). -/
def cloneOpenRows (s : State) : State :=
  forEach s (fun s n =>
    let b := bankOf s n
    if b.modeAt s.clock = .active && b.intent && !(rowGen s n b.row).cloned then cloneRow s n b.row else s) (List.range 64)

/-- The open-row clones of every tile of a gang, made on the last cycle before the cut instant (R227). -/
def cloneGangRows (s : State) (g : Nat) : State := (s.gang g).tiles.foldl (fun s n => s.onTile n cloneOpenRows) s

/-- Is the job's cut pending? -/
def cutPending (j : Job) (dev : Bool) : Bool := j.cut == some (.pending dev)

/-- The jobs of a cut's scope (R40): for the device, those whose request waits as one of the device; a job whose own cut is entering
has merged it into that one (R225). -/
def cutScope (s : State) (dev : Bool) (p : Nat) : List Nat :=
  if dev then (s.jobs.filter fun j => j.2.live && cutPending j.2 true).map Prod.fst else [p]

/-- May the pending cut of the scope be requested now? It may while a restore of a job of the scope runs: DESIGN CHOICE (log entry 68). -/
def cutReady (s : State) (dev : Bool) (p : Nat) : Bool :=
  let ps := cutScope s dev p
  !ps.isEmpty && ps.all fun q => cutPending (s.job q) dev && cutAllowed (s.job q)

/-- A request of the device scope reaches every live job, unless one waits already, into which it merges (R225, R226). -/
def requestDeviceCut (s : State) : State :=
  if s.jobs.any fun j => j.2.live && cutPending j.2 true then s
  else ((s.jobs.filter fun j => j.2.live).map Prod.fst).foldl (fun s q => requestCut s q true) s

/-- Fix the cut instant of the scope at t′ + 256 + P, and request its holds, which take effect at t′ + 16 + P for every gang of the
scope (R227). A gang that is placed and has not started is one of the scope, and starts only when the cut hold has ended: DEDUCED (log entry
22). -/
def beginCut (s : State) (dev : Bool) (p : Nat) : State :=
  let ps := cutScope s dev p
  let gs := ps.flatMap (placedGangs s)
  let pad := largestPad s gs
  let s := ps.foldl (fun s q => s.mapJob q fun j => { j with cut := some (.running dev (s.clock + 256 + pad) pad) }) s
  gs.foldl (fun s g => s.requestScopeHold g .cut pad) s

/-- `CUT_REQUEST`: a request of the device scope, which the Lockkeeper makes, first becomes pending in every job (R226); a
pending cut is requested once R225 allows it (R227). -/
def execCutRequest (dev : Bool) (p : Nat) (s : State) : Out :=
  let s := if dev then requestDeviceCut s else s
  .next (if cutReady s dev p then beginCut s dev p else s)

/-! ### The generation record (R237, R473) -/

/-- The words of a generation record (Table 10.3). -/
def genRecord (p : Nat) (g : Gen) : List Nat :=
  let rows := g.images.foldl (fun n x => n + x.2.rowsLeft) 0
  [place g.dev.toNat 55 + place (genCode g.state) 52 + place p 32 + g.num, g.cutClock, g.vdir, g.flist, g.dlist,
   place g.poisoned 32 + g.inflight, g.iflist, rows] ++ List.replicate 8 0

/-- Write the record of a generation as it stands. -/
def writeGenRecord (s : State) (p : Nat) (g : Gen) : State :=
  s.mapMem fun m => m.store .reservoir g.record ((genRecord p g).flatMap (bytesOf 8))

/-- Change one generation of a job and its record. -/
def mapGen (s : State) (p num : Nat) (f : Gen → Gen) : State :=
  match (s.job p).gens.find? fun g => g.num == num with
  | none => s
  | some g =>
    let s := s.mapJob p fun j => { j with gens := j.gens.map fun x => if x.num == num then f x else x }
    writeGenRecord s p (f g)

/-- The words of a descriptor entry (Table 10.7). -/
def descWords (num : Nat) (d : Desc) : List Nat :=
  let shifts := (d.tile.zipIdx).foldl (fun x t => x + place (Nat.log2 t.1) (5 * t.2)) 0
  [place d.host.toNat 45 + place d.sealed.toNat 44 + place d.fmt.toNat 40 + place d.shape.length 36 + place d.count 24 + num,
   d.root, shifts] ++ d.shape ++ List.replicate (13 - d.shape.length) 0

/-- The bytes of a descriptor list: its header, and one entry for each live tensor. -/
def descListBytes (ts : Table Desc) : List Byte :=
  let live := ts.filter fun d => d.2.live
  (live.length :: 0 :: live.flatMap fun d => descWords d.1 d.2).flatMap (bytesOf 8)

/-- VIEW of an in-flight command of the tile checked out: the block it read at its start, or the block as it stands (R229). The second is a
read of staging: a unit whose error cannot be corrected gives free bytes and tags its line, a correction raises the verdict (R10, R177, R295).
DEDUCED (log entry 45). -/
def flightView (s : State) (c : Cmd) : List Nat × State :=
  if c.started then (c.view.map BitVec.toNat, s)
  else
    let r := heldUnits s (unitsOf c.base 256)
    (r.1.map fun x => x.value.toNat, r.2.correctIf (r.1.any UnitValue.fixed))

/-- The entry of an in-flight command of tile `n` (Table 10.4): FRAMES counts the pieces written (R229), modulo 2^21 where its field of 21 bits
cannot hold the count: DESIGN CHOICE (log entry 53). -/
def flightWords (n gid : Nat) (c : Cmd) (view : List Nat) : List Nat :=
  let w := c.word.toNat
  [place (c.done % 2 ^ 21) 21 + place (bits w 31 26) 15 + place (bits w 13 8) 9 + place (bits w 7 3) 4,
   place gid 52 + place (tileX n) 48 + place (tileY n) 44 + place c.token 38, 0, 0] ++
    view ++ List.replicate (32 - view.length) 0 ++ [0, 0, 0, 0]

/-- The entries of the commands of the tile checked out, in the order of issue. -/
def flightsHere : State → List Cmd → List (List Nat) × State
  | s, [] => ([], s)
  | s, c :: cs =>
    let v := flightView s c
    let r := flightsHere v.2 cs
    (flightWords s.cur s.core.task.gid c v.1 :: r.1, r.2)

/-- The tiles of the job's started gangs, in increasing number. -/
def jobTiles (s : State) (p : Nat) : List Nat :=
  (List.range Config.tiles).filter fun n => (gangsOf s p).any fun g => (s.gang g).tiles.contains n

/-- The in-flight entries of the tiles listed: by tile, in the order of issue. -/
def flightList : State → List Nat → List (List Nat) × State
  | s, [] => ([], s)
  | s, n :: ns =>
    let x := s.select n
    let r := flightsHere x x.core.barge.queue
    let rs := flightList (r.2.select s.cur) ns
    (r.1 ++ rs.1, rs.2)

/-- Bytes of the image of a partition: 98,304 for each row number. -/
def imageSize (vpb vpl : Nat) : Nat := 98304 * (vpl - vpb)

/-- The run of frames that `n` bytes from `a`, as the MMP allocates them, take. -/
def runOf (a n : Nat) : Nat × Nat := (a / Config.frameBytes, framesOf n)

/-- Allocate the image of one tile: its frame table, its frames and its poison map; and the runs that they take. -/
def allocImage (m : Mem) (vpb vpl : Nat) : (TileImage × List (Nat × Nat)) × Mem :=
  let frames := framesOf (imageSize vpb vpl)
  let a := m.allocate (8 * frames)
  let b := a.2.allocateFrames frames
  let c := b.2.allocate (8 * (vpl - vpb))
  let table := (b.1.flatMap fun r => (List.range r.2).map fun k => r.1 + k).flatMap (bytesOf 8)
  (({ vpb := vpb, vpl := vpl, imgtab := a.1, pmap := c.1, rowsLeft := 64 * (vpl - vpb) },
      runOf a.1 (8 * frames) :: runOf c.1 (8 * (vpl - vpb)) :: b.1),
    c.2.store .reservoir a.1 table)

/-- The images of every tile on which the job holds a partition, and the runs that they take. -/
def allocImages : Table (Nat × Nat) → Mem → (Table TileImage × List (Nat × Nat)) × Mem
  | [], m => (([], []), m)
  | x :: xs, m =>
    let a := allocImage m x.2.1 x.2.2
    let r := allocImages xs a.2
    (((x.1, a.1.1) :: r.1.1, a.1.2 ++ r.1.2), r.2)

/-- The words of a directory entry (Table 10.5). -/
def dirWords (im : TileImage) : List Nat := [2 ^ 63 + place im.vpl 16 + im.vpb, im.imgtab, im.pmap, 0]

/-- The bytes of the directory: 256 entries, those of tiles without a partition all zero. -/
def dirBytes (ims : Table TileImage) : List Byte :=
  ((List.range Config.tiles).flatMap fun n =>
    match ims.find? fun x => x.1 == n with
    | some x => dirWords x.2
    | none => [0, 0, 0, 0]).flatMap (bytesOf 8)

/-- Frames that belong to a job. -/
def framesOfJob (s : State) (p : Nat) : Nat := (s.mem.frames.filter fun f => f.2.1 == p + 1).length

/-- The memory of a generation that cannot be kept: its record alone, when one more frame is free (R235, R237). -/
def failedRecord (m : Mem) : Nat × Mem :=
  if m.room 128 then m.allocate 128 else (0, m)

/-- Close generation GEN of a job at the cut instant: the open rows are cloned, the record and its lists are written, every row is
undrained, and the generation is Draining, or Drained when it has no vault row (R224, R227, R237). The cut hold stands until the resume
(R227). An allocation that fails fails it, and its record says so and names no list. DESIGN CHOICE (log entry 29). That the clones are
made in the step of the instant itself is one too (log entry 47). -/
def closeGen (s : State) (p : Nat) (dev : Bool) (pad : Nat) : State :=
  let s := (gangsOf s p).foldl cloneGangRows s
  let j := s.job p
  let entries := flightList s (jobTiles s p)
  let fl := entries.1
  let s := entries.2
  let na := 128
  let nb := 32 * Config.tiles
  let nc := 16 + 16 * framesOfJob s p
  let nd := 16 + 128 * (j.tensors.filter fun t => t.2.live).length
  let ne := 320 * fl.length
  let a := s.mem.allocate na
  let b := a.2.allocate nb
  let c := b.2.allocate nc
  let d := c.2.allocate nd
  let e := d.2.allocate ne
  let im := allocImages (j.parts.filter fun x => decide (x.2.1 < x.2.2)) e.2
  let ok := decide (im.2.nextFrame ≤ s.mem.capacity)
  let lone := failedRecord s.mem
  let g : Gen :=
    if ok then
      { num := j.gen, state := if im.1.1.isEmpty then .drained else .draining, dev := dev, cutClock := s.clock, record := a.1,
        vdir := b.1, flist := c.1, dlist := d.1, iflist := e.1, inflight := fl.length, poisoned := 0, copies := [], images := im.1.1,
        descs := j.tensors,
        runs := [runOf a.1 na, runOf b.1 nb, runOf c.1 nc, runOf d.1 nd, runOf e.1 ne] ++ im.1.2 }
    else
      { num := j.gen, state := .failed, dev := dev, cutClock := s.clock, record := lone.1, vdir := 0, flist := 0, dlist := 0,
        iflist := 0, inflight := 0, poisoned := 0, copies := [], images := [], descs := j.tensors }
  let lists : List (Nat × List Byte) := [(b.1, dirBytes im.1.1), (c.1, copyListBytes []), (d.1, descListBytes j.tensors),
    (e.1, fl.flatten.flatMap (bytesOf 8))]
  let s := s.mapMem fun _ => if ok then lists.foldl (fun m x => m.store .reservoir x.1 x.2) im.2 else lone.2
  let s := s.mapJob p fun j => { j with
    gen := j.gen + 1, cuts := j.cuts + 1, cut := some (.closing dev (s.clock + 16 + pad)), gens := g :: j.gens }
  let s := if g.record = 0 then s else writeGenRecord s p g
  let s := if ok then s else s.cleanRows p
  (placedGangs s p).foldl (fun s g => s.clearScopeHold g .cut pad) s

/-- `CUT_INSTANT`: the cut instant of a job, and then the end of its cut hold (R227). -/
def execCutInstant (p : Nat) (s : State) : Out :=
  match (s.job p).cut with
  | some (.running dev t pad) => .next (if t ≤ s.clock then closeGen s p dev pad else s)
  | some (.closing _ t) => .next (if t ≤ s.clock then s.mapJob p fun j => { j with cut := none } else s)
  | _ => .next s

/-! ### The drainer (R233 to R235) -/

/-- Put a partition into its place of a list, in increasing first row. -/
def insertPart (x : Nat × Nat × Nat) : List (Nat × Nat × Nat) → List (Nat × Nat × Nat)
  | [] => [x]
  | y :: ys => if x.2.1 < y.2.1 then x :: y :: ys else y :: insertPart x ys

/-- The partitions on the tile checked out whose rows its drainer copies: those of every job that drains and has undrained rows
there, as (job, VPB, VPL) in increasing row (R141, R235). -/
def drainParts (s : State) : List (Nat × Nat × Nat) :=
  (s.jobs.filter fun j => match j.2.gens with
    | g :: _ => j.2.live && decide (g.state = .draining) && decide (0 < (tget {} g.images s.cur).rowsLeft)
    | [] => false).foldl (fun ps j => insertPart (j.1, tget (0, 0) j.2.parts s.cur) ps) []

/-- Does a partition hold a row? -/
def inPart (x : Nat × Nat × Nat) (row : Nat) : Bool := decide (x.2.1 ≤ row) && decide (row < x.2.2)

/-- The next row to copy of a list of banks, as (job, bank, row): cloned rows first, then undrained rows without a clone, each in
increasing bank and row (R235). -/
def nextRow (s : State) (ps : List (Nat × Nat × Nat)) (banks : List Nat) (clonedOnly : Bool) : Option (Nat × Nat × Nat) :=
  let v := s.core.vault
  match v.rows.findSome? fun x =>
      if x.2.cloned && banks.contains (x.1 / 32768) then
        (ps.find? fun p => inPart p (x.1 % 32768) && undrained (s.job p.1) s.cur x.2).map fun p =>
          (p.1, x.1 / 32768, x.1 % 32768)
      else none with
  | some r => some r
  | none =>
    if clonedOnly then none
    else banks.findSome? fun n => ps.findSome? fun p =>
      ((List.range (p.2.2 - p.2.1)).find? fun k => undrained (s.job p.1) s.cur (tget {} v.rows (rowKey n (p.2.1 + k)))).map
        fun k => (p.1, n, p.2.1 + k)

/-- What the drainer stores of one column of a channel: its bytes, free where an error cannot be corrected or the column was written
poisoned, and whether it is poisoned (R145, R235). A correction by the drainer does not count towards those of R153: DESIGN CHOICE (log entry
30). -/
def drainColumn (s : State) (ch : Nat) (mk : Mark) (bs : List Byte) : (List Byte × Bool) × State :=
  let m := laneMark s ch mk
  match m.1 with
  | .good | .correctable => ((bs, false), m.2)
  | .poisoned | .uncorrectable => ((bytesOf 96 m.2.takeFree.1, true), m.2.takeFree.2)

/-- The columns of a row as the drainer stores them. -/
def drainColumns (ch : Nat) : State → List (Mark × List Byte) → (List Byte × Bool) × State
  | s, [] => (([], false), s)
  | s, c :: cs =>
    let a := drainColumn s ch c.1 c.2
    let r := drainColumns ch a.2 cs
    ((a.1.1 ++ r.1.1, a.1.2 || r.1.2), r.2)

/-- The contents of a row in the generation being drained: its spare when it is cloned, the row itself otherwise (R231). -/
def genRow (v : Vault) (n row : Nat) : List (Mark × List Byte) :=
  let e := tget {} v.rows (rowKey n row)
  (List.range 16).map fun c =>
    if e.cloned then
      (tget .good v.spareMarks (16 * spareKey n e.spare + c), bytesOf 96 (elemAt 96 (tget 0 v.spares (spareKey n e.spare)).toNat c))
    else (tget .good v.marks (columnKey n row c), column v (columnKey n row c))

/-- The place of a row in its image (R473). -/
def rowPlace (im : TileImage) (n row : Nat) : Nat := 98304 * (row - im.vpb) + 1536 * n

/-- The reservoir address of byte `o` of an image, by the entry of its frame table (R473). -/
def imageAddr (m : Mem) (im : TileImage) (o : Nat) : Nat :=
  bits (readWord m.res (im.imgtab + 8 * (o / Config.frameBytes))).toNat 47 0 * Config.frameBytes + o % Config.frameBytes

/-- The bytes of an image from byte `o` to the end of its frame. -/
def frameRest (o : Nat) : Nat := Config.frameBytes - o % Config.frameBytes

/-- Bytes stored into an image from byte `o` on, which may go on in the next frame (R473). -/
def storeImage (m : Mem) (im : TileImage) (o : Nat) (bs : List Byte) : Mem :=
  (m.store .reservoir (imageAddr m im o) (bs.take (frameRest o))).store .reservoir (imageAddr m im (o + frameRest o)) (bs.drop (frameRest o))

/-- The runs of reservoir bytes, address and length, that hold `n` bytes of an image from byte `o` on, `n` no more than a frame. -/
def imageRuns (m : Mem) (im : TileImage) (o n : Nat) : List (Nat × Nat) :=
  if n ≤ frameRest o then [(imageAddr m im o, n)]
  else [(imageAddr m im o, frameRest o), (imageAddr m im (o + frameRest o), n - frameRest o)]

/-- Are the frames there that hold `n` bytes of an image from byte `o` on: software may have changed the frame table (R2, R473)? -/
def runsFit (m : Mem) (im : TileImage) (o n : Nat) : Bool := (imageRuns m im o n).all fun r => m.fits .reservoir r.1 r.2

/-- Copy one row of the tile checked out into the image `im` of generation `g`, the newest of job `p`: D becomes 1, and a clone's spare is
free (R235). When the last row is stored, the generation is Drained. -/
def storeRow (s : State) (p n row : Nat) (g : Gen) (im : TileImage) : State :=
  let e := tget {} s.core.vault.rows (rowKey n row)
  let x := drainColumns (n / 16) s (genRow s.core.vault n row)
  let u := 64 * (row - im.vpb) + n
  let s := x.2.mapMem fun m =>
    let m := storeImage m im (rowPlace im n row) x.1.1
    let b := (tget 0 m.res (im.pmap + u / 8)).toNat
    if x.1.2 then m.store .reservoir (im.pmap + u / 8) [BitVec.ofNat 8 (b ||| 2 ^ (u % 8))] else m
  let s := s.mapVault fun v => { v with
    rows := tset {} v.rows (rowKey n row) { dgen := (s.job p).cuts, cloned := false, spare := 0 },
    spares := if e.cloned then tdel v.spares (spareKey n e.spare) else v.spares,
    spareMarks := if e.cloned then tclear v.spareMarks (16 * spareKey n e.spare) (16 * spareKey n e.spare + 16)
      else v.spareMarks }
  mapGen s p g.num fun g =>
    let images := tset {} g.images s.cur { im with rowsLeft := im.rowsLeft - 1 }
    { g with images := images, poisoned := g.poisoned + x.1.2.toNat,
             state := if images.all fun x => x.2.rowsLeft == 0 then .drained else g.state }

/-- Copy one row of the tile checked out into the image of the job's newest generation; none where its place there is in a frame that does not
exist (R2, R235). -/
def copyRow (s : State) (p n row : Nat) : Option State :=
  match (s.job p).gens with
  | [] => some s
  | g :: _ =>
    let im := tget {} g.images s.cur
    if runsFit s.mem im (rowPlace im n row) 1536 then some (storeRow s p n row g im) else none

/-- The number of the drain window in which the task checked out stands, plus one; 0 outside a window (R234). -/
def windowNow (s : State) : Nat :=
  let c := s.core.ctl
  if (s.job s.core.task.pasid).snap && decide (3968 < c.cyc % 4096) then c.cyc / 4096 + 1 else 0

/-- `DRAIN_ROW_COPY`: at most one row of each of the four channels in a drain window; on an idle tile any number, in the order of R235 over
every bank of the tile. -/
def execDrainRowCopy (tile ch : Nat) (s : State) : Out :=
  reached <| s.tryTile tile fun s =>
    let idle := decide (s.core.ctl.status = .idle)
    let w := windowNow s
    if 4 ≤ ch || (!idle && (w == 0 || tget 0 s.core.vault.drained ch == w)) then some s
    else
      match nextRow s (drainParts s) (if idle then List.range 64 else banksOf ch) false with
      | none => some s
      | some r => (copyRow s r.1 r.2.1 r.2.2).map fun s =>
        if idle then s else s.mapVault fun v => { v with drained := tset 0 v.drained ch w }

/-- Drain cloned rows of a bank until 64 spares are free or none is left (R233). -/
def drainClones : Nat → State → Nat → Option State
  | 0, s, _ => some s
  | k + 1, s, n =>
    if 64 ≤ freeSpares s n then some s
    else
      match nextRow s (drainParts s) [n] true with
      | none => some s
      | some r => (copyRow s r.1 r.2.1 r.2.2).bind fun s => drainClones k s n

/-! ### Restore (R239) -/

/-- Every undrained row of a partition is drained before it is overwritten, so that the newest generation stays whole (R228). -/
def drainAll : Nat → State → Nat → Option State
  | 0, s, _ => some s
  | k + 1, s, p =>
    match nextRow s [(p, tget (0, 0) (s.job p).parts s.cur)] (List.range 64) false with
    | none => some s
    | some r => (copyRow s p r.2.1 r.2.2).bind fun s => drainAll k s p

/-- Write one column of the vault of the tile checked out from the runs that hold it in its image: free bytes, poisoned, where a block of
the image cannot be read (R179, R295). -/
def restoreColumn (s : State) (runs : List (Nat × Nat)) (key : Nat) (bad : Bool) : State :=
  let lost := runs.any fun r => s.mem.badRun .reservoir r.1 r.2
  let x := if lost then (bytesOf 96 s.takeFree.1, s.takeFree.2) else (runs.flatMap fun r => readBytes s.mem.res r.1 r.2, s)
  x.2.mapVault fun v => { v with
    cells := writeBytes v.cells (96 * key) x.1, marks := tset .good v.marks key (if bad || lost then .poisoned else .good) }

/-- Write every row of the partition of the tile checked out from an image, with the poison it was stored with; a row whose place in the
poison map cannot be read counts as poisoned. -/
def restoreRows (s : State) (im : TileImage) : State :=
  let rows := (List.range 64).flatMap fun n => (List.range (im.vpl - im.vpb)).map fun k => (n, im.vpb + k)
  rows.foldl (fun s r =>
    let u := 64 * (r.2 - im.vpb) + r.1
    let bad := s.mem.badRun .reservoir (im.pmap + u / 8) 1 || (tget 0 s.mem.res (im.pmap + u / 8)).toNat.testBit (u % 8)
    (List.range 16).foldl (fun s c =>
      restoreColumn s (imageRuns s.mem im (rowPlace im r.1 r.2 + 96 * c) 96) (columnKey r.1 r.2 c) bad) s) s

/-- Drain what the job's newest generation still lacks of every partition of the job. -/
def drainJob (s : State) (p : Nat) : Option State :=
  (s.job p).parts.foldlM (fun s x => s.tryTile x.1 fun s => drainAll (64 * (x.2.2 - x.2.1)) s p) s

/-- Are the frames of a whole image there (R2)? -/
def imageWhole (m : Mem) (im : TileImage) : Bool :=
  (List.range (framesOf (imageSize im.vpb im.vpl))).all fun k => runsFit m im (k * Config.frameBytes) 1

/-- Write a frame copy back over its frame, which newer generations may share (R230, R239). -/
def restoreFrame (s : State) (c : Nat × Nat) : State :=
  ((s.copyOnWrite c.1).mapMem fun m => m.copyFrame c.2 c.1).report .reservoir (c.1 * Config.frameBytes) Config.frameBytes

/-! ### Shoot-down (R202) -/

/-- The key of the translation that a piece of a command uses. -/
def pieceKey (pasid : Nat) (c : Cmd) (p : Piece) : Lookaside :=
  { pasid := pasid, tensor := vTensor c, count := vCount c, frame := p.frame, entry := p.entry }

/-- A barge without the lookaside entries that a condition names; the pieces that used one are noted (R202). -/
def Barge.shot (b : Barge) (pasid : Nat) (f : Lookaside → Bool) : Barge :=
  { b with
    lookaside := b.lookaside.filter fun e => !f e,
    queue := b.queue.map fun c => { c with pieces := c.pieces.map fun p => { p with stale := p.stale || f (pieceKey pasid c p) } } }

/-- Remove the lookaside entries that a condition names from every barge, and move the shoot-down counter (R202). -/
def shoot (s : State) (f : Lookaside → Bool) : State :=
  let s := s.mapMem fun m => { m with shoot := m.shoot + 1 }
  (List.range Config.tiles).foldl (fun s n =>
    let t := s.tile n
    if t.barge.lookaside.isEmpty && t.barge.queue.isEmpty then s
    else s.mapTile n fun t => { t with barge := t.barge.shot t.task.pasid f }) s

/-- The walks and pieces of a barge that a shoot-down still waits for: a walk that began before it, and a piece that used an entry it
removed (R202). -/
def Barge.unsettled (b : Barge) (seq : Nat) : Bool :=
  b.walks.any (fun w => decide (w.seq < seq)) || b.queue.any fun c => c.pieces.any Piece.stale

/-- Is every shoot-down complete (R202)? -/
def shotDown (s : State) : Bool := (List.range Config.tiles).all fun n => !((s.tile n).barge.unsettled s.mem.shoot)

/-- Remove every lookaside entry of one tensor of a job, and let the walks in progress begin again (R202). -/
def shootTensor (s : State) (p n : Nat) : State := shoot s fun e => e.pasid == p && e.tensor == n

/-! ### The end of a restore -/

/-- Rows, frames and descriptors of a generation are written back, in that order, and the lookasides are shot down (R239). -/
def restoreGen (s : State) (p : Nat) (g : Gen) : State :=
  let s := g.images.foldl (fun s x => s.onTile x.1 fun s => restoreRows s x.2) s
  let s := s.cleanRows p
  let s := g.copies.foldl restoreFrame s
  let s := s.mapJob p fun j => { j with tensors := g.descs, restoring := none }
  (shoot s fun e => e.pasid == p).mapLk fun l => { l with cmdBusy := false, res := BitVec.ofNat 64 (2 ^ 63) }

/-- `GENRESTORE_COMPLETE`: rows, frames and descriptors of the generation are back, every row reads D = 1 and C = 0, and LKRES
reports the end of the command (R239). A newer generation that still drains is first drained whole, so that it keeps what it holds (R228).
DESIGN CHOICE (log entry 48). A cut that runs meanwhile closes its generation wholly before the restore or after it. DESIGN CHOICE (log entry
68). -/
def execGenrestoreComplete (p num : Nat) (s : State) : Out :=
  match (s.job p).gens.find? fun g => g.num == num with
  | none => .next s
  | some g =>
    if (s.job p).restoring = some num then
      reached <| (drainJob s p).bind fun s => if g.images.all fun x => imageWhole s.mem x.2 then some (restoreGen s p g) else none
    else .next s

/-! ### Jobs, partitions, tensors -/

/-- The bytes of an element of a format code (Table 4.2). -/
def elemSize (f : BitVec 4) : Nat :=
  if f = 0 then 8 else if f = 1 then 4 else if f.toNat < 4 then 2 else if f.toNat < 6 then 1
  else 2 ^ ((f.toNat - 8) / 2)

/-- Does a tensor satisfy R180: a rank of 1 to 10, tile extents that are powers of two and fill a frame, a format of Table 4.2? -/
def legalTensor (t : TensorSpec) : Bool :=
  let n := t.shape.length
  decide (1 ≤ n) && decide (n ≤ 10) && decide (t.tile.length = n) && decide (t.number < 2 ^ 24) &&
    t.shape.all (fun x => decide (0 < x) && decide (x < 2 ^ 32)) && t.tile.all (fun x => decide (2 ^ Nat.log2 x = x)) &&
    !(t.fmt == 6 || t.fmt == 7) && decide (t.tile.foldl (· * ·) 1 * elemSize t.fmt = Config.frameBytes)

/-- Is there room for a level-1 tile table, two frames from an even one? -/
def rootRoom (m : Mem) : Bool := decide ((m.nextFrame + 1) / 2 * 2 + 2 ≤ m.capacity)

/-- Give a tensor a level-1 tile table of its own, all zero. -/
def newRoot (s : State) : Nat × State :=
  let a := s.mem.allocateAligned 17 0x20000
  (a.1, { s with mem := a.2 })

/-- Create the descriptor of a tensor (R180), when its tile table fits. Its generation count starts at 0: DESIGN CHOICE (log entry 44). -/
def createTensor (p : Nat) (s : State) (t : TensorSpec) : State :=
  if legalTensor t && rootRoom s.mem then
    let r := newRoot s
    let d : Desc := { live := true, count := 0, fmt := t.fmt, shape := t.shape, tile := t.tile, root := r.1, sealed := false,
                      host := t.host }
    r.2.mapJob p fun j => { j with tensors := tset {} j.tensors t.number d }
  else s

/-- A job's peer map: peer numbers 0 to 63 to fabric addresses of three coordinates (R253). -/
def peerMap (ps : List (Nat × Nat)) : Table Nat :=
  ps.foldl (fun t x => if x.1 < 64 ∧ x.2 < 4096 then tset 0 t x.1 (x.2 + 1) else t) []

/-- `JOB_CREATION`: GEN 0, every policy 0, no partition, the peer map and the tensors that system software names (R180, R223, R253,
R286). A device cut that waits takes the new job into its scope (R40). -/
def execJobCreation (pasid : Nat) (snap preemptible : Bool) (x : Sys2Proof.JobTables) (s : State) : Out :=
  managed s fun s =>
    if pasid < 2 ^ 20 && !(s.job pasid).live then
      x.tensors.foldl (createTensor pasid)
        (s.mapJob pasid fun _ => { live := true, snap := snap, preemptible := preemptible, peers := peerMap x.peers,
                                   cut := if s.jobs.any fun j => j.2.live && cutPending j.2 true then some (.pending true) else none })
    else s

/-- Are two row ranges disjoint? -/
def apart (a b : Nat × Nat) : Bool := decide (a.2 ≤ b.1) || decide (b.2 ≤ a.1) || decide (a.1 = a.2) || decide (b.1 = b.2)

/-- A partition filled with zeros, with fresh check bytes (R132, R141). -/
def clearPartition (v : Vault) (lo hi : Nat) : Vault :=
  let v := (List.range 64).foldl (fun (v : Vault) n => { v with
    cells := tclear v.cells (1536 * rowKey n lo) (1536 * rowKey n hi),
    marks := tclear v.marks (columnKey n lo 0) (columnKey n hi 0) }) v
  clearRows v lo hi

/-- `PARTITION_ALLOCATION`: rows VPB to VPL − 1 of every bank of the tile, apart from every other job's (R141). -/
def execPartitionAllocation (pasid tile vpb vpl : Nat) (s : State) : Out :=
  let mine := tget (0, 0) (s.job pasid).parts tile
  managed s fun s =>
    if (s.job pasid).live && tile < Config.tiles && vpb ≤ vpl && vpl ≤ 32768 && mine.1 == mine.2 &&
        s.jobs.all fun j => j.1 == pasid || apart (vpb, vpl) (tget (0, 0) j.2.parts tile) then
      let s := s.mapJob pasid fun j => { j with parts := tset (0, 0) j.parts tile (vpb, vpl) }
      s.mapTile tile fun t => { t with
        vault := clearPartition t.vault vpb vpl,
        task := if t.ctl.status ≠ .idle && t.task.pasid == pasid then { t.task with vpb := vpb, vpl := vpl } else t.task }
    else s

/-- `TENSOR_FREE`: the tensor number is freed, or, when it is free, gets new storage once every shoot-down is complete; its generation
count rises, modulo 256 (R180). Its tile-table entries change, so the lookasides are shot down (R202), and nothing of the old storage is kept
for `BOPEN`. -/
def execTensorFree (pasid tensor : Nat) (s : State) : Out :=
  let d := { tget {} (s.job pasid).tensors tensor with moved := [] }
  managed s fun s =>
    if d.shape.isEmpty || (!d.live && !(rootRoom s.mem && shotDown s)) then s
    else if d.live then
      (shootTensor s pasid tensor).mapJob pasid fun j => { j with
        tensors := tset {} j.tensors tensor { d with live := false, sealed := false, count := (d.count + 1) % 256 } }
    else
      let s := shootTensor s pasid tensor
      let r := newRoot s
      r.2.mapJob pasid fun j => { j with
        tensors := tset {} j.tensors tensor { d with live := true, root := r.1, count := (d.count + 1) % 256 } }

end Sys2Proof.Machine
end

