-- ==== Sys2Proof/Machine/BargeView.lean ====
section
/-! DEFINITION. What a barge command works on: its view block, the elements of the view, their frames, translation, and the
reads and writes of one element (R177, R179, R181, R182, R186, R187, R192, R213). -/

namespace Sys2Proof.Machine

/-- The transpose code of a command: 0 none, 1 `.t8`, 2 `.t16` (Table 8.2). -/
def Cmd.transpose (c : Cmd) : Nat :=
  match decode .x c.word with
  | .ok (.bcopy _ _ t _ _ _) => t.toNat
  | .ok (.bgath _ _ t _) => t.toNat
  | _ => 0

/-! ### View blocks (Table 8.3) -/

/-- RANK. -/
def vRank (c : Cmd) : Nat := bits (vword c 0) 35 32
/-- STARTd. -/
def vStart (c : Cmd) (d : Nat) : Nat := bits (vword c (2 + d)) 31 0
/-- GDIM. -/
def vGdim (c : Cmd) : Nat := bits (vword c 12) 39 36
/-- ICNT. -/
def vIcnt (c : Cmd) : Nat := bits (vword c 12) 35 20
/-- IBASE. -/
def vIbase (c : Cmd) : Nat := bits (vword c 12) 19 0
/-- The dimension that the index list gives, if any. -/
def gatherDim (c : Cmd) : Option Nat := if c.kind.indexed then some (vGdim c) else none

/-- The extent of a dimension: that of the gather dimension is ICNT (R195). -/
def vExt (c : Cmd) (d : Nat) : Nat := if gatherDim c = some d then vIcnt c else bits (vword c (2 + d)) 63 32

/-- The elements of the view. -/
def vTotal (c : Cmd) : Nat := (List.range (vRank c)).foldl (fun n d => n * vExt c d) 1

/-- The view-block words that a command of a kind and rank reads (Table 17.1). -/
def readWords (k : BKind) (rank : Nat) : List Nat :=
  if !k.moves then (match k with
    | .sealOn | .sealOff => [0]
    | _ => [])
  else [0, 1] ++ (List.range rank).map (fun d => 2 + d) ++
    (match k with
    | .gather | .scatter => [12]
    | .atomic _ _ => [13, 14, 15]
    | _ => [])

/-- The descriptor that a handle names in a job: its tensor number is live and the generation counts agree (R201). -/
def descOf (s : State) (p : Nat) (c : Cmd) : Option Desc :=
  let d := tget {} (s.job p).tensors (vTensor c)
  if d.live && d.count == vCount c then some d else none

/-! ### Start checks (R472) -/

/-- The element sizes that a command may have: that of its tensor, or each there is when its handle names none. -/
def codeSizes (s : State) (p : Nat) (c : Cmd) : List Nat :=
  match descOf s p c with
  | some d => [elemSize d.fmt]
  | none => [1, 2, 4, 8]

/-- The first check: the view block's own fields, with the alignment and bounds of a `.code` copy (R194, R472). When the handle names no tensor, the
bytes that the view covers fail it if they do at every element size: DEDUCED (log entry 14). -/
def vblkBad (s : State) (p : Nat) (c : Cmd) : Bool :=
  let r := vRank c
  let dims := List.range r
  decide (bits (vword c 0) 63 36 ≠ 0) ||
  (c.kind.moves && (decide (r < 1) || decide (10 < r) || decide (bits (vword c 1) 63 20 ≠ 0) ||
    dims.any (fun d => decide (gatherDim c ≠ some d) && decide (vExt c d = 0)))) ||
  (c.kind.indexed && (decide (bits (vword c 12) 63 40 ≠ 0) || decide (vIcnt c = 0) || decide (r ≤ vGdim c))) ||
  (match c.kind with
    | .atomic _ _ => decide (bits (vword c 15) 63 20 ≠ 0)
    | .code => decide (vBase c % 32 ≠ 0) || decide (32 * Config.bundles ≤ vBase c) || (codeSizes s p c).all fun size =>
        decide (vTotal c * size % 32 ≠ 0) || decide (32 * Config.bundles < vBase c + vTotal c * size)
    | _ => false)

/-- The fourth check: element type and size. -/
def typeBad (c : Cmd) (d : Desc) : Bool :=
  let size := elemSize d.fmt
  let dims := List.range (vRank c)
  (decide (c.transpose ≠ 0) && (decide (vRank c < 2) || decide (size ≠ c.transpose))) ||
  (match c.kind with
    | .reduce _ _ f => decide (f ≠ d.fmt)
    | .atomic _ _ => dims.any (fun k => decide (vExt c k ≠ 1)) || !(size == 4 || size == 8)
    | _ => false)

/-- The frame index and the byte offset of an element (R181). -/
def layout (size : Nat) : List (Nat × Nat × Nat) → Nat → Nat → Nat → Nat → Nat × Nat
  | [], f, _, o, _ => (f, o * size)
  | (c, n, t) :: ds, f, tmul, o, omul =>
    layout size ds (f + c / t * tmul) (tmul * ((n + t - 1) / t)) (o + c % t * omul) (omul * t)

/-- The place of a coordinate in a tensor. -/
def placeOf (d : Desc) (cs : List Nat) : Nat × Nat :=
  layout (elemSize d.fmt) (cs.zip (d.shape.zip d.tile)) 0 1 0 1

/-- The fifth check: every coordinate of the view lies in the tensor, and every frame index below 2²⁸ (R182, R187). -/
def rangeBad (c : Cmd) (d : Desc) : Bool :=
  let dims := (List.range (vRank c)).filter fun k => decide (gatherDim c ≠ some k)
  dims.any (fun k => decide (d.shape.getD k 0 < vStart c k + vExt c k)) ||
    decide (2 ^ 28 ≤ (placeOf d ((List.range (vRank c)).map fun k =>
      if gatherDim c = some k then 0 else vStart c k + vExt c k - 1)).1)

/-- The error code of the start checks, in the order of R472; 0 when none fails. -/
def startError (s : State) (p : Nat) (c : Cmd) : Nat :=
  if vblkBad s p c then 5
  else
    match descOf s p c with
    | none => 1
    | some d =>
      if !c.kind.moves then 0
      else if vRank c ≠ d.shape.length then 5
      else if typeBad c d then 8
      else if rangeBad c d then 6
      else 0

/-! ### Elements of a view -/

/-- Mixed-radix digits of a number: first digit varies fastest. -/
def digits : List Nat → Nat → List Nat
  | [], _ => []
  | e :: es, k => k % e :: digits es (k / e)

/-- The position of element `k`, in staging order, along each dimension (R187). -/
def positions (c : Cmd) (k : Nat) : List Nat :=
  let es := (List.range (vRank c)).map (vExt c)
  if c.transpose = 0 then digits es k
  else
    match es with
    | e0 :: e1 :: rest =>
      match digits (e1 :: e0 :: rest) k with
      | j1 :: j0 :: js => j0 :: j1 :: js
      | js => js
    | _ => digits es k

/-- Where an element lies, or the error that its index brings. -/
inductive Where where
  | at (frame off : Nat)
  | error (e : Nat)
  deriving DecidableEq, Repr

/-- Is an index of the list poisoned: does a line that it lies in hold poison or an uncorrectable error (R359)? -/
def badIndex (t : Staging) (a : Nat) : Bool := t.bad (a / 32 * 32) ((a % 32 + 35) / 32 * 32)

/-- The coordinates of element `k`, its index read from the list when the view is a gather or scatter; a correction there raises the verdict
(R177, R195, R359). -/
def locate (s : State) (c : Cmd) (d : Desc) (k : Nat) : Where × State :=
  let js := positions c k
  let coords (f : Nat → Nat) : List Nat := (List.range (vRank c)).map fun i => f i
  match gatherDim c with
  | none =>
    let p := placeOf d (coords fun i => vStart c i + js.getD i 0)
    (.at p.1 p.2, s)
  | some g =>
    let a := stageAddr (vIbase c + 4 * js.getD g 0)
    if badIndex s.core.staging a then (.error 3, tagLines s (a / 32 * 32) ((a % 32 + 35) / 32 * 32))
    else
      let r := bargeBytes s c.id a 4
      let x := ofBytes r.1.1
      let t := r.2.correctIf (r.1.2.any UnitValue.fixed)
      if d.shape.getD g 0 ≤ x then (.error 6, t)
      else
        let p := placeOf d (coords fun i => if i = g then x else vStart c i + js.getD i 0)
        (if 2 ^ 28 ≤ p.1 then .error 6 else .at p.1 p.2, t)

/-- The run of elements from `k` on that lie in one frame: their offsets, and the error that ends the run, if one does (R189). -/
def runFrom (c : Cmd) (d : Desc) (frame : Nat) : Nat → Nat → State → (List Nat × Option Nat) × State
  | 0, _, s => (([], none), s)
  | n + 1, k, s =>
    let w := locate s c d k
    match w.1 with
    | .error e => (([], some e), w.2)
    | .at f o =>
      if f = frame then
        let r := runFrom c d frame n (k + 1) w.2
        ((o :: r.1.1, r.1.2), r.2)
      else (([], none), s)

/-! ### Translation (R182, R202) -/

/-- Entries of Table 8.1. -/
def entryV (e : BitVec 64) : Bool := e.getLsbD 63
/-- KIND. -/
def entryKind (e : BitVec 64) : Nat := bits e.toNat 62 61
/-- PEER. -/
def entryPeer (e : BitVec 64) : Nat := bits e.toNat 59 54
/-- FRAME. -/
def entryFrame (e : BitVec 64) : Nat := bits e.toNat 47 0

/-- A malformed level-1 entry (R182). -/
def badLevel1 (e : BitVec 64) : Bool :=
  entryV e && (decide (entryKind e ≠ 0) || decide (bits e.toNat 53 48 ≠ 0) || decide (entryFrame e % 2 ^ 17 ≠ 0))

/-- A malformed level-2 entry. -/
def badLevel2 (e : BitVec 64) : Bool := entryV e && (decide (entryKind e = 3) || decide (bits e.toNat 53 48 ≠ 0))

/-- The address of the level-1 entry of a frame index. -/
def level1Addr (root frame : Nat) : Nat := root + 8 * (frame / 2 ^ 14)

/-- The address of the level-2 entry, in the table that a level-1 entry names. -/
def level2Addr (e : BitVec 64) (frame : Nat) : Nat := entryFrame e + 8 * (frame % 2 ^ 14)

/-- The lookaside entry of a frame of a command's tensor. -/
def lookupEntry (s : State) (c : Cmd) (frame : Nat) : Option (BitVec 64) :=
  (s.core.barge.lookaside.find? fun e =>
    e.pasid == s.core.task.pasid && e.tensor == vTensor c && e.count == vCount c && e.frame == frame).map Lookaside.entry

/-- Does an entry name a peer number that the job's peer map does not hold (R253)? -/
def noPeer (j : Job) (e : BitVec 64) : Bool := decide (entryKind e = 1) && tget 0 j.peers (entryPeer e) == 0

/-- The memory space that an entry of job `p` reaches: a peer by the job's map (R253), host memory under its PASID (Table 12.1). -/
def entrySpace (p : Nat) (j : Job) (e : BitVec 64) : MemSpace :=
  if entryKind e = 0 then .reservoir else if entryKind e = 1 then .peer (tget 0 j.peers (entryPeer e) - 1) else .host p

/-- The Sarpol link by which a space is reached: a peer's, by its fabric address, or the host's; `none` inside the device. -/
def linkOf : MemSpace → Option Nat
  | .peer n => some n
  | .host _ => some 4096
  | _ => none

/-- Is the link to a space down (R252)? -/
def linkDown (s : State) (sp : MemSpace) : Bool :=
  match linkOf sp with
  | some n => tget false s.fabric.down n
  | none => false

/-- A reservoir frame that does not exist (R179). -/
def noFrame (m : Mem) (e : BitVec 64) : Bool := decide (entryKind e = 0) && decide (m.capacity ≤ entryFrame e)

/-- The address of an offset of the frame that an entry names. -/
def entryAddr (e : BitVec 64) (off : Nat) : Nat := entryFrame e * Config.frameBytes + off

/-! ### Elements in memory -/

/-- The elements of a piece, one after another. -/
def readElements (sp : MemSpace) (e : BitVec 64) (n : Nat) : State → List Nat → List Byte × State
  | s, [] => ([], s)
  | s, o :: os =>
    let r := readElement s (.tile s.cur) sp (entryAddr e o) n
    let rs := readElements sp e n r.2 os
    (r.1 ++ rs.1, rs.2)

/-- Does any block that the elements touch hold a mark (R179)? -/
def anyMark (m : Mem) (sp : MemSpace) (e : BitVec 64) (f : Mark → Bool) (os : List Nat) : Bool :=
  os.any fun o => f (m.mark sp (entryAddr e o))

/-- A write of one element, noted until it is visible at fabric scope (R216), and reported when it falls on a watched word (R259). The marks of
its block follow once the whole piece is written (`markWritten`). -/
def writeElement (s : State) (c : Cmd) (sp : MemSpace) (a : Nat) (bs : List Byte) : State :=
  let u : Unfenced := { pasid := s.core.task.pasid, tensor := vTensor c, space := sp, addr := a, node := s.core.task.node, tile := s.cur, id := c.id,
                        old := readBytes (s.mem.space sp) a bs.length }
  ((s.copyShared sp a bs.length).mapMem fun m =>
    { m.setSpace sp (writeBytes (m.space sp) a bs) with unfenced := m.unfenced ++ [u] }).report sp a bs.length

/-- Writes of the elements of a piece. -/
def writeElements (c : Cmd) (sp : MemSpace) (e : BitVec 64) (n : Nat) : State → List Nat → List Byte → State
  | s, [], _ => s
  | s, o :: os, bs => writeElements c sp e n (writeElement s c sp (entryAddr e o) (bs.take n)) os (bs.drop n)

/-- The blocks of the offsets, each once. -/
def blocksOf (os : List Nat) : List Nat := (os.map fun o => o / 64).dedup

/-- Do writes of elements of `n` bytes cover a block whole? -/
def coversBlock (n : Nat) (os : List Nat) (b : Nat) : Bool := decide (64 / n ≤ ((os.filter fun o => o / 64 == b).dedup).length)

/-- After a write of the elements, each block written whole is clean; one written in part is corrected, or stays poisoned (R179).
An uncorrectable block that is written in part stays poisoned. An update at a controller (`plain` false) is a partial write. -/
def markWritten (s : State) (sp : MemSpace) (e : BitVec 64) (n : Nat) (plain : Bool) (os : List Nat) : State :=
  s.mapMem fun m => { m with marks := (blocksOf os).foldl (fun t b =>
    let k := blockKey sp (entryAddr e (64 * b))
    tset .good t k (if (plain && coversBlock n os b) || !(tget .good t k).bad then .good else .poisoned)) m.marks }

/-- Does a write of the elements read a block that it corrects: one that it does not cover whole (R179, R191)? -/
def mendsBlock (m : Mem) (sp : MemSpace) (e : BitVec 64) (n : Nat) (plain : Bool) (os : List Nat) : Bool :=
  (blocksOf os).any fun b => !(plain && coversBlock n os b) && m.mark sp (entryAddr e (64 * b)) == .correctable

/-! ### Landing in instruction SRAM -/



/-- Whole bundles of a `.code` copy land from bundle index `k` on; until an `IFENCE` a fetch may return the old ones (R194,
R376). -/
def landCode (s : State) (id : Nat) : Nat → List Byte → Nat → State
  | _, _, 0 => s
  | k, bs, n + 1 =>
    let s := s.mapCore fun t => { t with isram := { t.isram with
      unseen := t.isram.unseen ++ [(k, id, t.isram.held k)],
      bundles := tset 0 t.isram.bundles k (BitVec.ofNat 256 (ofBytes (bs.take 32))),
      marks := tset .good t.isram.marks k .good } }
    landCode s id (k + 1) (bs.drop 32) n

end Sys2Proof.Machine
end

