-- ==== Sys2Proof/Machine/BargeEvents.lean ====
section
/-! DEFINITION. The life of a barge command: start, pieces, completion; walks, misses, shoot-down and seals (R189 to R203, R215,
R472). -/

namespace Sys2Proof.Machine

/-! ### Commands of the tile checked out -/

/-- The outstanding command of a number. -/
def cmdOf (s : State) (id : Nat) : Option Cmd := s.core.barge.queue.find? fun c => c.id == id

/-- Change one command. -/
def mapCmd (s : State) (id : Nat) (f : Cmd → Cmd) : State :=
  s.mapBarge fun b => { b with queue := b.queue.map fun c => if c.id == id then f c else c }

/-- Do `f` for a command of a tile that runs a task; nothing when there is none. -/
def onCmd (s : State) (tile id : Nat) (f : State → Cmd → State) : State :=
  s.onTile tile fun s =>
    match cmdOf s id with
    | none => s
    | some c => f s c

/-- The job of the tile checked out. -/
def jobHere (s : State) : Job := s.job s.core.task.pasid

/-- Commands issued before a command that are still outstanding. -/
def earlier (s : State) (c : Cmd) : List Cmd := s.core.barge.queue.filter fun d => decide (d.id < c.id)

/-- A `BMARK` issued before the command is still outstanding (R199). -/
def behindMark (s : State) (c : Cmd) : Bool := (earlier s c).any fun d => d.kind == .mark

/-- Has a command finished its reads? -/
def readsDone (c : Cmd) : Bool :=
  !c.kind.moves || (c.started && (c.stop.isSome || decide (vTotal c ≤ c.readPos)))

/-- Has a command finished its writes? -/
def writesDone (c : Cmd) : Bool := readsDone c && c.pieces.isEmpty

/-! ### Start (R189, R472) -/

/-- Have the consumed tokens left pending? -/
def consumesReady (s : State) (c : Cmd) : Bool := c.consume.all fun i => decide (wordState (tget 0 s.core.barge.words i) ≠ 0)

/-- Did a consumed command fail, or end partial? -/
def consumesFailed (s : State) (c : Cmd) : Bool := c.consume.any fun i => decide (3 ≤ wordState (tget 0 s.core.barge.words i))

/-- The 32 words of a view block as the barge reads them. -/
def readView (s : State) (c : Cmd) : List UnitValue × State := bargeUnits c.id s (unitsOf c.base 256)

/-- The view words that a command reads, once its RANK is known. -/
def wordsRead (c : Cmd) : List Nat := readWords c.kind (min (vRank c) 10)

/-- `BARGE_COMMAND_START`: a command whose consumed tokens have left pending fails with DEP, or makes its start checks; one that
fails a check moves no data (R189, R472). Poison in the words it reads stops it as any barge read does (R192). A `BMARK` that
fails still holds back later commands until the earlier ones finish (R360). -/
def startCmd (s : State) (c : Cmd) : State :=
  if c.started || !consumesReady s c || behindMark s c then s
  else if consumesFailed s c then
    (if c.kind = .mark then mapCmd s c.id fun c => { c with started := true, stop := some 10 } else finishCmd s c.id 3 10 0 0)
  else
    let v := readView s c
    let view := v.1.map UnitValue.value
    let c' := { c with started := true, view := view }
    let ws := wordsRead c'
    let us := ws.filterMap fun i => v.1[i]?
    let s := mapCmd (v.2.correctIf (us.any UnitValue.fixed)) c.id fun c =>
      { c with started := true, view := view, corrected := c.corrected || us.any UnitValue.fixed }
    if us.any UnitValue.poison then
      finishCmd (ws.foldl (fun s i => tagLines s (stageAddr (c.base + 8 * i)) 8) s) c.id 3 3 0 0
    else if ws.isEmpty then s
    else
      match startError s s.core.task.pasid c' with
      | 0 => s
      | e => finishCmd s c.id 3 e 0 0

/-- See `startCmd`. -/
def execBargeCommandStart (tile id : Nat) (s : State) : Out := .next (onCmd s tile id startCmd)

/-! ### The read part of a piece -/

/-- May the command take its next piece: started, not stopped, in order within the read queue, and no cut of its job under way
(R39, R199, R215, R227)? -/
def mayRead (s : State) (c : Cmd) : Bool :=
  c.kind.moves && c.started && c.stop.isNone && decide (c.readPos < vTotal c) && !behindMark s c &&
    (earlier s c).all readsDone &&
    match (jobHere s).cut with
    | some (.running _ _ _) => false
    | some (.closing _ t) => decide (t ≤ s.clock)
    | _ => true

/-- Stop a command with an error: what it has read and not written is dropped when `drop` is set. -/
def stopWith (s : State) (id e : Nat) (drop : Bool) : State :=
  mapCmd s id fun c => { c with stop := some e, pieces := if drop then [] else c.pieces }

/-- A piece joins those read (R189). -/
def pushPiece (s : State) (c : Cmd) (p : Piece) (fixed : Bool) (err : Option Nat) : State :=
  mapCmd s c.id fun c => { c with
    readPos := c.readPos + p.offs.length, pieces := c.pieces ++ [p],
    corrected := c.corrected || fixed, stop := match err with
      | some e => some e
      | none => c.stop }

/-- The read part of a load: the elements come from the frame (R192, R193, R195, R252). -/
def readLoad (s : State) (c : Cmd) (d : Desc) (frame : Nat) (os : List Nat) (err : Option Nat) : State :=
  match lookupEntry s c frame with
  | none => s
  | some e =>
    let sp := entrySpace s.core.task.pasid (jobHere s) e
    if linkDown s sp then stopWith s c.id 9 false
    else if anyMark s.mem sp e Mark.bad os then stopWith s c.id 3 false
    else
      let r := readElements sp e (elemSize d.fmt) s os
      pushPiece r.2 c { frame := frame, offs := os, bytes := r.1, size := elemSize d.fmt, entry := e }
        (anyMark s.mem sp e (· == .correctable) os) err

/-- The read part of a store or reduction: the elements come from staging, and a correction there raises the verdict (R177, R192). The piece
begins once its frame is translated. -/
def readStore (s : State) (c : Cmd) (d : Desc) (frame : Nat) (os : List Nat) (err : Option Nat) : State :=
  match lookupEntry s c frame with
  | none => s
  | some e =>
    let size := elemSize d.fmt
    let a := stageAddr (vBase c + size * c.readPos)
    let n := size * os.length
    let r := bargeBytes s c.id a n
    let fixed := r.1.2.any UnitValue.fixed
    let t := r.2.correctIf fixed
    if r.1.2.any UnitValue.poison then stopWith (tagLines t a n) c.id 3 false
    else pushPiece t c { frame := frame, offs := os, bytes := r.1.1, size := size, entry := e } fixed err

/-- A correction met in the index list counts as one on the command's path (R191). -/
def fixIndices (s : State) (c : Cmd) (n : Nat) : State :=
  match gatherDim c with
  | none => s
  | some g =>
    let hit := (List.range n).any fun i =>
      s.core.staging.marked .correctable (stageAddr (vIbase c + 4 * (positions c (c.readPos + i)).getD g 0)) 4
    if hit then mapCmd s c.id fun c => { c with corrected := true } else s

/-- The read part of the next piece. A tensor that has changed since the start, or an index that cannot be used, stops the
command before the piece (R195, R201, R359). -/
def readPiece (s : State) (c : Cmd) : State :=
  if !mayRead s c then s
  else
    match descOf s s.core.task.pasid c with
    | none => stopWith s c.id 1 false
    | some d =>
      let w := locate s c d c.readPos
      match w.1 with
      | .error e => stopWith w.2 c.id e false
      | .at frame _ =>
        let r := runFrom c d frame (vTotal c - c.readPos) c.readPos s
        let s := fixIndices r.2 c r.1.1.length
        match c.kind with
        | .atomic _ _ => match lookupEntry s c frame with
          | none => s
          | some e => pushPiece s c { frame := frame, offs := r.1.1, bytes := [], size := elemSize d.fmt, entry := e } false none
        | k => if k.loads then readLoad s c d frame r.1.1 r.1.2 else readStore s c d frame r.1.1 r.1.2

/-! ### The write part of a piece -/

/-- May the command write its oldest piece: in order within the write queue (R215)? -/
def mayWrite (s : State) (c : Cmd) : Bool := !c.pieces.isEmpty && (earlier s c).all writesDone

/-- A piece is done (R190): FRAMES counts it. -/
def donePiece (s : State) (id wp : Nat) (fixed : Bool) : State :=
  let s := mapCmd s id fun c => { c with pieces := c.pieces.drop 1, done := c.done + 1, wp := wp, corrected := c.corrected || fixed }
  match cmdOf s id with
  | none => s
  | some c => meetWait (s.mapBarge fun b => { b with words := tset 0 b.words id (completionWord 0 0 c.done c.wp) })

/-- The write part of a load: the bytes land in staging or, bundle by bundle, in instruction SRAM; a unit written in part that is corrected
raises the verdict (R177, R190, R194). WP grows by whole pieces, in staging, and by whole bundles: DESIGN CHOICE (log entry 14). -/
def writeLoad (s : State) (c : Cmd) (p : Piece) : State :=
  if c.kind = .code then
    let bs := c.buf ++ p.bytes
    let n := bs.length / 32
    let s := landCode s c.id ((vBase c + c.wp) / 32) bs n
    donePiece (mapCmd s c.id fun c => { c with buf := bs.drop (32 * n) }) c.id (c.wp + 32 * n) false
  else
    let a := stageAddr (vBase c + c.wp)
    let fixed := s.core.staging.mends a p.bytes.length
    donePiece (landStaging (s.correctIf fixed) c.id c.wp a p.bytes) c.id (c.wp + p.bytes.length) fixed

/-- The new value of a reduction (R196). -/
def reduceValue (rm : BitVec 3) (sat : Bool) (f : BitVec 4) (old x : Nat) : Nat :=
  if f.toNat < 6 then
    let g := fmtOf f.toNat
    (exactRound g rm.toNat [[(g, old)], [(g, x)]]).1
  else
    let n := 8 * elemSize f
    let sg := decide (f.toNat % 2 = 0)
    narrow sat sg n (readInt sg n old + readInt sg n x)

/-- Reduce-adds of the elements of a piece, each at its controller (R179, R196, R217). Host-backed frames have no controller: the add is made in
host memory, DESIGN CHOICE (log entry 55). -/
def reduceElements (c : Cmd) (sp : MemSpace) (e : BitVec 64) (rm : BitVec 3) (sat : Bool) (f : BitVec 4) :
    State → List Nat → List Byte → State
  | s, [], _ => s
  | s, o :: os, bs =>
    let n := elemSize f
    let a := entryAddr e o
    let r := if (s.mem.mark sp a).bad then s.takeFree else (ofBytes (readBytes (s.mem.space sp) a n), s)
    let new := reduceValue rm sat f (r.1 % 2 ^ (8 * n)) (ofBytes (bs.take n))
    reduceElements c sp e rm sat f (writeElement r.2 c sp a (bytesOf n new)) os (bs.drop n)

/-- The value a far atomic leaves at its target (Table 8.5), on `n`-bit operands. -/
def atomicValue (op n old a b : Nat) : Nat :=
  if op = 0 then (old + a) % 2 ^ n
  else if op = 1 then max old a
  else if op = 2 then min old a
  else if op = 3 then (if toSigned n old < toSigned n a then a else old)
  else if op = 4 then (if toSigned n a < toSigned n old then a else old)
  else if op = 5 then old &&& a
  else if op = 6 then old ||| a
  else if op = 7 then old ^^^ a
  else if op = 8 then a
  else if old = b then a else old

/-- The update of a far atomic at its controller. A `.cas` whose comparison fails writes nothing. -/
def performAtomic (s : State) (c : Cmd) (size op : Nat) (sp : MemSpace) (e : BitVec 64) (off : Nat) : State :=
  let a := entryAddr e off
  let old := ofBytes (readBytes (s.mem.space sp) a size)
  let x := vword c 13 % 2 ^ (8 * size)
  let b := vword c 14 % 2 ^ (8 * size)
  if op = 9 ∧ old ≠ b then s
  else markWritten (writeElement s c sp a (bytesOf size (atomicValue op (8 * size) old x b))) sp e size false [off]

/-- The old value lands: the tile has observed the write that made it (R211). -/
def landOld (s : State) (c : Cmd) (sp : MemSpace) (a old : Nat) (fixed : Bool) : State :=
  let before (u : Unfenced) : Bool := u.space == sp && u.addr == a && !(u.tile == s.cur && u.id == c.id)
  let n := (s.mem.unfenced.filter before).length
  let s := s.mapMem fun m => { m with unfenced := (Reader.tile s.cur).observes s before n }
  donePiece (landStaging s c.id c.wp (vRet c) (bytesOf 8 old)) c.id 8 fixed

/-- The link loses the response of a far atomic that was performed: nothing lands, WP stays 0, and the command ends partial with LINK
(R356). -/
def loseResponse (s : State) (c : Cmd) : State :=
  mapCmd s c.id fun c => { c with pieces := [], done := 1, stop := some 9 }

/-- Is the tensor of a command sealed: the one that its handle still names? The piece in progress of a tensor that has gone finishes
(R200, R201). -/
def sealedFor (s : State) (c : Cmd) : Bool := (descOf s s.core.task.pasid c).any Desc.sealed

/-- The write part of a far atomic: the update at the controller and the old value at RET (R197, R356). A host-backed target
fails with NOMAP. Over a link that is down every piece ends with LINK (R252): the request is lost, or the response, of an update that was performed or
refused, by a free choice. A target whose block is poisoned stops the command, since no poison may land (R192), and then a sealed tensor does. DESIGN
CHOICE (log entry 34). -/
def writeAtomic (s : State) (c : Cmd) (p : Piece) (op : Nat) : State :=
  let size := p.size
  let e := p.entry
  let off := p.offs.headD 0
  let sp := entrySpace s.core.task.pasid (jobHere s) e
  let a := entryAddr e off
  let old := ofBytes (readBytes (s.mem.space sp) a size)
  let keeps := op == 9 && old != vword c 14 % 2 ^ (8 * size)
  let bad := (s.mem.mark sp a).bad
  let shut := sealedFor s c && !keeps
  if entryKind e = 2 then stopWith s c.id 7 true
  else if linkDown s sp then
    let r := s.choose true false
    if r.1 || bad || shut then stopWith r.2 c.id 9 true else loseResponse (performAtomic r.2 c size op sp e off) c
  else if bad then stopWith s c.id 3 true
  else if shut then stopWith s c.id 2 true
  else landOld (performAtomic s c size op sp e off) c sp a old (s.mem.mark sp a == .correctable)

/-- The write part of a store, a scatter or a reduction (R179, R193, R196, R200). -/
def writeStore (s : State) (c : Cmd) (p : Piece) : State :=
  let e := p.entry
  let sp := entrySpace s.core.task.pasid (jobHere s) e
  let size := p.size
  let plain := match c.kind with
    | .reduce _ _ _ => false
    | _ => true
  if sealedFor s c then stopWith s c.id 2 true
  else if linkDown s sp then stopWith s c.id 9 true
  else
    let fixed := mendsBlock s.mem sp e size plain p.offs
    let t := match c.kind with
      | .reduce rm sat f => reduceElements c sp e rm sat f s p.offs p.bytes
      | _ => writeElements c sp e size s p.offs p.bytes
    donePiece (markWritten t sp e size plain p.offs) c.id 0 fixed

/-- The write part of the oldest piece read, in the frame it began with: a piece in progress finishes whatever happens to the handle and
to its translation (R201, R202). -/
def writePiece (s : State) (c : Cmd) : State :=
  if !mayWrite s c then s
  else
    match c.pieces with
    | [] => s
    | p :: _ =>
      if c.kind.loads then writeLoad s c p
      else
        match c.kind with
        | .atomic op _ => writeAtomic s c p op
        | _ => writeStore s c p

/-- The frame of the element that the next read part begins with. -/
def nextFrame (s : State) (c : Cmd) : Option Nat :=
  if mayRead s c then
    match descOf s s.core.task.pasid c with
    | some d => match (locate s c d c.readPos).1 with
      | .at f _ => some f
      | .error _ => none
    | none => none
  else none

/-- The translation by which the write part of a store writes. -/
def writeEntry (s : State) (c : Cmd) : Option (BitVec 64) :=
  if !c.kind.loads && mayWrite s c then (c.pieces.head?).map Piece.entry else none

/-- A command whose next frame cannot be mapped stops with NOMAP: the pieces read before are still written (R191, R203). -/
def stopUnmapped (s : State) (c : Cmd) : State := stopWith s c.id 7 false

/-- Does the next part of the command reach a frame that does not exist (R2, R179)? -/
def reachesNoFrame (s : State) (tile id : Nat) (part : PiecePart) : Bool :=
  let s := s.select tile
  match cmdOf s id with
  | none => false
  | some c =>
    let entry := match part with
      | .reads => if c.kind.loads then (nextFrame s c).bind fun f => lookupEntry s c f else none
      | .writes => writeEntry s c
    entry.any fun e => noFrame s.mem e

/-- `BARGE_PIECE`: the read part or the write part of a piece (R189, R215). -/
def execBargePiece (tile id : Nat) (part : PiecePart) (s : State) : Out :=
  if reachesNoFrame s tile id part then .fault .noSuchFrame
  else
    .next (onCmd s tile id fun s c =>
      match part with
      | .reads => readPiece s c
      | .writes => writePiece s c)

/-! ### Completion (R190, R191, R197 to R201, R358, R360) -/

/-- The writes that a completed command makes visible at its scope: a fence every earlier one, a far atomic its own (R216, R356, R358). Scope 1
holds every reader of this device, whatever frame the write reached; scope 2 adds the agents outside it (R205). -/
def showWrites (s : State) (c : Cmd) : State :=
  let mine (u : Unfenced) : Bool := u.tile == s.cur
  match c.kind with
  | .fence scope => if 1 ≤ scope then s.showAt (decide (2 ≤ scope)) fun u => mine u && decide (u.id < c.id) else s
  | .atomic _ scope => if 1 ≤ scope then s.showAt (decide (2 ≤ scope)) fun u => mine u && u.id == c.id else s
  | _ => s

/-- Does a command name a tensor by its handle: all but a fence and a mark? -/
def BKind.named : BKind → Bool
  | .fence _ | .mark => false
  | _ => true

/-- Has the tensor of a command changed since its start (R201)? -/
def handleChanged (s : State) (c : Cmd) : Bool := c.kind.named && (descOf s s.core.task.pasid c).isNone

/-- Is a command ready to complete? -/
def completes (s : State) (c : Cmd) : Bool :=
  c.started &&
    match c.kind with
    | .mark => (earlier s c).isEmpty
    | .fence _ => (earlier s c).isEmpty || c.stop.isSome
    | .sealOn | .sealOff => (c.applied && shotDown s) || c.stop.isSome
    | _ => writesDone c

/-- Has a command done what its completion makes visible: a far atomic that was performed, or a command without an error (R197, R356)? -/
def showsWrites (c : Cmd) (err : Nat) : Bool :=
  match c.kind with
  | .atomic _ _ => decide (0 < c.done)
  | _ => decide (err = 0)

/-- The last write of a command's completion word. A command that an error has stopped keeps that error when its tensor's count changes before the
word: DESIGN CHOICE (log entry 14). -/
def completeCmd (s : State) (c : Cmd) : State :=
  if !completes s c then s
  else
    let err := match c.stop with
      | some e => e
      | none => if handleChanged s c then 1 else 0
    let state := if err = 0 then (if c.corrected then 2 else 1) else if c.done = 0 then 3 else 4
    finishCmd (if showsWrites c err then showWrites s c else s) c.id state err c.done c.wp

/-- `BARGE_COMPLETION`. -/
def execBargeCompletion (tile id : Nat) (s : State) : Out := .next (onCmd s tile id completeCmd)

/-! ### Walks, misses and shoot-down (R202, R203) -/

/-- The frame that the command's next piece needs, when the lookaside does not hold it. -/
def neededFrame (s : State) (c : Cmd) : Option Nat :=
  (nextFrame s c).bind fun f => if (lookupEntry s c f).isSome then none else some f

/-- Read the tile table for a frame: the level-2 entry, and whether an entry on the way is malformed (R182). A block of the table that holds an
error is read as it stands: DESIGN CHOICE (log entry 54). -/
def readTable (s : State) (root frame : Nat) : BitVec 64 × Bool :=
  let e1 := readWord s.mem.res (level1Addr root frame)
  if badLevel1 e1 then (0, true)
  else if !entryV e1 then (0, false)
  else
    let e2 := readWord s.mem.res (level2Addr e1 frame)
    (e2, badLevel2 e2)

/-- Walks in progress in a quadrant: it has eight walkers (R202). -/
def walksIn (s : State) (q : Nat) : Nat :=
  (List.range Config.tiles).foldl (fun n t => if quadrantOf t = q then n + (s.tile t).barge.walks.length else n) 0

/-- The root of the tile table of a command's tensor. -/
def rootOf (s : State) (c : Cmd) : Nat := (tget {} (jobHere s).tensors (vTensor c)).root

/-- The size of a tile table (R182). -/
def tableBytes : Nat := 0x20000

/-- Are the level-1 table at `root` and the level-2 table that it names for a frame in frames that are there (R2)? -/
def tableFits (s : State) (root frame : Nat) : Bool :=
  let e := readWord s.mem.res (level1Addr root frame)
  s.mem.fits .reservoir root tableBytes && (!entryV e || badLevel1 e || s.mem.fits .reservoir (entryFrame e) tableBytes)

/-- The frame for which a walk of a command may begin: it has none in progress, no miss to be served, and a walker of its quadrant is free
(R202). -/
def walkFrame (s : State) (c : Cmd) : Option Nat :=
  if s.core.barge.walks.any (fun w => w.id == c.id) || s.core.barge.misses.contains c.id || 8 ≤ walksIn s (quadrantOf s.cur) then none
  else neededFrame s c

/-- A walk begins: it notes the shoot-down counter and reads the table. -/
def beginWalk (s : State) (c : Cmd) : State :=
  match walkFrame s c with
  | none => s
  | some f =>
    let e := readTable s (rootOf s c) f
    s.mapBarge fun b => { b with walks := b.walks ++ [{ id := c.id, frame := f, seq := s.mem.shoot, entry := e.1, bad := e.2 }] }

/-- Set A of the level-2 entry from which a walk fills (R202). It is set in a table that a retained generation names too: DESIGN CHOICE (log
entry 56). -/
def markAccessed (s : State) (root frame : Nat) : State :=
  let e1 := readWord s.mem.res (level1Addr root frame)
  let a := level2Addr e1 frame
  if !entryV e1 then s
  else s.mapMem fun m => m.storeWord a (readWord m.res a ||| BitVec.ofNat 64 (2 ^ 60))

/-- The core of the MMP, of four, that serves the misses of a tile. -/
def coreOf (tile : Nat) : Nat := Config.mmpCore tile % 4

/-- Has a core of the MMP a miss to serve? -/
def coreBusy (s : State) (k : Nat) : Bool :=
  (List.range Config.tiles).any fun n => !(s.tile n).barge.misses.isEmpty && coreOf n == k

/-- The core that serves the tile checked out restarts its watchdog (R297). -/
def coreServes (s : State) : State := s.mapPlatform fun p => { p with coreServed := tset 0 p.coreServed (coreOf s.cur) p.halves }

/-- A walk that found no entry goes to the MMP (R202, R203). The watchdog of its core, which stands still while there is nothing to serve,
begins with it: DEDUCED (log entry 37). -/
def raiseMiss (s : State) (id : Nat) : State :=
  (s.mapPlatform fun p => if coreBusy s (coreOf s.cur) then p else (coreServes s).platform).mapBarge fun b =>
    { b with misses := b.misses ++ [id] }

/-- A walk ends: it is discarded when the counter has moved; a miss goes to the MMP; a malformed entry ends the command with
NOMAP, and so does a peer number that the job's map does not hold (DESIGN CHOICE, log entry 34); otherwise the lookaside is filled
(R202, R203). A full lookaside gives up its oldest entry: DESIGN CHOICE (log entry 43). -/
def endWalk (s : State) (c : Cmd) : State :=
  match s.core.barge.walks.find? fun w => w.id == c.id with
  | none => s
  | some w =>
    let s := s.mapBarge fun b => { b with walks := b.walks.filter fun w => w.id != c.id }
    if w.seq ≠ s.mem.shoot then s
    else if w.bad || (entryV w.entry && noPeer (jobHere s) w.entry) then stopUnmapped s c
    else if !entryV w.entry then raiseMiss s c.id
    else
      let l : Lookaside := { pasid := s.core.task.pasid, tensor := vTensor c, count := vCount c, frame := w.frame, entry := w.entry }
      let s := markAccessed s (rootOf s c) w.frame
      s.mapBarge fun b => { b with lookaside := (b.lookaside ++ [l]).drop (b.lookaside.length + 1 - 256) }

/-- Is what a walk reads, or the entry in which it sets A, in frames that are there (R2)? -/
def walkFits (part : WalkPart) (s : State) (c : Cmd) : Bool :=
  match part with
  | .begins => (walkFrame s c).all (tableFits s (rootOf s c))
  | .fills => (s.core.barge.walks.find? fun w => w.id == c.id).all fun w =>
      decide (w.seq ≠ s.mem.shoot) || w.bad || !entryV w.entry || noPeer (jobHere s) w.entry || tableFits s (rootOf s c) w.frame

/-- A property of a command of a tile, true where there is none. -/
def forCmd (s : State) (tile id : Nat) (f : State → Cmd → Bool) : Bool := (cmdOf (s.select tile) id).all (f (s.select tile))

/-- `LOOKASIDE_WALK`. -/
def execLookasideWalk (tile id : Nat) (part : WalkPart) (s : State) : Out :=
  fitted (forCmd s tile id (walkFits part)) <| .next (onCmd s tile id fun s c =>
    match part with
    | .begins => beginWalk s c
    | .fills => endWalk s c)

/-! ### Tile tables as the MMP writes them (R203, R473) -/

/-- The level-1 tables that retained generations of a job name (R473). -/
def keptRoots (j : Job) : List Nat :=
  (j.gens.filter Gen.retained).flatMap fun g => (g.descs.filter fun d => d.2.live).map fun d => d.2.root

/-- Before the MMP changes a tile table that a retained generation names, the tensor gets new table pages: a level-1 table, and the
level-2 table of the frame; the generation keeps the old ones (R473). -/
def ownTables (s : State) (p tensor frame : Nat) : State :=
  let d := tget {} (s.job p).tensors tensor
  let kept := keptRoots (s.job p)
  let s := if kept.contains d.root then
      let a := s.mem.allocateAligned 17 tableBytes
      { s with mem := a.2.copyRun .reservoir d.root .reservoir a.1 tableBytes }.mapJob p fun j =>
        { j with tensors := tset {} j.tensors tensor { d with root := a.1 } }
    else s
  let root := (tget {} (s.job p).tensors tensor).root
  let e := readWord s.mem.res (level1Addr root frame)
  if entryV e && kept.any fun r => readWord s.mem.res (level1Addr r frame) == e then
    let b := s.mem.allocateAligned 17 tableBytes
    let m := b.2.copyRun .reservoir (entryFrame e) .reservoir b.1 tableBytes
    { s with mem := m.storeWord (level1Addr root frame) (BitVec.ofNat 64 (2 ^ 63 + b.1)) }
  else s

/-- Are the tables of a tensor that the MMP reads or changes for a frame there, with those that retained generations name (R2, R473)? -/
def tablesFit (s : State) (p tensor frame : Nat) : Bool :=
  tableFits s (tget {} (s.job p).tensors tensor).root frame &&
    (keptRoots (s.job p)).all fun r => s.mem.fits .reservoir r tableBytes

/-- A level-2 table for a frame index: allocated, all zero, when the level-1 entry has V = 0 (R203). -/
def ownLevel2 (s : State) (root frame : Nat) : State :=
  let a := level1Addr root frame
  if entryV (readWord s.mem.res a) then s
  else
    let t := s.mem.allocateAligned 17 tableBytes
    { s with mem := t.2.storeWord a (BitVec.ofNat 64 (2 ^ 63 + t.1)) }

/-- The MMP writes a level-2 entry of a tensor. -/
def setEntry (s : State) (p tensor frame : Nat) (e : BitVec 64) : State :=
  let s := ownTables s p tensor frame
  let root := (tget {} (s.job p).tensors tensor).root
  let s := ownLevel2 s root frame
  s.mapMem fun m => m.storeWord (level2Addr (readWord m.res (level1Addr root frame)) frame) e

/-- The MMP answers the miss of a command: its barge may walk again. -/
def answerMiss (s : State) (id : Nat) : State := s.mapBarge fun b => { b with misses := b.misses.filter fun m => m != id }

/-- A command whose frame cannot be mapped ends with NOMAP. -/
def noMap (s : State) (c : Cmd) : State := stopUnmapped (answerMiss s c.id) c

/-- What the MMP has done, when the frames that it took are fitted; an allocation that fails ends the command with NOMAP (R203). -/
def ifFits (t s : State) (c : Cmd) : State := if t.mem.nextFrame ≤ t.mem.capacity then t else noMap s c

/-- A tensor's own level-2 table for a frame (R203, R473). -/
def prepareTables (s : State) (p tensor frame : Nat) : State :=
  let s := ownTables s p tensor frame
  ownLevel2 s (tget {} (s.job p).tensors tensor).root frame

/-- Fill a miss of a reservoir-backed tensor with a fresh frame of zero bytes; for a host-backed one only the level-2 table is
made, and the MMP asks the host (R203). A frame that the table names by now only answers the miss. -/
def fillMiss (s : State) (c : Cmd) (mapped : Bool) : State :=
  let p := s.core.task.pasid
  let d := tget {} (jobHere s).tensors (vTensor c)
  match neededFrame s c with
  | none => answerMiss s c.id
  | some f =>
    if !mapped then noMap s c
    else if entryV (readTable s d.root f).1 then answerMiss s c.id
    else if d.host then ifFits (prepareTables s p (vTensor c) f) s c
    else
      let t := prepareTables s p (vTensor c) f
      let a := t.mem.allocate Config.frameBytes
      let frame := a.1 / Config.frameBytes
      let t := { t with mem := { a.2 with frames := tset (0, 0) a.2.frames frame (p + 1, (t.job p).cuts) } }
      ifFits (answerMiss (setEntry t p (vTensor c) f (BitVec.ofNat 64 (2 ^ 63 + frame))) c.id) s c

/-- Are the tables there that the service of a miss reaches: it reaches none when it does not map a frame (R2)? -/
def missFits (mapped : Bool) (s : State) (c : Cmd) : Bool :=
  !mapped || !s.core.barge.misses.contains c.id || (neededFrame s c).all (tablesFit s s.core.task.pasid (vTensor c))

/-- A step of the MMP that reaches memory: a frame that is not there stops it (R2, R179). -/
def mmpReaching (s : State) (ok : Bool) (f : State → State) : Out := fitted (!mmpRuns s || ok) (managed s f)

/-- `MMP_MISS_FILL`: `mapped` is false when the MMP cannot map the miss. -/
def execMmpMissFill (tile id : Nat) (mapped : Bool) (s : State) : Out :=
  mmpReaching s (forCmd s tile id (missFits mapped)) fun s => (onCmd s tile id fun s c => if s.core.barge.misses.contains id then fillMiss (coreServes s) c mapped else s)

/-- `HOST_FRAME_REPLY`: the host names the frame of a host-backed miss, or refuses (R203). A frame that the table names by now, by the
reply to another tile's miss, stands: the reply only answers the miss. -/
def execHostFrameReply (tile id : Nat) (frame : Option Nat) (s : State) : Out :=
  let host (s : State) (c : Cmd) : Bool := (tget {} (jobHere s).tensors (vTensor c)).host
  mmpReaching s (forCmd s tile id fun s c => !host s c || missFits frame.isSome s c) fun s => (onCmd s tile id fun s c =>
    if s.core.barge.misses.contains id && host s c then
      let s := coreServes s
      match frame, neededFrame s c with
      | some f, some k =>
        if entryV (readTable s (rootOf s c) k).1 then answerMiss s id
        else ifFits (answerMiss (setEntry s s.core.task.pasid (vTensor c) k (BitVec.ofNat 64 (2 ^ 63 + place 2 61 + f % 2 ^ 48))) id) s c
      | none, _ => noMap s c
      | _, none => answerMiss s id
    else s)

/-- A reservoir frame that the MMP puts into a tile table belongs to the job, private to the live generation unless the job held
it before (R230). One that is not there belongs to no job (R2). -/
def ownFrame (s : State) (p : Nat) (e : BitVec 64) : State :=
  let f := entryFrame e
  if entryV e && entryKind e == 0 && !noFrame s.mem e && (tget (0, 0) s.mem.frames f).1 != p + 1 then
    s.mapMem fun m => { m with frames := tset (0, 0) m.frames f (p + 1, (s.job p).cuts) }
  else s

/-- Does the MMP copy the frame of a sealed tensor to a peer of the job's map, when it maps the frame there (R200)? -/
def copies (s : State) (p tensor : Nat) (old entry : BitVec 64) : Bool :=
  (tget {} (s.job p).tensors tensor).sealed && entryV old && entryV entry && entryKind entry == 1 && !noPeer (s.job p) entry

/-- A frame of a sealed tensor that the MMP maps to a peer of the job's map: the copy there holds what the frame holds, marks and all,
and the entry that `BOPEN` puts back is kept (R179, R200, R218). -/
def copyToPeer (s : State) (p tensor frame : Nat) (entry : BitVec 64) : State :=
  let d := tget {} (s.job p).tensors tensor
  let old := (readTable s d.root frame).1
  if copies s p tensor old entry then
    let j := s.job p
    let s := s.mapMem fun m =>
      m.copyRun (entrySpace p j old) (entryAddr old 0) (entrySpace p j entry) (entryAddr entry 0) Config.frameBytes
    let kept := if tget 0 d.moved frame = 0 then tset 0 d.moved frame old else d.moved
    s.mapJob p fun j => { j with tensors := tset {} j.tensors tensor { d with moved := kept } }
  else s

/-- Is all there that a shoot-down reaches: the tables, and a frame that it copies (R2, R179)? -/
def shootFits (s : State) (p tensor frame : Nat) (entry : BitVec 64) : Bool :=
  let d := tget {} (s.job p).tensors tensor
  let old := (readTable s d.root frame).1
  !d.live || (tablesFit s p tensor frame && !(copies s p tensor old entry && noFrame s.mem old))

/-- `SHOOTDOWN`: the MMP changes a level-2 entry, moves every quadrant's counter and removes the matching lookaside entries
(R202). -/
def execShootdown (pasid tensor frame : Nat) (entry : BitVec 64) (s : State) : Out :=
  mmpReaching s (shootFits s pasid tensor frame entry) fun s =>
    if (tget {} (s.job pasid).tensors tensor).live then
      let t := shoot (ownFrame (setEntry (copyToPeer s pasid tensor frame entry) pasid tensor frame entry) pasid entry) fun e =>
        e.pasid == pasid && e.tensor == tensor && e.frame == frame
      if t.mem.nextFrame ≤ t.mem.capacity then t else s
    else s

/-- The tile-table entries of a tensor's frames before they were mapped to copies are back: each frame has one copy (R200, R218). -/
def dropCopies (s : State) (p tensor : Nat) : State :=
  let d := tget {} (s.job p).tensors tensor
  let s := d.moved.foldl (fun s x => setEntry s p tensor x.1 x.2) s
  s.mapJob p fun j => { j with tensors := tset {} j.tensors tensor { tget {} j.tensors tensor with moved := [] } }

/-- `SEAL_CHANGE`: the MMP sets or clears the sealed flag of the tensor that a started `BSEAL` or `BOPEN` names, and shoots its
entries down (R200, R361). A seal makes what the controllers have performed the one value of every element (R218); an unseal removes
the copies. -/
def applySeal (s : State) (c : Cmd) (v : Bool) : State :=
  let p := s.core.task.pasid
  match descOf s p c with
  | none => stopWith s c.id 1 false
  | some d =>
    let s := if d.sealed = v then s
      else
        let s := s.mapJob p fun j => { j with tensors := tset {} j.tensors (vTensor c) { d with sealed := v } }
        let s := if v then s.show fun u => u.pasid == p && u.tensor == vTensor c else dropCopies s p (vTensor c)
        shoot s fun e => e.pasid == p && e.tensor == vTensor c
    mapCmd s c.id fun c => { c with applied := true }

/-- Is a `BSEAL` or `BOPEN` waiting for the MMP? -/
def sealDue (c : Cmd) : Bool := c.started && !c.applied && c.stop.isNone

/-- Are the tables there in which an unseal puts entries back (R2)? -/
def sealFits (s : State) (c : Cmd) : Bool :=
  !(sealDue c && c.kind == .sealOff) || (descOf s s.core.task.pasid c).all fun d =>
    !d.sealed || d.moved.all fun x => tablesFit s s.core.task.pasid (vTensor c) x.1

/-- See `applySeal`. While the table pages that an unseal needs do not fit, the change waits: DESIGN CHOICE (log entry 6). -/
def execSealChange (tile id : Nat) (s : State) : Out :=
  mmpReaching s (forCmd s tile id sealFits) fun s => (onCmd s tile id fun s c =>
    if sealDue c then
      match c.kind with
      | .sealOn => applySeal s c true
      | .sealOff =>
        let t := applySeal s c false
        if t.mem.nextFrame ≤ t.mem.capacity then t else s
      | _ => s
    else s)

end Sys2Proof.Machine
end

