-- ==== Sys2Proof/Machine/CanalEvents.lean ====
section
/-! DEFINITION. Canal rows at a router, overruns, lock crossings and Sarpol flits (R240 to R254). -/

namespace Sys2Proof.Machine

/-! ### Rows at a tile's router -/

/-- Does the tile checked out issue no bundle on this clock cycle, though it holds a task (R82, R242, R373)? -/
def issuesNothing (s : State) : Bool :=
  match s.core.ctl.status with
  | .waiting | .stopped | .ended => true
  | _ => false

/-- A cause at a tile that issues nothing: a waiting task traps (R242), an ended one taints the launch (R373), a stopped one has
trapped already (R282). -/
def idleCause (s : State) (cause detail : Nat) : State :=
  match s.core.ctl.status with
  | .waiting => takeWaitTrap s cause detail
  | .ended => s.mapGang s.core.task.gid fun g => { g with tainted := true }
  | _ => s

/-- Do rows stand before the router of the tile checked out: some enter on this clock cycle, or the early test finds a conflict at
a tile that issues nothing? -/
def routerDue (s : State) : Bool :=
  !(s.gang s.core.task.gid).held &&
    (!(entering s s.cur s.clock).isEmpty ||
      (issuesNothing s && (earlyConflict s || (lateConflict s && decide (s.core.ctl.status = .waiting)))))

/-- Rows enter; a conflict at a tile that issues nothing is raised at once (R242). -/
def routerHere (s : State) : State :=
  let s := arrive s
  if issuesNothing s && earlyConflict s then idleCause (discardConflicts s) 7 0
  else if lateConflict s && decide (s.core.ctl.status = .waiting) then idleCause s 7 0
  else s

/-- `CANAL_ROW_ARRIVE`: every row that enters the router of a tile on this clock cycle (R240, R242). -/
def execCanalRowArrive (n : Nat) (s : State) : Out :=
  .next (s.onTile n fun s => if routerDue s then routerHere s else s)

/-- Does a latch of the tile checked out, which waits, overrun on this clock cycle (R247)? -/
def overrunDue (s : State) (l : Nat) : Bool :=
  decide (s.core.ctl.status = .waiting) && !(s.gang s.core.task.gid).held && overruns s l false

/-- `RECEIVE_OVERRUN` at a tile that waits; a tile that issues raises it with its bundle (R247). -/
def execReceiveOverrun (tile latch : Nat) (s : State) : Out :=
  .next (s.onTile tile fun s => if overrunDue s latch then takeWaitTrap s 8 0 else s)

/-! ### Lock crossings (R248 to R250) -/

/-- A cause raised at the bundle that the tile checked out would issue, which is fetched and suppressed, or at its wait (R81, R293). -/
def trapHere (s : State) (cause detail : Nat) : State :=
  match s.core.ctl.status with
  | .running =>
    let f := fetch s
    takeTrap (f.2.mapCtl fun c => { c with ir := f.1.2 }) { order := 6, cause := cause, detail := detail, slot := 15 }
  | _ => idleCause s cause detail

/-- The gang that uses a crossing: that of its edge tile, once started, when it spans packages (R25). -/
def gangAt (s : State) (tile : Nat) : Option Nat :=
  let t := s.tile tile
  if t.ctl.status = .idle || decide ((s.gang t.task.gid).pkg = 0) then none else some t.task.gid

/-- A crossing ends: every tile of its gang traps with cause overrun, DETAIL 1 (R250). -/
def endCrossing (s : State) (k : Nat) : State :=
  let x := tget {} s.fabric.crossings k
  if x.live then
    let s := s.mapFabric fun f => { f with crossings := tset {} f.crossings k { x with live := false } }
    match gangAt s x.tile with
    | none => s
    | some g => (s.gang g).tiles.foldl (fun s n => s.onTile n fun s => trapHere s 8 1) s
  else s

/-- `LOSS_OF_LOCK`. -/
def execLossOfLock (k : Nat) (s : State) : Out := .next (endCrossing s k)

/-- A hold event of the gang in another package: the first asks for the hold, the next one says that its cause has cleared. The
padded latency has passed on the way (R38). -/
def remoteHold (s : State) (g : Nat) : State :=
  if (s.gang g).causes.contains .remote then
    (s.clearHold g .remote).mapGang g fun x => { x with resumeAt := x.resumeAt.map fun t => t - x.pad }
  else
    let fresh := (s.gang g).effectAt.isNone && !(s.gang g).held
    (s.requestHold g .remote).mapGang g fun x => if fresh then { x with effectAt := some (s.clock + 16) } else x

/-- The row of a unit enters the edge tile's router on the next clock cycle; an uncorrectable flit poisons it (R250). -/
def unitRow (x : Crossing) (u : CrossingUnit) (g : Nat) (s : State) : State :=
  if u.valid then
    let f : Flight := { route := u.route.toNat, row := u.row, poison := u.poison || !u.correctable, corrected := false, mark := .good,
                        tile := x.tile, input := x.side + 1, enters := s.clock + 1, gid := g }
    { s with flights := s.flights ++ [f] }
  else s

/-- The event whose copy unit `n` holds: the number of the unit with its first copy, plus three. Each event stands in three
consecutive units (R250). -/
def eventOf (n copy : Nat) : Nat := n + 3 - min copy 2

/-- The events seen, with one more: those of the last three. -/
def noteEvent (seen : List Nat) (e : Nat) : List Nat := (e :: seen).take 3

/-- A barrier arrival of another package: the first copy that arrives intact counts (R32, R250). -/
def unitArrival (k n g : Nat) (a : Nat × Nat × Nat) (s : State) : State :=
  let x := tget {} s.fabric.crossings k
  let e := eventOf n a.2.2
  if x.arrivalSeen.contains e then s
  else
    let s := s.mapFabric fun f => { f with
      crossings := tset {} f.crossings k { x with arrivalSeen := noteEvent x.arrivalSeen e } }
    (arriveAt s g a.1 a.2.1 (s.clock - (s.gang g).pad)).2

/-- A hold event of another package: the first copy that arrives intact counts (R38, R250). -/
def unitHold (k n g copy : Nat) (s : State) : State :=
  let x := tget {} s.fabric.crossings k
  let e := eventOf n copy
  if x.holdSeen.contains e then s
  else
    let s := s.mapFabric fun f => { f with crossings := tset {} f.crossings k { x with holdSeen := noteEvent x.holdSeen e } }
    remoteHold s g

/-- The sideband of a unit that arrives intact. -/
def unitEvents (k n : Nat) (u : CrossingUnit) (g : Nat) (s : State) : State :=
  let s := match u.arrival with
    | some a => unitArrival k n g a s
    | none => s
  match u.hold with
  | some copy => unitHold k n g copy s
  | none => s

/-- A stretch that another package of the lock group requests for this clock cycle: the longest one stands (R249). -/
def groupStretch (s : State) (kind : Nat) : State :=
  if kind = 0 then s
  else s.mapFabric fun f => { f with
    stretchAt := s.clock + 1, stretchKind := if f.stretchAt = s.clock + 1 then max f.stretchKind kind else kind }

/-- `CROSSING_UNIT`: the row and the sideband of one unit (R250). A unit that its flit's FEC cannot correct brings its row, poisoned,
and no event. An event of which no copy is intact ends the crossing. -/
def execCrossingUnit (k : Nat) (u : CrossingUnit) (s : State) : Out :=
  let x := tget {} s.fabric.crossings k
  .next <|
    if !x.live then s
    else
      let s := s.mapFabric fun f => { f with crossings := tset {} f.crossings k { x with units := x.units + 1 } }
      let s := if u.correctable then groupStretch s u.stretch else s
      if u.eventLost then endCrossing s k
      else
        match gangAt s x.tile with
        | none => s
        | some g =>
          let s := unitRow x u g s
          if u.correctable then unitEvents k x.units u g s else s

/-- Is a Sarpol port assigned to a live crossing other than `k` (R248, R251)? The ports of a crossing that has ended serve fabric traffic again:
DESIGN CHOICE (log entry 57). -/
def portBonded (s : State) (k p : Nat) : Bool :=
  s.fabric.crossings.any fun c => decide (c.1 ≠ k) && c.2.live && (c.2.ports.1 == p || c.2.ports.2 == p)

/-- `CROSSING_TRAINING`: a crossing of an off-grid side over a bonded pair of ports is used when its padded latency lies in 512 to
4,096 and delivery within it is guaranteed (R248, R251). -/
def execCrossingTraining (k : Nat) (edge ports : Nat × Nat) (latency : Nat) (ok : Bool) (s : State) : Out :=
  let tile := edge.1
  let side := edge.2
  linked s fun s =>
    if k < 8 && tile < Config.tiles && side < 4 && (neighbour tile side).isNone && ports.1 < 64 && ports.2 < 64 &&
        ports.1 != ports.2 && !portBonded s k ports.1 && !portBonded s k ports.2 then
      let live := ok && decide (512 ≤ latency) && decide (latency ≤ 4096)
      let x : Crossing := { live := live, tile := tile, side := side, ports := ports, latency := if live then latency else 0 }
      s.mapFabric fun f => { f with crossings := tset {} f.crossings k x }
    else s

/-! ### Sarpol (R252) -/

/-- The memory that a flit writes (Table 9.1). -/
def fabricSpace : Sys2Proof.FabricSpace → MemSpace
  | .reservoir => .reservoir
  | .host p => .host p
  | .peer n => .peer n

/-- Has a flit the layout of Table 11.3? -/
def flitLaidOut (f : Sys2Proof.Flit) : Bool := f.header.length == 6 && f.payload.length == 240

/-- Does a flit pass: at most three wrong bytes, which FEC corrects, and the CRC-32C of its header and payload (Table 11.3, R252)? -/
def flitPasses (f : Sys2Proof.Flit) : Bool :=
  decide (f.wrongBytes ≤ 3) && f.crc == crc32c (f.header ++ f.payload)

/-- `SARPOL_FLIT`: a flit of a fabric port that passes FEC and CRC performs the write it carries; one that fails is replayed, and after
eight failed replays the link is down (R251, R252). No field of the header is read, since no rule places its bits: DESIGN CHOICE (log entry
15). Link 4,096 is the host's. A write to a frame that is not there faults (R2, R179). -/
def execSarpolFlit (port link : Nat) (flit : Flit) (s : State) : Out :=
  let refused := decide (64 ≤ port) || portBonded s 8 port || !flitLaidOut flit || tget false s.fabric.down link
  let there := flit.write.all fun x => s.mem.fits (fabricSpace x.space) x.addr x.bytes.length
  fitted (!deviceUp s || refused || !flitPasses flit || there) <| linked s fun s =>
    if refused then s
    else if flitPasses flit then
      let s := s.mapFabric fun f => { f with replays := tset 0 f.replays link 0 }
      match flit.write with
      | none => s
      | some x => s.writeSpace (fabricSpace x.space) x.addr x.bytes
    else
      let n := tget 0 s.fabric.replays link + 1
      s.mapFabric fun f => { f with replays := tset 0 f.replays link n, down := tset false f.down link (decide (9 ≤ n)) }

end Sys2Proof.Machine
end

