-- ==== Sys2Proof/Machine/Holds.lean ====
section
/-! DEFINITION. The events that the clock fixes: results, waits and barriers, holds, refresh, spare exhaustion, re-planning, and the
completion of a task (R32, R38, R58, R144 to R153, R233, R372, R446). -/

namespace Sys2Proof.Machine

/-! ### Results (R58) -/

/-- Has a result of the tile checked out reached its readable CYC? A stopped tile lands nothing (R82). -/
def resultDue (s : State) : Bool :=
  let c := s.core.ctl
  (c.status == .running || c.status == .waiting) && s.core.results.any fun r => decide (r.ready ≤ c.cyc)

/-- The end of issue: results in flight land, and a row in a receive latch is discarded and taints the launch (R372, R373). -/
def endIssue (s : State) : State :=
  let s := landAll s
  let s := if s.core.canal.latches.isEmpty then s else s.mapGang s.core.task.gid fun g => { g with tainted := true }
  s.mapCanal fun c => { c with latches := [] }

/-- Every result that has reached its readable CYC lands. -/
def landHere (s : State) : State :=
  let s := land s
  checkTrigger (if s.core.ctl.status = .ended then endIssue s else s)

/-- `RESULT_LAND` (R58). -/
def execResultLand (tile : Nat) (s : State) : Out :=
  .next (s.onTile tile fun s => if resultDue s then landHere s else s)

/-! ### Barriers and waits (R32, R446) -/

/-- The wait of the tile checked out is over: its next bundle may issue. -/
def endWait (s : State) : State := s.mapCtl fun c => { c with status := .running, wait := none }

/-- Does the tile checked out wait on a phase of a barrier? -/
def waitsOn (s : State) (b phase : Nat) : Bool :=
  decide (s.core.ctl.status = .waiting) &&
    match s.core.ctl.wait with
    | some w => w.on == .barrier b phase
    | none => false

/-- Release one phase of a barrier in every tile of the gang. -/
def releasePhase (gid b phase : Nat) (s : State) : State :=
  (s.gang gid).tiles.foldl (fun s n => s.onTile n fun s => if waitsOn s b phase then endWait s else s) s

/-- A release of the gang whose clock has come. -/
def releaseDue (s : State) (g : Gang) (r : Nat × Nat × Nat) : Bool := !g.held && decide (r.2.2 ≤ s.clock)

/-- `BARRIER_RELEASE`: every task that waits on a completed phase of the barrier goes on, on the common release clock (R32). -/
def execBarrierRelease (gid b : Nat) (s : State) : Out :=
  let g := s.gang gid
  let rs := g.releases.filter fun r => r.1 == b && releaseDue s g r
  let s := rs.foldl (fun s r => releasePhase gid r.1 r.2.1 s) s
  .next (if rs.isEmpty then s else
    s.mapGang gid fun g => { g with releases := g.releases.filter fun r => !(rs.contains r) })

/-- What an ended wait orders: every byte of a command that `WAITT` saw out of pending, and the first min(n, WP) bytes that a
`WAITP` saw, with every command that came before it; a `WAITP` that saw none orders nothing (R206, R207, R446, R447). -/
def observe (s : State) : WaitFor → State
  | .barrier _ _ => s
  | .token id =>
    let ids := pastClosure s.core.barge.past (id + 1) [id]
    (s.mapBarge fun b => { b with observed := if b.observed.contains id then b.observed else b.observed ++ [id] }).mapStaging
      fun t => { t with unseen := dropSeen StaleUnit.unit (fun x => ids.contains x.id) t.unseen }
  | .pointer id n =>
    let ids := pastClosure s.core.barge.past (id + 1) [id]
    let wp := wordWp (tget 0 s.core.barge.words id)
    if min n wp = 0 then s
    else s.mapStaging fun t => { t with unseen := dropSeen StaleUnit.unit (fun x =>
      ids.contains x.id && (x.id != id || decide (x.place < min n wp))) t.unseen }

/-- Is the wait of the tile checked out over: its condition was met on an earlier clock, and the gang is not held (R446)? -/
def waitOver (s : State) : Bool :=
  decide (s.core.ctl.status = .waiting) && !(s.gang s.core.task.gid).held &&
    match s.core.ctl.wait with
    | some w => match w.met with
      | some t => decide (t < s.clock)
      | none => false
    | none => false

/-- `WAIT_END` (R446). -/
def execWaitEnd (tile : Nat) (s : State) : Out :=
  .next <| s.onTile tile fun s =>
    if waitOver s then
      match s.core.ctl.wait with
      | some w => endWait (observe s w.on)
      | none => s
    else s

/-! ### Holds (R38, R39, R41) -/

/-- Is a requested hold of the gang, which has started, due to take effect? -/
def holdDue (s : State) (g : Gang) : Bool :=
  !g.held && decide (g.life = .started) && match g.effectAt with
    | some t => decide (t ≤ s.clock)
    | none => false

/-- The hold takes effect: a trap withdraws a pre-emption that is still entering (R288), `BRK` and `TRAP` records are completed
(R284), and cancelled tasks end (Table 2.3). -/
def takeHold (s : State) (gid : Nat) : State :=
  let s := s.mapGang gid fun g => { g with
    held := true, heldSince := s.clock, effectAt := none,
    causes := if g.causes.contains .trap then g.causes.filter fun c => !(c == .preempt) else g.causes }
  let s := (s.gang gid).tiles.foldl (fun s n => s.onTile n completeTrap) s
  if (s.gang gid).causes.contains .cancel then endTasksAtHold s gid else s

/-- `HOLD_TAKE_EFFECT` (R38). -/
def execHoldTakeEffect (gid : Nat) (s : State) : Out :=
  .next (if holdDue s (s.gang gid) then takeHold s gid else s)

/-- Is the gang due to resume? -/
def resumeDue (s : State) (g : Gang) : Bool :=
  g.held && g.causes.isEmpty && match g.resumeAt with
    | some t => decide (t ≤ s.clock)
    | none => false

/-- The canal side of a tile after `d` held cycles: windows stood still (R39, R247). -/
def Canal.shift (c : Canal) (d : Nat) : Canal :=
  { c with latches := c.latches.map fun x => (x.1, x.2.map fun h => { h with since := h.since + d }),
           old := c.old.map fun o => (o.1 + d, o.2), conflictAt := c.conflictAt.map fun t => t + d }

/-- One tile resumes: latches are lost (R66), a task with a `BRK` or `TRAP` record goes on at NPC (R287). -/
def resumeTile (d : Nat) (s : State) : State := (returnFromTrap (loseLatches s)).mapCanal fun c => c.shift d

/-- Every frozen interval goes on from where it stopped: rows in flight, receive windows, barrier releases (R39). -/
def resumeGang (s : State) (gid : Nat) : State :=
  let d := s.clock - (s.gang gid).heldSince
  let s := (s.gang gid).tiles.foldl (fun s n => s.onTile n (resumeTile d)) s
  let s := { s with flights := s.flights.map fun (f : Flight) => if f.gid == gid then { f with enters := f.enters + d } else f }
  s.mapGang gid fun g => { g with
    held := false, resumeAt := none, effectAt := none, firstTrap := none, signalled := false,
    releases := g.releases.map fun (r : Nat × Nat × Nat) => (r.1, r.2.1, r.2.2 + d) }

/-- `GANG_RESUME` (R38). -/
def execGangResume (gid : Nat) (s : State) : Out := .next (if resumeDue s (s.gang gid) then resumeGang s gid else s)

/-! ### Refresh (R146 to R148) -/

/-- Does a refresh of a bank of the tile checked out fall due? The banks of a tile whose gang has not started owe none (R144). -/
def bankDue (s : State) (n : Nat) : Bool :=
  decide (n < 64) && decide ((s.gang s.core.task.gid).life = .started) && decide (s.core.ctl.status ≠ .idle) &&
    decide ((bankOf s n).due ≤ s.clock)

/-- `REFRESH_DUE`: DEBT rises by one, to nine at most, RDUE reloads with the interval of the grade, and a debt of nine requests the guard's
hold (R146, R148, Table 6.5). That DEBT stands at nine while a long entry lets more refreshes fall due: DEDUCED (log entry 35). -/
def execRefreshDue (tile bank : Nat) (s : State) : Out :=
  .next <| s.onTile tile fun s =>
    if bankDue s bank then
      let b := bankOf s bank
      let s := setBank s bank { b with debt := min 9 (b.debt + 1), due := b.due + Config.refreshInterval (s.grade (quadrantOf s.cur)) }
      if 9 ≤ b.debt + 1 then s.requestHold s.core.task.gid .refresh else s
    else s

/-- The Active banks of the tile checked out, with row and intent. -/
def activeBanks (s : State) : List (Nat × Nat × Bool) :=
  (List.range 64).filterMap fun n =>
    let b := bankOf s n
    if b.modeAt s.clock = .active then some (n, b.row, b.intent) else none

/-- The clock on which every Active bank can be precharged, from clock `t0` on. -/
def prechargeClock (s : State) (t0 : Nat) : Nat :=
  (activeBanks s).foldl (fun t x => max t (bankOf s x.1).preAt) t0

/-- The clock, not before `t`, from which ACTRDY of every bank reads 0. -/
def quietClock (s : State) (t : Nat) : Nat := (List.range 64).foldl (fun t n => max t (bankOf s n).actAt) t

/-- The largest DEBT of a channel's banks. -/
def channelDebt (s : State) (c : Nat) : Nat := (banksOf c).foldl (fun m n => max m (bankOf s n).debt) 0

/-- The cycles that reopening the listed banks takes, until every counter reads 0: the k-th activate of a channel comes
4·(k mod 4) + 32·(k div 4) cycles after the first (tRRD, tFAW), and PRERDY is the last counter to run out. -/
def reopenCycles (saved : List (Nat × Nat × Bool)) : Nat :=
  (List.range 4).foldl (fun m c =>
    ((saved.filter fun x => x.1 / 16 == c).zipIdx).foldl (fun m x =>
      max m (4 * (x.2 % 4) + 32 * (x.2 / 4) + (if x.1.2.2 then 110 else 68))) m) 0

/-- Does any bank of the tile checked out owe a refresh? -/
def owes (s : State) : Bool := (List.range 64).any fun n => decide (0 < (bankOf s n).debt)

/-- May the guard of the tile checked out begin: the hold is in effect, and no guard of the gang began on an earlier clock? -/
def guardStarts (s : State) : Bool :=
  let g := s.gang s.core.task.gid
  g.held && g.causes.contains .refresh && s.core.vault.guard.isNone && owes s && decide (s.core.ctl.status ≠ .idle) &&
    g.tiles.all fun n => match (s.tile n).vault.guard with
      | some x => decide (x.startAt = s.clock)
      | none => true

/-- The guard begins: its end is fixed by the banks as they stand (R148). Precharge readiness, tRP, the refreshes of the channels in parallel and the
reopening follow one another; a refresh that still runs as the guard begins delays only the end, where every counter reads 0: DEDUCED (log entry
35). -/
def startGuard (s : State) : State :=
  let saved := activeBanks s
  let refresh := (List.range 4).foldl (fun m c => max m (420 * channelDebt s c)) 0
  let t := quietClock s (prechargeClock s s.clock + 30 + refresh + reopenCycles saved)
  s.mapVault fun v => { v with guard := some { saved := saved, startAt := s.clock, endAt := t } }

/-- Is the guard of the tile checked out at its end? -/
def guardEnds (s : State) : Bool :=
  match s.core.vault.guard with
  | some g => decide (g.endAt ≤ s.clock)
  | none => false

/-- Every counter of the tile's banks and channels reads 0, every bank that was not saved is Idle. -/
def settleBanks (s : State) (saved : List (Nat × Nat × Bool)) : State :=
  let s := forEach s (fun s n =>
    let b := bankOf s n
    match saved.find? fun x => x.1 == n with
    | some x => setBank s n { b with mode := .active, row := x.2.1, intent := x.2.2, colAt := 0, preAt := 0, actAt := 0 }
    | none => setBank s n { b with mode := .idle, row := 0, intent := false, colAt := 0, preAt := 0, actAt := 0 }) (List.range 64)
  s.mapVault fun v => { v with channels := [] }

/-- Reopened rows follow the clone rule (R148, R232, R233). -/
def reopenClones (s : State) (saved : List (Nat × Nat × Bool)) : State :=
  saved.foldl (fun s x => if x.2.2 then cloneIfNeeded s x.1 x.2.1 else s) s

/-- The guard ends: DEBT is 0 in every bank, every bank that was Active is Active again with its row and intent, every counter
reads 0; the cause clears with the last guard of the gang (R148). -/
def endGuard (s : State) (g : Guard) : State :=
  let s := reopenClones (settleBanks s g.saved) g.saved
  let s := forEach s (fun s n => setBank s n { bankOf s n with debt := 0 }) (List.range 64)
  let s := s.mapVault fun v => { v with guard := none }
  let gid := s.core.task.gid
  if (s.gang gid).tiles.any fun n => (s.tile n).vault.guard.isSome then s else s.clearHold gid .refresh

/-- Has the gang of the tile checked out a refresh hold in effect with nothing left to refresh, because the program's own refreshes
paid every debt before the hold took effect? The cause then clears. DEDUCED (log entry 35). -/
def guardMoot (s : State) : Bool :=
  let g := s.gang s.core.task.gid
  g.held && g.causes.contains .refresh && decide (s.core.ctl.status ≠ .idle) &&
    g.tiles.all fun n => !owes (s.select n) && (s.tile n).vault.guard.isNone

/-- `REFRESH_GUARD`: it begins when the hold is in effect, and ends on the clock that the bank timers fix. -/
def execRefreshGuard (tile : Nat) (s : State) : Out :=
  .next <| s.onTile tile fun s =>
    match s.core.vault.guard with
    | some g => if guardEnds s then endGuard s g else s
    | none =>
      if guardStarts s then startGuard s
      else if guardMoot s then s.clearHold s.core.task.gid .refresh
      else s

/-! ### Spare exhaustion (R233) -/

/-- Drain the clones of an exhausted bank, whichever jobs they belong to. -/
def drainBank (s : State) (n : Nat) : Option State := drainClones Config.spareRows s n

/-- Does the procedure of R233 run on the tile checked out: the hold is in effect, and no refresh guard runs there? -/
def spareRuns (s : State) : Bool :=
  let g := s.gang s.core.task.gid
  g.held && g.causes.contains .spare && !s.core.vault.exhausted.isEmpty && s.core.vault.guard.isNone

/-- The clock on which the procedure began: the hold took effect, or the request joined it (R41, R233). -/
def spareStart (s : State) : Nat := max (s.gang s.core.task.gid).heldSince s.core.vault.exhaustedAt

/-- The cycles that the copies of the exhausted banks take, 98 for each row of a channel (R235). -/
def spareCopies (s : State) : Nat :=
  let v := s.core.vault
  (List.range 4).foldl (fun m c =>
    max m (98 * ((v.exhausted.filter fun n => n / 16 == c).map fun n => min (sparesUsed v n).length (64 - freeSpares s n)).sum)) 0

/-- The earliest clock on which the procedure can end: precharge, tRP, the copies, and reopening until every counter reads 0. -/
def spareEnd (s : State) : Nat :=
  let t := if (activeBanks s).isEmpty then spareStart s else prechargeClock s (spareStart s) + 30
  quietClock s (t + spareCopies s + reopenCycles (activeBanks s))

/-- Has the procedure reached its bound, 135,000 cycles with the entry and the resume of the hold (R233, Table 13.1)? -/
def spareOverdue (s : State) : Bool :=
  spareRuns s && decide (spareStart s + 134968 ≤ s.clock) && decide (spareEnd s ≤ s.clock)

/-- `SPARE_EXHAUSTION_DRAIN`, at its end: cloned rows of the exhausted banks are drained, the saved rows are open again under the
clone rule, every counter reads 0; the cause clears unless a clone left too few spares again (R233). The drain share decides when it
ends, between `spareEnd` and its bound. -/
def execSpareExhaustionDrain (tile : Nat) (s : State) : Out :=
  reached <| s.tryTile tile fun s =>
    let gid := s.core.task.gid
    let g := s.gang gid
    let saved := activeBanks s
    if spareRuns s && decide (spareEnd s ≤ s.clock) then
      (s.core.vault.exhausted.foldlM drainBank s).map fun s =>
        let s := s.mapVault fun v => { v with exhausted := [] }
        let s := reopenClones (settleBanks s saved) saved
        if g.tiles.any fun n => !(s.tile n).vault.exhausted.isEmpty then s else s.clearHold gid .spare
    else some s

/-! ### Re-planning points (R42, R150 to R153) -/

/-- The highest refresh grade over the quadrants of a gang's tiles (R152). -/
def gangGrade (s : State) (g : Gang) : Nat := g.tiles.foldl (fun m n => max m (s.grade (quadrantOf n))) 0

/-- GRADE of a variant word (Table 12.5). -/
def variantGrade (w : Nat) : Nat := bits w 49 48

/-- NB of a variant word. -/
def variantSize (w : Nat) : Nat := bits w 61 50

/-- IMAGE of a variant word. -/
def variantImage (w : Nat) : Nat := bits w 47 0

/-- NVAR of a launch packet. -/
def variantCount (p : List Scalar) : Nat := bits (pword p 0) 28 27

/-- Is the image of a variant in frames that are there (R2)? -/
def imageFits (s : State) (w : Nat) : Bool := s.mem.fits .reservoir (variantImage w) (32 * variantSize w)

/-- The number, 1 to 3, of the variant that the selection rule of R152 picks at grade `g`: the lowest grade at or above `g`, or
else the highest; of two variants of one grade the lowest-numbered. DESIGN CHOICE (log entry 42). -/
def pickVariant (p : List Scalar) (g : Nat) : Nat :=
  let vs := (List.range (variantCount p)).map fun k => k + 1
  let gr (k : Nat) : Nat := variantGrade (pword p k)
  let best (better : Nat → Nat → Bool) (ks : List Nat) : Nat := ks.foldl (fun b k => if b = 0 || better (gr k) (gr b) then k else b) 0
  let up := vs.filter fun k => decide (g ≤ gr k)
  if up.isEmpty then best (fun a b => decide (b < a)) vs else best (fun a b => decide (a < b)) up

/-- One bundle of an image: a block of the reservoir that cannot be read leaves an uncorrectable bundle. -/
def loadBundle (m : Mem) (r : Isram) (addr k : Nat) : Isram :=
  { r with bundles := tset 0 r.bundles k (BitVec.ofNat 256 (ofBytes (readBytes m.res (addr + 32 * k) 32))),
           marks := tset .good r.marks k (match m.mark .reservoir (addr + 32 * k) with
             | .good | .correctable => .good
             | _ => .uncorrectable) }

/-- Load the first `n` bundles of an image into an instruction SRAM (R277). -/
def loadImage (m : Mem) (r : Isram) (addr n : Nat) : Isram :=
  { (List.range n).foldl (fun r k => loadBundle m r addr k) r with unseen := r.unseen.filter fun x => decide (n ≤ x.1) }

/-- The bundle indices, below a limit, whose C word is a `SEG`. -/
def segBundles (r : Isram) (n : Nat) : List Nat :=
  (List.range n).filter fun k =>
    match decode .c (slotWord (tget 0 r.bundles k) .c) with
    | .ok (.seg _ _ _ _) => true
    | _ => false

/-- Swap the variant of the tile checked out: PC moves to the `SEG` of the same segment index (R43, R152). DESIGN CHOICE (log entry
35): the tile that first reaches the re-planning point requests the gang's hold, and a tile that stands elsewhere goes on at its own
bundle index in the new image. -/
def swapTile (oldW newW : Nat) (s : State) : State :=
  let olds := segBundles s.core.isram (variantSize oldW)
  let s := s.mapCore fun t => { t with isram := loadImage s.mem t.isram (variantImage newW) (variantSize newW) }
  let news := segBundles s.core.isram (variantSize newW)
  match olds.zipIdx.find? fun x => x.1 == s.core.ctl.pc with
  | some x => s.mapCtl fun c => { c with pc := news.getD x.2 c.pc }
  | none => s

/-- A pending lane repair is done (R153): column contents and bank counters stand. -/
def repairLane (v : Vault) : Vault := if v.lanes.isEmpty then v else { v with lanes := [], corrections := 0 }

/-- Is the gang held at a re-planning point? -/
def replanHeld (g : Gang) : Bool := g.held && g.causes.contains .replan

/-- Has the re-plan hold reached its bound: 5,536 cycles of loading and 2,048 of repair after it took effect (Table 13.1, R153, R277)? -/
def swapOverdue (s : State) (g : Gang) : Bool := replanHeld g && decide (g.heldSince + 7584 ≤ s.clock)

/-- The task on a tile goes on from the re-planning point at which it stands, without being held there once more (R152, R408). -/
def passPoint (t : Tile) : Tile := { t with ctl := { t.ctl with passes := some t.ctl.cyc } }

/-- `VARIANT_SWAP`: the loader loads the variant of the current grade when it differs from the resident one, pending lane repairs
of the gang's tiles are done, a gang that the phase counts leaves it, the hold cause clears, and each task goes on by issuing the `SEG` at which
it stands (R42, R43, R152, R153). -/
def execVariantSwap (gid : Nat) (s : State) : Out :=
  let g := s.gang gid
  let p := (s.node g.node).packet
  let k := pickVariant p (gangGrade s g)
  if replanHeld g then
    fitted (k == g.variant || imageFits s (pword p k)) <|
    let s := if k = g.variant then s
      else (g.tiles.foldl (fun s n => s.onTile n (swapTile (pword p g.variant) (pword p k))) s).mapGang gid fun g =>
        { g with variant := k }
    let s := g.tiles.foldl (fun s n => s.mapTile n fun t => passPoint { t with vault := repairLane t.vault }) s
    .next ((leavePhase s gid).clearHold gid .replan)
  else .next s

/-- Has a tile without a task a repair pending: it runs at once (R153)? -/
def repairDue (s : State) (n : Nat) : Bool := decide ((s.tile n).ctl.status = .idle) && !(s.tile n).vault.lanes.isEmpty

/-- `BOND_LANE_REPAIR`: on a tile whose gang is held at a re-planning point, or that runs no task (R153). -/
def execBondLaneRepair (tile : Nat) (s : State) : Out :=
  .next <| s.onTile tile fun s =>
    if decide (s.core.ctl.status = .idle) || replanHeld (s.gang s.core.task.gid) then s.mapVault repairLane else s

/-! ### Completion of a task (R21, R144) -/

/-- The Active banks of the tile checked out whose PRERDY reads 0. -/
def readyBanks (s : State) : List Nat := ((activeBanks s).map fun x => x.1).filter fun n => ready s (bankOf s n).preAt

/-- Are the banks and the barge commands of the tile checked out done with, and no trap record left on which the Lockkeeper has still to
act (R21, R144, R282, R286)? -/
def taskQuiet (s : State) : Bool := (activeBanks s).isEmpty && s.core.barge.queue.isEmpty && s.core.ctl.trap.isNone

/-- Has the ended task of the tile checked out a bank to precharge, or is it complete (R21, R144)? -/
def taskDue (s : State) : Bool :=
  decide (s.core.ctl.status = .ended) && !s.core.task.complete && s.core.vault.guard.isNone && (!(readyBanks s).isEmpty || taskQuiet s)

/-- `TASK_COMPLETE`: each Active bank of an ended task is precharged once its own PRERDY reads 0; when none is Active and the barge
commands are complete, the launch counts one task less (R144, R372). A task that ended after its `BRK` or `TRAP` counts once the Lockkeeper has
acted on its record. -/
def execTaskComplete (tile : Nat) (s : State) : Out :=
  .next <| s.onTile tile fun s =>
    if taskDue s then
      let s := forEach s prechargeBank (readyBanks s)
      if taskQuiet s then completeTask s else s
    else s

end Sys2Proof.Machine
end

