-- ==== Sys2Proof/Machine/Queue.lean ====
section
/-! DEFINITION. Queues and packets: doorbells, mapping, watches, rings, launch and wait packets, and the host's accesses to queue
SRAM (R255 to R275). -/

namespace Sys2Proof.Machine

/-- Set a bit of LKERR (Table 12.9). -/
def lkError (s : State) (k : Nat) : State := s.mapLk fun l => { l with err := l.err ||| BitVec.ofNat 4 (2 ^ k) }

/-! ### Threads -/

/-- A thread by number. -/
def threadOf (s : State) (n : Nat) : Thread := tget {} s.lk.threads n

/-- Put a thread. -/
def setThread (s : State) (n : Nat) (t : Thread) : State := s.mapLk fun l => { l with threads := tset {} l.threads n t }

/-- Change a thread. -/
def mapThread (s : State) (n : Nat) (f : Thread → Thread) : State := setThread s n (f (threadOf s n))

/-- A thread restarts its watchdog with each packet and each walk that it serves (R297). -/
def served (s : State) (t : Thread) : Thread := { t with servedAt := s.platform.halves }

/-- Has a thread something to serve: a packet, or an index below its kick? -/
def hasWork (t : Thread) : Bool :=
  match t.act with
  | .packet => true
  | .taking => decide (t.ridx < t.kick)
  | .unmapped | .waiting => false

/-- A thread sees a kick (R266). Its watchdog, which stands still while there is nothing to serve, begins with it: DEDUCED (log entry
37). -/
def takeKick (s : State) (k : Nat) (t : Thread) : Thread :=
  { t with kick := max t.kick k, servedAt := if hasWork t then t.servedAt else s.platform.halves }

/-- The threads that serve a queue. -/
def mappedThreads (s : State) : List (Nat × Thread) := s.lk.threads.filter fun t => decide (t.2.act ≠ .unmapped)

/-- The thread that serves a queue, if it is mapped. -/
def threadFor (s : State) (pasid qnum : Nat) : Option Nat :=
  ((mappedThreads s).find? fun t => t.2.pasid == pasid && t.2.qnum == qnum).map Prod.fst

/-! ### Queue control blocks (Table 12.4) -/

/-- PLIM. -/
def qPlim (s : State) (qcb : Nat) : Nat := bits (qcbWord s qcb 0) 29 28
/-- Owning job. Where it differs from the job under which the queue was found, it governs the packets, and the other the mapping: DESIGN CHOICE
(log entry 63). -/
def qPasid (s : State) (qcb : Nat) : Nat := bits (qcbWord s qcb 0) 27 8
/-- Ring size N. -/
def qSlots (s : State) (qcb : Nat) : Nat := 2 ^ bits (qcbWord s qcb 0) 36 32
/-- VEC. -/
def qVec (s : State) (qcb : Nat) : Nat := bits (qcbWord s qcb 0) 45 40
/-- DBIDX. -/
def qDoorbell (s : State) (qcb : Nat) : Nat := bits (qcbWord s qcb 0) 63 52

/-- The memory of a queue's ring and index words: queue SRAM for KIND 0, the reservoir for KIND 1. -/
def qSpace (s : State) (qcb : Nat) : MemSpace := if qKind s qcb = 0 then .queueSram else .reservoir

/-- An invalid QCB, reached through a doorbell or not (R260). KICKA, which must be 0 for KIND 0 (Table 12.4), counts among the fields that
make it so: DESIGN CHOICE (log entry 50). -/
def qcbBad (s : State) (qcb : Nat) (db : Option Nat) : Bool :=
  let w := qcbWord s qcb
  let log := bits (w 0) 36 32
  decide (bits (w 0) 51 46 ≠ 0) || decide (bits (w 0) 39 37 ≠ 0) || decide (bits (w 0) 31 30 ≠ 0) || decide (bits (w 0) 7 2 ≠ 0) ||
    (List.range 4).any (fun i => decide (bits (w (1 + i)) 63 48 ≠ 0)) ||
    decide (w 1 % 128 ≠ 0) || decide (w 2 % 8 ≠ 0) || decide (w 3 % 8 ≠ 0) ||
    decide (w 6 / 2 ≠ 0) || decide (w 7 ≠ 0) || decide (2 ≤ qKind s qcb) || (decide (qKind s qcb = 0) && decide (w 4 ≠ 0)) ||
    decide (log < 2) || decide (16 < log) ||
    match db with
    | some n => decide (qDoorbell s qcb ≠ n)
    | none => false

/-- A 64-bit word of a memory space. -/
def spaceWord (s : State) (sp : MemSpace) (a : Nat) : Nat := (readWord (s.mem.space sp) a).toNat

/-- The address of the slot of an index (R262). -/
def ringSlot (s : State) (qcb i : Nat) : Nat := bits (qcbWord s qcb 1) 47 0 + 128 * (i % qSlots s qcb)

/-- The address of RIDX. -/
def ridxAddr (s : State) (qcb : Nat) : Nat := bits (qcbWord s qcb 3) 47 0

/-- The kick word of a KIND 1 queue, as its thread reads it. -/
def kickWord (s : State) (qcb : Nat) : Nat × State :=
  let r := readSpaceWord s .reservoir (kickAddr s qcb)
  (r.1.toNat, r.2)

/-- Is a QCB there (R2)? -/
def qcbFits (s : State) (qcb : Nat) : Bool := s.mem.fits .reservoir qcb 64

/-- Is the kick word of a queue there, when it has one? -/
def kickFits (s : State) (qcb : Nat) : Bool := decide (qKind s qcb ≠ 1) || s.mem.fits .reservoir (kickAddr s qcb) 8

/-- A step of the Lockkeeper that reads runs of bytes: a frame that is not there stops it (R2, R179). -/
def reaching (s : State) (ok : Bool) (f : State → State) : Out := fitted (!controlRuns s || ok) (controlled s f)

/-! ### Doorbells (R474) -/

/-- Add a request to map a queue; one that waits already for the same doorbell, or for the same watch, takes the greater kick. -/
def requestMap (s : State) (r : MapReq) : State :=
  let same (x : MapReq) : Bool := x.pasid == r.pasid && x.qnum == r.qnum && x.db == r.db
  s.mapLk fun l =>
    if l.mapWaits.any same then
      { l with mapWaits := l.mapWaits.map fun x => if same x then { x with kick := max x.kick r.kick } else x }
    else { l with mapWaits := l.mapWaits ++ [r] }

/-- `DOORBELL_WRITE`: a mapped queue takes the kick at once; an unmapped one is looked up in the doorbell map (R266, R474). -/
def execDoorbellWrite (n : Nat) (value : BitVec 64) (s : State) : Out :=
  let at_ (s : State) := (mappedThreads s).find? fun t => t.2.db == n
  reaching s (decide (4096 ≤ n) || (at_ s).isSome || s.mem.fits .reservoir (s.lk.dbroot + 8 * n) 8) fun s =>
    if 4096 ≤ n then s
    else
      match at_ s with
      | some t => mapThread s t.1 (takeKick s value.toNat)
      | none =>
        let e := (readWord s.mem.res (s.lk.dbroot + 8 * n)).toNat
        if bits e 63 63 = 0 || bits e 62 28 ≠ 0 then lkError s 0
        else requestMap s { pasid := bits e 27 8, qnum := bits e 7 0, db := some n, kick := value.toNat }

/-! ### Mapping (R258, R259, R261) -/

/-- A queue-table entry is used as V = 0: V is 0, a reserved field is nonzero, or a low address bit is (R261). -/
def noEntry (e lowBits : Nat) : Bool :=
  decide (bits e 63 63 = 0) || decide (bits e 60 48 ≠ 0) || decide (e % 2 ^ lowBits ≠ 0)

/-- What the walk of the queue table finds (R261); `outside` is an entry or a QCB in frames that are not there (R2). -/
inductive QWalk where
  | discarded
  | absent
  | outside
  | found (entry qcb : Nat)
  deriving DecidableEq, Repr

/-- The walk: the address of the level-2 entry, and the QCB. -/
def walkQueue (s : State) (pasid qnum : Nat) : QWalk :=
  let e1 := (readWord s.mem.res (s.lk.qtroot + 8 * pasid)).toNat
  if !s.mem.fits .reservoir (s.lk.qtroot + 8 * pasid) 8 then .outside
  else if noEntry e1 11 then .discarded
  else if bits e1 62 62 = 0 then .absent
  else
    let a := bits e1 47 0 + 8 * qnum
    let e2 := (readWord s.mem.res a).toNat
    if !s.mem.fits .reservoir a 8 then .outside
    else if noEntry e2 6 then .discarded
    else if bits e2 62 62 = 0 then .absent
    else if !qcbFits s (bits e2 47 0) then .outside
    else .found a (bits e2 47 0)

/-- K of a mapped queue with the kick that has been reported and that its thread has still to take (R259, R266). -/
def toldKick (s : State) (t : Thread) : Nat := max t.kick ((reported s (kickWatch s t)).getD 0)

/-- Is a mapped queue idle: empty, or blocked in a wait packet (R258)? Empty is one with no index below its kick left to take: DESIGN CHOICE (log
entry 64). -/
def idleThread (s : State) (t : Thread) : Bool :=
  match t.act with
  | .waiting => true
  | .taking => decide (toldKick s t ≤ t.ridx)
  | _ => false

/-- Is a watch entry free (R259)? -/
def watchFree (s : State) : Bool := decide (s.lk.watches.length < 4096)

/-- May an idle queue be evicted: a KIND 1 queue only while a watch entry is free, a KIND 0 queue always (R259)? -/
def evictable (s : State) (t : Thread) : Bool := idleThread s t && (watchFree s || decide (qKind s t.qcb = 0))

/-- The queue of a list that has been idle longest. -/
def longestIdle : List (Nat × Thread) → Option (Nat × Thread)
  | [] => none
  | t :: ts =>
    match longestIdle ts with
    | none => some t
    | some u => if u.2.idleSince < t.2.idleSince then some u else some t

/-- The thread that a mapping takes: a free one, or that of the queue that has been idle longest (R258). -/
def pickThread (s : State) : Option Nat :=
  match (List.range 32).find? fun n => decide ((threadOf s n).act = .unmapped) with
  | some n => some n
  | none => (longestIdle ((mappedThreads s).filter fun t => evictable s t.2)).map Prod.fst

/-- The word of a packet that a wait watches: its space and address (R272). -/
def waitSpace (p : List Scalar) : MemSpace := if bits (pword p 0) 7 6 = 1 then .reservoir else .queueSram

/-- Does a wait packet's condition hold on the watched word (R272)? -/
def waitTrue (p : List Scalar) (x : Nat) : Bool := if bits (pword p 0) 5 4 = 1 then decide (pword p 2 ≤ x) else x == pword p 2

/-- The watch entry of a wait packet (R259, R272). -/
def waitWatch (t : Thread) : Watch :=
  { pasid := t.pasid, qnum := t.qnum, qcb := t.qcb, isKick := false, space := waitSpace t.packet,
    addr := bits (pword t.packet 1) 47 0, value := pword t.packet 2, geq := decide (bits (pword t.packet 0) 5 4 = 1),
    packet := t.packet, fired := none }

/-- Free the watch entries of a queue, with what was reported for them. -/
def dropWatches (s : State) (pasid qnum : Nat) : State :=
  let mine (w : Watch) : Bool := w.pasid == pasid && w.qnum == qnum
  s.mapLk fun l => { l with
    watches := l.watches.filter fun w => !mine w,
    reports := l.reports.filter fun r => !(l.watches.any fun w => mine w && r.for_ w) }

/-- The kick watch that an evicted KIND 1 queue leaves; one that is blocked in a wait packet keeps the watch of that packet alone
(R258, R259). -/
def evictionWatch (s : State) (t : Thread) : List Watch :=
  if t.act = .waiting then []
  else if qKind s t.qcb = 1 then [kickWatch s t]
  else []

/-- What was reported for a watch has been acted on. -/
def dropReport (s : State) (w : Watch) : State := s.mapLk fun l => { l with reports := l.reports.filter fun r => !r.for_ w }

/-- Evict the queue of a thread: KMAX, which takes in a kick that was reported and not yet taken, and WAITING go to its QCB, and its watch is
armed (R258, R259). WAITING is written here alone: DESIGN CHOICE (log entry 51). -/
def evict (s : State) (n : Nat) : State :=
  let t := { threadOf s n with kick := toldKick s (threadOf s n) }
  if t.act = .unmapped then s
  else
    let w := evictionWatch s t
    let s := dropReport s (kickWatch s t)
    let s := s.writeSpaceWord .reservoir (t.qcb + 40) (BitVec.ofNat 64 t.kick)
    let s := s.writeSpaceWord .reservoir (t.qcb + 48) (if t.act = .waiting then 1 else 0)
    setThread (s.mapLk fun l => { l with watches := l.watches ++ w }) n {}

/-- The end of a wait packet: its record, if it names one, reads STATE 2 and VERD 0, with the clock on which the wait ended (R272,
R466). -/
def endWaitPacket (s : State) (job : Nat) (p : List Scalar) (cclk : Nat) : State :=
  writeRecord s job p (recordWords 0 false 0 2 0 0 0 0 cclk)

/-- Map a queue to a thread: RIDX is read first, with acquire at fabric scope; K starts from KMAX, the kick that came, and, for KIND 1, the
kick word, read so too (R258, R259, R266). A queue blocked in a wait packet goes on waiting, or, when its watch has fired, goes on: the wait ended on the clock on which
it fired (R466). -/
def mapQueue (s : State) (r : MapReq) (entry qcb n : Nat) : State :=
  let s := evict s n
  let e := readWord s.mem.res entry
  let s := s.mapMem fun m => m.storeWord entry (e ||| BitVec.ofNat 64 (2 ^ 61))
  let i := readSpaceWord s (qSpace s qcb) (ridxAddr s qcb)
  let ridx := i.1.toNat
  let s := i.2
  let x := if qKind s qcb = 1 then kickWord s qcb else (0, s)
  let k := max (max r.kick (qcbWord s qcb 5)) x.1
  let s := x.2
  let wait := s.lk.watches.find? fun w => w.pasid == r.pasid && w.qnum == r.qnum && !w.isKick
  let t : Thread := served s { act := .taking, pasid := r.pasid, qnum := r.qnum, qcb := qcb, db := qDoorbell s qcb, ridx := ridx,
                               kick := k, packet := [], idleSince := s.clock }
  match wait with
  | some w =>
    match w.fired with
    | some c => setThread (endWaitPacket (dropWatches s r.pasid r.qnum) (qPasid s qcb) w.packet c) n t
    | none => setThread s n { t with act := .waiting, packet := w.packet }
  | none => setThread (dropWatches s r.pasid r.qnum) n t

/-- Give up one request for a queue, that of a doorbell or of a watch. -/
def dropRequest (s : State) (r : MapReq) : State :=
  s.mapLk fun l => { l with mapWaits := l.mapWaits.filter fun x => x != r }

/-- Serve a request to map a queue: the walk, the QCB's validity with the doorbell of this request, the thread. Without an idle thread
the request waits. The request of a watch is logged as a doorbell is, and its watch stands as fired: DESIGN CHOICE (log entry 60). -/
def serveRequest (s : State) (r : MapReq) : State :=
  match walkQueue s r.pasid r.qnum with
  | .discarded => lkError (dropRequest s r) 0
  | .outside => s
  | .absent =>
    (raiseVector (dropRequest s r) 0).mapLk fun l => { l with serviceWaits := l.serviceWaits ++ [r] }
  | .found entry qcb =>
    if qcbBad s qcb r.db then lkError (dropRequest s r) 1
    else
      match pickThread s with
      | none => s
      | some n => mapQueue (dropRequest s r) r entry qcb n

/-- Are the words there that the mapping of a queue reads and writes: those of its QCB and of the QCB of the queue that it evicts (R258)? -/
def mappingFits (s : State) (qcb : Nat) : Bool :=
  match pickThread s with
  | none => true
  | some n =>
    (decide ((threadOf s n).act = .unmapped) || (qcbFits s (threadOf s n).qcb && kickFits s (threadOf s n).qcb)) &&
      s.mem.fits (qSpace s qcb) (ridxAddr s qcb) 8 && kickFits s qcb

/-- Is all of the reservoir there that serving a request to map a queue reaches? -/
def requestFits (s : State) (r : MapReq) : Bool :=
  match walkQueue s r.pasid r.qnum with
  | .discarded | .absent => true
  | .outside => false
  | .found _ qcb => qcbBad s qcb r.db || mappingFits s qcb

/-- `QUEUE_MAP` (R258). A queue that has been mapped meanwhile takes the kick of the next request, whose doorbell is that of the
queue. -/
def execQueueMap (pasid qnum : Nat) (s : State) : Out :=
  let next := s.lk.mapWaits.find? fun r => r.pasid == pasid && r.qnum == qnum
  reaching s ((threadFor s pasid qnum).isSome || next.all (requestFits s)) fun s =>
    match s.lk.mapWaits.find? fun r => r.pasid == pasid && r.qnum == qnum with
    | none => s
    | some r =>
      match threadFor s pasid qnum with
      | some n =>
        let bad := match r.db with
          | some d => decide ((threadOf s n).db ≠ d)
          | none => false
        let s := dropRequest s r
        if bad then lkError s 1 else mapThread s n (takeKick s r.kick)
      | none => serveRequest s r

/-- `WATCH_FIRE`: the word of watch entry `n`, whose queue is not mapped, meets its condition, or a write to it has been reported that left it so,
and the queue is to be mapped again, with the kick that a watch of the kick word has so observed (R258, R259, R266). -/
def execWatchFire (n : Nat) (s : State) : Out :=
  let idle (w : Watch) : Bool := w.fired.isSome || (threadFor s w.pasid w.qnum).isSome
  reaching s (s.lk.watches[n]?.all fun w => idle w || s.mem.fits w.space w.addr 8) fun s =>
    match s.lk.watches[n]? with
    | none => s
    | some w =>
      if idle w then s
      else
        let r := readSpaceWord s w.space w.addr
        let x := r.1.toNat
        let s := r.2
        let told := (reported s w).getD 0
        if w.meets x || (reported s w).isSome then
          let s := s.mapLk fun l => { l with watches := l.watches.set n { w with fired := some s.clock } }
          requestMap s { pasid := w.pasid, qnum := w.qnum, db := none, kick := if w.isKick then max x told else 0 }
        else s

/-- `KICK_OBSERVE`: the thread of a mapped KIND 1 queue sees its kick word change: the greatest value that a write to it has left, and the
one it holds (R259, R266). -/
def execKickObserve (n : Nat) (s : State) : Out :=
  let qcb := (threadOf s n).qcb
  reaching s (decide ((threadOf s n).act = .unmapped) || (qcbFits s qcb && kickFits s qcb)) fun s =>
    let t := threadOf s n
    if t.act ≠ .unmapped && qKind s t.qcb = 1 then
      let r := kickWord s t.qcb
      let w := kickWatch s t
      setThread (dropReport r.2 w) n (takeKick s (max r.1 ((reported s w).getD 0)) t)
    else s

/-! ### The host's accesses to queue SRAM (R255, R256) -/

/-- `QUEUE_SRAM_WRITE`. -/
def execQueueSramWrite (addr : Nat) (bs : List Byte) (s : State) : Out :=
  linked s fun s => s.writeSpace .queueSram addr (bs.take (Config.queueSramBytes - addr))

/-- An aligned 8-byte unit of queue SRAM. -/
def sramUnit (a : Nat) : Bool := decide (a % 8 = 0) && decide (a + 8 ≤ Config.queueSramBytes)

/-- The PCIe endpoint returns a value to the host. -/
def reply (s : State) (x : BitVec 64) : State := s.mapFabric fun f => { f with reply := x }

/-- `PCIE_FETCHADD`: the host receives what the word held (R263). -/
def execPcieFetchadd (addr : Nat) (value : BitVec 64) (s : State) : Out :=
  let x := readWord s.mem.qsram addr
  linked s fun s => if sramUnit addr then (reply s x).writeSpaceWord .queueSram addr (x + value) else s

/-- `PCIE_CAS`: the host receives what the word held. -/
def execPcieCas (addr : Nat) (old value : BitVec 64) (s : State) : Out :=
  let x := readWord s.mem.qsram addr
  linked s fun s =>
    if sramUnit addr then (if x == old then (reply s x).writeSpaceWord .queueSram addr value else reply s x) else s

/-! ### The ring (R267) -/

/-- `SLOT_TAKE`: the next slot within K, once its SEQ reads as published, is copied and RIDX is released. A word of it that no fence
has made visible is copied old or new by a free choice (R216, R265). -/
def execSlotTake (n : Nat) (s : State) : Out :=
  let t := threadOf s n
  let due : Bool := t.act = .taking && t.ridx < t.kick
  let sp := qSpace s t.qcb
  let a := ringSlot s t.qcb t.ridx
  reaching s (!due || (qcbFits s t.qcb && s.mem.fits sp a 128 && s.mem.fits sp (ridxAddr s t.qcb) 8)) fun s =>
    if due then
      let seq := readSpaceWord s sp (a + 120)
      let s := seq.2
      if seq.1.toNat == t.ridx then
        let p := readSpaceWords s sp a 15
        let s := p.2.writeSpaceWord sp (ridxAddr s t.qcb) (BitVec.ofNat 64 (t.ridx + 1))
        setThread s n (served s { t with act := .packet, packet := p.1, ridx := t.ridx + 1 })
      else s
    else s

/-- The thread goes on to the next index. -/
def nextIndex (s : State) (n : Nat) : State :=
  mapThread s n fun t => served s { t with act := .taking, packet := [], idleSince := s.clock }

/-- The record of a rejected packet reads STATE 3 and the error code, at the address that the packet names, even where that address is what is
wrong (R268, R270): DESIGN CHOICE (log entry 59). -/
def rejectRecord (s : State) (t : Thread) (err : Nat) : State :=
  writeRecord s (qPasid s t.qcb) t.packet (recordWords err false 0 3 0 0 0 0 0)

/-- A thread rejects its packet. -/
def reject (s : State) (n err : Nat) : State := nextIndex (rejectRecord s (threadOf s n) err) n

/-- TYPE of a packet. -/
def packetType (p : List Scalar) : Nat := bits (pword p 0) 3 0

/-- Does a thread hold a packet of a type? -/
def holdsPacket (s : State) (n : Nat) (f : Nat → Bool) : Bool :=
  let t := threadOf s n
  decide (t.act = .packet) && f (packetType t.packet)

/-- `NOP_PACKET`: the packet does nothing (R268). Its other words are not looked at: DESIGN CHOICE (log entry 65). -/
def execNopPacket (n : Nat) (s : State) : Out := controlled s fun s => if holdsPacket s n (· == 0) then nextIndex s n else s

/-! ### Packet checks (R268, Table 12.7) -/

/-- Does a run of reservoir bytes lie in frames of the job? -/
def ownsRun (s : State) (p a n : Nat) : Bool :=
  (List.range (framesOf (a % Config.frameBytes + n))).all fun k =>
    (tget (0, 0) s.mem.frames (a / Config.frameBytes + k)).1 == p + 1

/-- Does a run of bytes of a record space lie where the job may name it (ERR 9)? -/
def spaceBad (s : State) (p : Nat) (sp : Option MemSpace) (a n : Nat) : Bool :=
  match sp with
  | some .reservoir => !ownsRun s p a n
  | some .queueSram => decide (Config.queueSramBytes < a + n)
  | _ => false

/-- The fields of word 5 that every packet with a record has. -/
def word5Bad (p : List Scalar) : Bool := decide (bits (pword p 5) 63 50 ≠ 0) || decide (pword p 5 % 32 ≠ 0)

/-- A reserved field of a launch packet is nonzero (ERR 2). -/
def launchReserved (p : List Scalar) : Bool :=
  let w := pword p
  let nvar := variantCount p
  let nin := bits (w 0) 47 44
  decide (bits (w 0) 63 48 ≠ 0) || decide (bits (w 0) 31 29 ≠ 0) ||
    (List.range 3).any (fun i => if i < nvar then decide (bits (w (1 + i)) 63 62 ≠ 0) || decide (w (1 + i) % 32 ≠ 0)
      else decide (w (1 + i) ≠ 0)) ||
    decide (bits (w 4) 63 54 ≠ 0) || decide (w 4 % 8 ≠ 0) || word5Bad p || decide (bits (w 6) 63 48 ≠ 0) ||
    (decide (bits (w 0) 26 24 = 0) && decide (w 6 ≠ 0)) ||
    (List.range 4).any (fun i => if i < nin then decide (bits (w (7 + i)) 63 14 ≠ 0) else decide (w (7 + i) ≠ 0)) ||
    (List.range 4).any fun i => decide (w (11 + i) ≠ 0)

/-- The origins at which a launch may be placed, in order (R47). -/
def candidates (p : List Scalar) : List (Nat × Nat) :=
  let w0 := pword p 0
  let w := bits w0 11 8 + 1
  let h := bits w0 15 12 + 1
  let ox := bits w0 19 16
  let oy := bits w0 23 20
  if bits w0 6 6 = 1 then (if ox + w ≤ 16 && oy + h ≤ 16 then [(ox, oy)] else [])
  else
    [oy % 8, oy % 8 + 8].flatMap fun y => [ox % 8, ox % 8 + 8].filterMap fun x =>
      if x + w ≤ 16 && y + h ≤ 16 then some (x, y) else none

/-- The re-plan marks of the segments of an image, in order (R150). -/
def imageSegments (s : State) (w : Nat) : List Bool :=
  (List.range (variantSize w)).filterMap fun k =>
    let b : Bundle := BitVec.ofNat 256 (ofBytes (readBytes s.mem.res (variantImage w + 32 * k) 32))
    match decode .c (slotWord b .c) with
    | .ok (.seg _ _ m _) => some (m == 1)
    | _ => none

/-- The variants of a launch packet are invalid (ERR 5). An image in frames that are not there is not compared: DESIGN CHOICE (log entry 28). -/
def variantsBad (s : State) (p : List Scalar) : Bool :=
  let vs := (List.range (variantCount p)).map fun k => pword p (k + 1)
  decide (variantCount p = 0) ||
    vs.any (fun w => decide (variantGrade w = 3) || decide (variantSize w = 0) || decide (Config.bundles < variantSize w)) ||
    vs.any fun w => imageFits s w && imageFits s (pword p 1) && imageSegments s w != imageSegments s (pword p 1)

/-- The incoming edges that a launch packet names. -/
def packetEdges (p : List Scalar) : List Nat := (List.range (min (bits (pword p 0) 47 44) 4)).map fun i => pword p (7 + i)

/-- NODE of a launch packet. -/
def packetNode (p : List Scalar) : Nat := bits (pword p 0) 43 32

/-- Is a source unknown to the job: of another job, or never used by it (R275, ERR 8)? -/
def sourceBad (s : State) (job src : Nat) : Bool :=
  let x := s.node src
  !(decide (x.owner = some job) && (x.inUse || (tget none x.last job).isSome))

/-- An address of a launch packet lies outside the job's frames (ERR 9). -/
def launchAddress (s : State) (t : Thread) (job : Nat) : Bool :=
  let w := pword t.packet
  (List.range (variantCount t.packet)).any (fun k => !ownsRun s job (variantImage (w (k + 1))) (32 * variantSize (w (k + 1)))) ||
    (decide (0 < bits (w 4) 53 48) && spaceBad s job (some (qSpace s t.qcb)) (bits (w 4) 47 0) (8 * bits (w 4) 53 48)) ||
    spaceBad s job (recordSpace job (bits (w 5) 49 48)) (bits (w 5) 47 0) 32

/-- The error code of a launch packet, the lowest of those that apply; 0 when it is accepted (R268). No NPKG is invalid: DESIGN CHOICE (log entry
58). -/
def launchError (s : State) (t : Thread) : Nat :=
  let p := t.packet
  let w0 := pword p 0
  let job := qPasid s t.qcb
  let x := s.node (packetNode p)
  if packetType p ≠ 1 then 1
  else if launchReserved p then 2
  else if qPlim s t.qcb < bits w0 5 4 then 3
  else if (candidates p).isEmpty then 4
  else if variantsBad s p then 5
  else if 40 < bits (pword p 4) 53 48 then 6
  else if decide (x.owner ≠ some job) || !(s.job job).live || x.inUse then 7
  else if (packetEdges p).any fun e => sourceBad s job (e % 4096) then 8
  else if launchAddress s t job then 9
  else if 4 < bits w0 47 44 then 10
  else 0

/-! ### Launch packets -/

/-- The last verdict recorded at a node for a job, clean where none is (R275). -/
def lastOf (x : Node) (job : Nat) : Verdict := (tget none x.last job).getD .clean

/-- An edge as its source stands when the packet of a job is entered (R35, R275). -/
def newEdge (s : State) (job w : Nat) : Edge :=
  let src := w % 4096
  let early := w.testBit 12
  let pass := w.testBit 13
  let x := s.node src
  if x.inUse then { src := src, early := early, pass := pass, satisfied := early && x.earlyDone, blocked := false, final := false }
  else
    let ok := pass || decide (lastOf x job ≠ .tainted)
    { src := src, early := early, pass := pass, satisfied := ok, blocked := !ok, final := true }

/-- Are the arguments of a launch packet in memory that is there (R2)? -/
def argsFit (s : State) (t : Thread) : Bool :=
  let w := pword t.packet 4
  decide (bits w 53 48 = 0) || s.mem.fits (qSpace s t.qcb) (bits w 47 0) (8 * bits w 53 48)

/-- The arguments of a launch packet (R269). -/
def packetArgs (s : State) (t : Thread) : List Scalar × State :=
  let w := pword t.packet 4
  readSpaceWords s (qSpace s t.qcb) (bits w 47 0) (bits w 53 48)

/-- What a launch inherits over the early edges whose sources are complete: their worst verdict (R37). -/
def inheritedAt (s : State) (job : Nat) (ws : List Nat) : Verdict :=
  (ws.filter fun w => w.testBit 12 && !(s.node (w % 4096)).inUse).foldl (fun v w => v.worst (lastOf (s.node (w % 4096)) job)) .clean

/-- A launch at node `k` joins the graphs of its sources to one new graph (Table 2.1). -/
def joinGraphs (s : State) (k : Nat) (srcs : List Nat) : State :=
  let g := s.lk.nextGraph
  let gs := (srcs.map fun n => (s.node n).graph).filter fun x => x != 0
  let ns := (s.lk.nodes.filter fun x => gs.contains x.2.graph).map Prod.fst
  (k :: ns).foldl (fun s n => s.mapNode n fun x => { x with graph := g }) (s.mapLk fun l => { l with nextGraph := g + 1 })

/-- Enter a launch as a node of the graph: its edges are evaluated, and it becomes ready when each is satisfied (R273 to R275). -/
def enterLaunch (s : State) (n : Nat) : State :=
  let t := threadOf s n
  let p := t.packet
  let k := packetNode p
  let job := qPasid s t.qcb
  let es := (packetEdges p).map (newEdge s job)
  let v := inheritedAt s job (packetEdges p)
  let args := packetArgs s t
  let s := joinGraphs args.2 k ((packetEdges p).map fun w => w % 4096)
  let s := (es.filter fun e => e.early && !e.final && e.satisfied).foldl (fun s e => s.mapNode e.src fun x => { x with gaveEarly := true }) s
  let s := s.mapNode k fun x => { x with
    life := .waiting, packet := p, args := args.1, slotQueue := t.qcb, edges := es, vec := qVec s t.qcb, verdict := v, inherited := v }
  becomeReady (nextIndex s n) k

/-- Every node is in use (R273). -/
def graphFull (s : State) : Bool := decide (4096 ≤ (nodesInUse s).length)

/-- Does the launch packet of a thread wait for its node: the graph is full, and the node is its job's (R273)? -/
def waitsForNode (s : State) (t : Thread) : Bool :=
  graphFull s && decide ((s.node (packetNode t.packet)).owner = some (qPasid s t.qcb))

/-- A launch that has a packet and no node yet, and that a cancel of clock `c` meets: its record reads STATE 2, VERD 2 and CANC 1, vector VEC is
raised when IRQ = 1, and its node's last verdict is tainted, unless the node is in use by another launch (R44, R270, R275, R280). -/
def cancelEntry (s : State) (t : Thread) (c : Nat) : State :=
  let s := writeRecord s (qPasid s t.qcb) t.packet (recordWords 0 true 2 2 0 0 0 0 c)
  let s := if (pword t.packet 0).testBit 7 then raiseVector s (qVec s t.qcb) else s
  s.mapNode (packetNode t.packet) fun x => if x.inUse then x else x.freed .tainted

/-- See `cancelEntry`: the thread that holds the packet goes on. -/
def cancelPacket (s : State) (n c : Nat) : State := nextIndex (cancelEntry s (threadOf s n) c) n

/-- A job cancel meets a launch packet that a thread has taken: a packet with an error is rejected, another launch is cancelled (R44). -/
def cancelHeld (s : State) (n : Nat) : State :=
  if holdsPacket s n (· == 1) then
    match launchError s (threadOf s n) with
    | 0 => cancelPacket s n s.clock
    | 7 => if waitsForNode s (threadOf s n) then cancelPacket s n s.clock else reject s n 7
    | e => reject s n e
  else s

/-- The pending cancel that a launch packet meets (R280). -/
def pendingCancel (s : State) (t : Thread) : Option (Nat × Nat × Nat) :=
  s.lk.cancels.find? fun c => c.1 == qPasid s t.qcb && c.2.1 == packetNode t.packet

/-- A launch packet that a thread holds: rejected, cancelled before it ran (R280), entered, or waiting for a free node (R273). -/
def launchHere (s : State) (n : Nat) : State :=
  let t := threadOf s n
  match launchError s t with
  | 0 =>
    match pendingCancel s t with
    | some c =>
      cancelPacket (s.mapLk fun l => { l with cancels := l.cancels.filter fun d => d != c }) n c.2.2
    | none => enterLaunch s n
  | 7 => if waitsForNode s t then s else reject s n 7
  | e => reject s n e

/-- Is all there that the launch packet of a thread reaches: its arguments, when it is to be entered (R2, R269)? -/
def launchFits (s : State) (n : Nat) : Bool :=
  let t := threadOf s n
  decide (launchError s t ≠ 0) || (pendingCancel s t).isSome || argsFit s t

/-- `LAUNCH_PACKET`: a launch packet, or one of a type that is rejected (R268). -/
def execLaunchPacket (n : Nat) (s : State) : Out :=
  reaching s (!holdsPacket s n (· == 1) || launchFits s n) fun s => if holdsPacket s n (fun k => k == 1 || decide (3 ≤ k)) then launchHere s n else s

/-- The lowest-numbered thread whose launch packet names a node. -/
def waiterFor (s : State) (node : Nat) : Option Nat :=
  (List.range 32).find? fun n => holdsPacket s n (· == 1) && packetNode (threadOf s n).packet == node

/-- `GRAPH_ENTRY_FREE`: the packet of the lowest-numbered thread that waits for a node goes on, once that node is free (R273). -/
def execGraphEntryFree (node : Nat) (s : State) : Out :=
  reaching s ((s.node node).inUse || (waiterFor s node).all (launchFits s)) fun s =>
    match waiterFor s node with
    | some n => if (s.node node).inUse then s else launchHere s n
    | none => s

/-! ### Wait packets (R272) -/

/-- The error code of a wait packet; 0 when it is accepted. -/
def waitError (s : State) (t : Thread) : Nat :=
  let p := t.packet
  let w := pword p
  let space := bits (w 0) 7 6
  let job := qPasid s t.qcb
  if decide (bits (w 0) 63 8 ≠ 0) || decide (bits (w 1) 63 48 ≠ 0) || decide (w 1 % 8 ≠ 0) || word5Bad p ||
      [3, 4, 6, 7, 8, 9, 10, 11, 12, 13, 14].any (fun i => decide (w i ≠ 0)) then 2
  else if decide (space = 2) || spaceBad s job (recordSpace job space) (bits (w 1) 47 0) 8 ||
      spaceBad s job (recordSpace job (bits (w 5) 49 48)) (bits (w 5) 47 0) 32 then 9
  else if decide (2 ≤ bits (w 0) 5 4) || decide (space = 0) then 10
  else 0

/-- `WAIT_PACKET`: the thread blocks on the watched word, with a watch entry (R259); without a free one the packet waits. -/
def execWaitPacket (n : Nat) (s : State) : Out :=
  controlled s fun s =>
    if holdsPacket s n (· == 2) then
      match waitError s (threadOf s n) with
      | 0 =>
        if watchFree s then
          let s := s.mapLk fun l => { l with watches := l.watches ++ [waitWatch (threadOf s n)] }
          mapThread s n fun t => { t with act := .waiting, idleSince := s.clock }
        else s
      | e => reject s n e
    else s

/-- `WAIT_PACKET_END`: the watched word compares true, read with acquire, or a write has been reported that left it so (R259); the record is written
and the thread goes on. -/
def execWaitPacketEnd (n : Nat) (s : State) : Out :=
  let t := threadOf s n
  let sp := waitSpace t.packet
  let a := bits (pword t.packet 1) 47 0
  reaching s (decide (t.act ≠ .waiting) || s.mem.fits sp a 8) fun s =>
    if t.act = .waiting then
      let x := readSpaceWord s sp a
      let told := (reported s (waitWatch t)).isSome
      let s := x.2
      if waitTrue t.packet x.1.toNat || told then nextIndex (endWaitPacket (dropWatches s t.pasid t.qnum) (qPasid s t.qcb) t.packet s.clock) n else s
    else s

end Sys2Proof.Machine
end

