-- ==== Sys2Proof/Machine/Launch.lean ====
section
/-! DEFINITION. The dispatcher, the loader and the start of a gang: priority, placement, pre-emption requests, the first bundle,
and completion records (R22, R24, R26, R47 to R51, R269, R270, R277). -/

namespace Sys2Proof.Machine

/-! ### Priority (R48) -/

/-- The base priority of a launch. -/
def basePrio (x : Node) : Nat := bits (pword x.packet 0) 5 4

/-- The cycles a ready launch has waited, with what it had accumulated before a pre-emption. -/
def waitOf (s : State) (x : Node) : Nat := x.waited + (s.clock - x.readyAt)

/-- The effective priority after a wait: one more for each full 2^16 cycles, up to 3. -/
def agedPrio (x : Node) (t : Nat) : Nat := min 3 (basePrio x + t / 65536)

/-- Is a launch that has waited so long reserved: a further 2^16 cycles at effective priority 3? -/
def agedReserved (x : Node) (t : Nat) : Bool := decide ((4 - basePrio x) * 65536 ≤ t)

/-- Does the wait of a ready launch raise its effective priority or reserve it now? -/
def agingDue (s : State) (n : Nat) : Bool :=
  let x := s.node n
  let t := waitOf s x
  decide (x.life = .ready) && (x.prio != agedPrio x t || (!x.reserved && agedReserved x t))

/-- A launch as its wait leaves it. -/
def ageNode (clock t : Nat) (x : Node) : Node :=
  { x with prio := agedPrio x t, reserved := x.reserved || agedReserved x t,
           reservedAt := if x.reserved then x.reservedAt else clock }

/-- `PRIORITY_AGING` (R48). -/
def execPriorityAging (n : Nat) (s : State) : Out :=
  controlled s fun s => if agingDue s n then s.mapNode n (ageNode s.clock (waitOf s (s.node n))) else s

/-! ### Placement (R47, R49) -/

/-- Does a gang hold the tile (R17)? -/
def tileTaken (s : State) (n : Nat) : Bool := s.gangs.any fun g => g.2.placed && g.2.tiles.contains n

/-- The width of a launch's gang. -/
def launchW (x : Node) : Nat := bits (pword x.packet 0) 11 8 + 1

/-- The height of a launch's gang. -/
def launchH (x : Node) : Nat := bits (pword x.packet 0) 15 12 + 1

/-- The rectangle of a launch at an origin. -/
def launchRect (x : Node) (o : Nat × Nat) : List Nat := rectTiles o.1 o.2 (launchW x) (launchH x)

/-- The origins a launch may take, in order; a pre-empted launch takes its former one (R51). -/
def origins (x : Node) : List (Nat × Nat) := if x.saved then [(x.ox, x.oy)] else candidates x.packet

/-- Context areas for `n` tasks, each aligned to its size (R290), and the memory. -/
def contextAreas : Nat → Mem → List Nat × Mem
  | 0, m => ([], m)
  | n + 1, m =>
    let a := m.allocateAligned 21 contextBytes
    let r := contextAreas n a.2
    (a.1 :: r.1, r.2)

/-- Ready launches in decreasing effective priority, and within one level in the order they became ready (R49). -/
def dispatchOrder (s : State) : List Nat :=
  [3, 2, 1, 0].flatMap fun p => s.lk.order.filter fun n => (s.node n).prio == p

/-- Of a list of reserved launches, the one reserved first. -/
def oldestReserved (s : State) : List Nat → Option Nat
  | [] => none
  | n :: ns =>
    match oldestReserved s ns with
    | none => some n
    | some m => if (s.node m).reservedAt < (s.node n).reservedAt then some m else some n

/-- The reserved launch that governs, with the tiles it keeps free (R49). -/
def reservation (s : State) : Option (Nat × List Nat) :=
  match oldestReserved s (s.lk.order.filter fun n => (s.node n).reserved) with
  | none => none
  | some n =>
    match origins (s.node n) with
    | [] => none
    | o :: _ => some (n, launchRect (s.node n) o)

/-- Is a tile kept for another launch? -/
def keptFrom (s : State) (n tile : Nat) : Bool :=
  match reservation s with
  | none => false
  | some r => r.1 != n && r.2.contains tile

/-- May the dispatcher place the launch now: its job's dispatch runs, no cut of it is entering (R227), no restore runs? A
pre-empted launch is brought back under a phase cancel too, so that it can reach its end. -/
def mayDispatch (s : State) (n : Nat) : Bool :=
  let x := s.node n
  let j := s.job (x.owner.getD 0)
  decide (x.life = .ready) && (x.saved || !j.stopped) && j.restoring.isNone &&
    match j.cut with
    | some (.running _ _ _) => false
    | _ => true

/-- The first origin of a launch whose tiles are all free and not kept for another; a new launch needs context areas (R290). -/
def findPlace (s : State) (n : Nat) : Option (Nat × Nat) :=
  let x := s.node n
  if x.saved || decide ((contextAreas (launchW x * launchH x) s.mem).2.nextFrame ≤ s.mem.capacity) then
    (origins x).find? fun o => (launchRect x o).all fun t => !tileTaken s t && !keptFrom s n t
  else none

/-- The lowest identifier that no gang holds (R24). DESIGN CHOICE (log entry 9). -/
def freeGid (s : State) : Nat := lowestFree (s.gangs.map Prod.fst) s.gangs.length 0

/-- The number of this package among those of a launch: package 0, unless the package list names this device's fabric address (R25,
Table 12.5). DEDUCED (log entry 38). A list in frames that are not there names none (log entry 28). -/
def launchRank (s : State) (x : Node) : Nat :=
  let a := bits (pword x.packet 6) 47 0
  match (List.range (bits (pword x.packet 0) 26 24)).find? fun k =>
    s.mem.fits .reservoir (a + 2 * k) 2 && ofBytes (readBytes s.mem.res (a + 2 * k) 2) == s.fabric.addr with
  | some k => k + 1
  | none => 0

/-- The padded latency of a gang that spans packages: the largest of the crossings at its tiles; 0 in one package (R38). -/
def launchPad (s : State) (pkg : Nat) (ts : List Nat) : Nat :=
  if pkg = 0 then 0
  else s.fabric.crossings.foldl (fun m c => if c.2.live && ts.contains c.2.tile then max m c.2.latency else m) 0

/-- The launch leaves the ready set for an origin. -/
def takeReady (s : State) (n : Nat) (o : Nat × Nat) : State :=
  (s.mapNode n fun x => { x with
    life := .running, ox := o.1, oy := o.2, waited := waitOf s x, reserved := false }).mapLk fun l => { l with
      order := l.order.filter fun m => m != n }

/-- A new gang: its identifier, its tiles and their context areas (R24, R290). -/
def placeNew (s : State) (n : Nat) (o : Nat × Nat) : State :=
  let x := s.node n
  let p := x.owner.getD 0
  let ts := launchRect x o
  let g := freeGid s
  let pkg := bits (pword x.packet 0) 26 24
  let a := contextAreas ts.length s.mem
  let s := { s with mem := a.2 }
  let y : Gang := {
    life := .placed, pasid := p, node := n, w := launchW x, h := launchH x, ox := o.1, oy := o.2, pkg := pkg,
    rank := launchRank s x, pad := launchPad s pkg ts }
  let s := s.mapGang g fun _ => y
  let s := ts.zipIdx.foldl (fun s t => s.mapTile t.1 fun z => { z with task := {
    pasid := p, gid := g, tix := y.firstTix + t.2, node := n, ctx := a.1.getD t.2 0 } }) s
  (takeReady s n o).mapNode n fun x => { x with gid := g, tasksLeft := ts.length, untriggered := ts.length }

/-- A pre-empted gang is placed again: it keeps its identifier (R24, R51). -/
def placeSaved (s : State) (n : Nat) (o : Nat × Nat) : State :=
  (takeReady s n o).mapGang (s.node n).gid fun g => { g with life := .placed }

/-- Place a launch. -/
def placeLaunch (s : State) (n : Nat) (o : Nat × Nat) : State := if (s.node n).saved then placeSaved s n o else placeNew s n o

/-! ### Requesting a pre-emption (R50) -/

/-- The gangs that hold tiles of a rectangle. -/
def holders (s : State) (ts : List Nat) : List Nat :=
  (s.gangs.filter fun g => g.2.placed && g.2.tiles.any ts.contains).map Prod.fst

/-- May a gang be pre-empted for a launch of base priority `b`: its job permits it, its base priority is lower, it is not trapped
(R50, R288)? -/
def yields (s : State) (b g : Nat) : Bool :=
  let x := s.gang g
  decide (basePrio (s.node x.node) < b) && (s.job x.pasid).preemptible && !x.causes.contains .trap

/-- The gangs that a launch pre-empts: none when a candidate rectangle is free. -/
def victims (s : State) (n : Nat) : List Nat :=
  let x := s.node n
  let rs := (origins x).map (launchRect x)
  if rs.any fun ts => (holders s ts).isEmpty then []
  else
    match rs.find? fun ts => (holders s ts).all (yields s (basePrio x)) with
    | some ts => holders s ts
    | none => []

/-- The victims that no pre-emption has reached yet. -/
def freshVictims (s : State) (n : Nat) : List Nat := (victims s n).filter fun g => !(s.gang g).causes.contains .preempt

/-- Request the pre-emption hold of each gang. -/
def preempt (s : State) (gs : List Nat) : State := gs.foldl (fun s g => s.requestHold g .preempt) s

/-! ### One dispatch step (R49) -/

/-- Place the first launch of the list that fits; those before it, which it skips, pre-empt where R50 lets them. -/
def dispatchFirst (s : State) : List Nat → State
  | [] => s
  | n :: ns =>
    if mayDispatch s n then
      match findPlace s n with
      | some o => placeLaunch s n o
      | none => dispatchFirst (preempt s (freshVictims s n)) ns
    else dispatchFirst s ns

/-- `DISPATCH_STEP` (R49, R50). -/
def execDispatchStep (s : State) : Out := controlled s fun s => dispatchFirst s (dispatchOrder s)

/-! ### The loader (R152, R277) -/

/-- Is the gang placed and without its image? -/
def loadDue (s : State) (gid : Nat) : Bool :=
  decide ((s.gang gid).life = .placed) && !(s.node (s.gang gid).node).saved

/-- Load variant `k` of a gang's launch into every tile. -/
def loadVariant (s : State) (gid k : Nat) : State :=
  let w := pword (s.node (s.gang gid).node).packet k
  (s.gang gid).tiles.foldl (fun s n => s.mapTile n fun t => { t with
    isram := loadImage s.mem t.isram (variantImage w) (variantSize w) }) s

/-- The variant of the current grade is loaded (R152). -/
def loadGang (s : State) (gid : Nat) : State :=
  let k := pickVariant (s.node (s.gang gid).node).packet (gangGrade s (s.gang gid))
  (loadVariant s gid k).mapGang gid fun g => { g with life := .loaded, variant := k }

/-- The word of variant `k` of a gang's launch. -/
def variantWord (s : State) (gid k : Nat) : Nat := pword (s.node (s.gang gid).node).packet k

/-- `LOADER_LOAD` (R277). -/
def execLoaderLoad (gid : Nat) (s : State) : Out :=
  let k := pickVariant (s.node (s.gang gid).node).packet (gangGrade s (s.gang gid))
  reaching s (!loadDue s gid || imageFits s (variantWord s gid k)) fun s => if loadDue s gid then loadGang s gid else s

/-! ### Gang start (R26, R269) -/

/-- Is no cut of the gang's job entering (R227)? -/
def noCut (s : State) (gid : Nat) : Bool :=
  match (s.job (s.gang gid).pasid).cut with
  | some (.running _ _ _) => false
  | _ => true

/-- Has the cut that a gang met before its first bundle let it go (R227)? -/
def letGo (s : State) (gid : Nat) : Bool :=
  match (s.gang gid).resumeAt with
  | some t => decide (t ≤ s.clock)
  | none => true

/-- May the gang start? -/
def startDue (s : State) (gid : Nat) : Bool := decide ((s.gang gid).life = .loaded) && noCut s gid && letGo s gid

/-- Registers at task entry: argument `j` in s(16 + j), everything else zero (R73, R116, R155, R269). -/
def entryRegs (args : List Scalar) : Regs := { s := tsetList 0 id 16 args [] }

/-- The next refresh of a bank after `clock`: it has fallen due every interval meanwhile, and a change of grade has left no more
than an interval (R144, R146). -/
def nextDue (clock interval due : Nat) : Nat :=
  if clock < due then min due (clock + interval) else due + ((clock - due) / interval + 1) * interval

/-- The vault at the first bundle: every bank Idle, every counter and slot 0, DEBT 0 (R134, R144). -/
def entryVault (s : State) : State :=
  let i := Config.refreshInterval (s.grade (quadrantOf s.cur))
  let s := forEach s (fun s n => setBank s n { due := nextDue s.clock i (bankOf s n).due }) (List.range 64)
  s.mapVault fun v => { v with channels := [], guard := none, image := none, exhausted := [], drained := [] }

/-- Put the runs of a set-up into the staging of the tile checked out (R342, R457). -/
def placeSetup (setup : List (Nat × List Byte)) (s : State) : State :=
  setup.foldl (fun s x => putStaging s x.1 x.2 false) s

/-- The tile checked out enters its task. Staging holds what stood there, with valid check bits (R177), and the staging image of the
set-up at the same addresses in every task (R342, R457). -/
def startTile (args : List Scalar) (setup : List (Nat × List Byte)) (s : State) : State :=
  let part := tget (0, 0) (s.job s.core.task.pasid).parts s.cur
  let s := s.mapCore fun t => { t with
    ctl := { status := .running }, regs := entryRegs args, results := [], canal := {},
    task := { t.task with vpb := part.1, vpl := part.2 },
    staging := { cells := t.staging.cells }, isram := { t.isram with unseen := [] },
    barge := { lookaside := t.barge.lookaside, nextId := t.barge.nextId } }
  entryVault (placeSetup setup s)

/-- Write the dispatch record: STATE 1, with the gang's identifier and origin and its start clock, and CCLK 0 (R270). DESIGN CHOICE (log
entry 49). -/
def dispatchRecord (s : State) (n : Nat) : State :=
  let x := s.node n
  writeRecord s (x.owner.getD 0) x.packet (recordWords 0 false 0 1 x.gid x.ox x.oy x.tclk 0)

/-- Tasks cancelled before the gang started end at its first hold point (Table 2.3). -/
def endEarly (s : State) (gid : Nat) : State :=
  let n := (s.gang gid).node
  let ts := (s.node n).endTasks
  if ts.isEmpty then s else requestEnd (s.mapNode n fun x => { x with endTasks := [] }) gid ts

/-- Every task of the gang starts on this clock cycle (R26). A hold requested before takes effect once the first bundle has issued.
DEDUCED (log entry 22). -/
def startGang (s : State) (gid : Nat) (setup : List (Nat × List Byte)) : State :=
  let n := (s.gang gid).node
  let args := (s.node n).args
  let s := (s.gang gid).tiles.foldl (fun s t => s.onTile t (startTile args setup)) s
  let s := s.mapGang gid fun g => { g with
    life := .started, startAt := s.clock, resumeAt := none, effectAt := g.effectAt.map fun t => max t (s.clock + 1) }
  let s := s.mapNode n fun x => { x with tclk := s.clock }
  endEarly (dispatchRecord s n) gid

/-- `GANG_START`: with the staging image that the set-up of the launch has placed (R26, R342). -/
def execGangStart (x : Sys2Proof.GangSetup) (s : State) : Out :=
  controlled s fun s => if startDue s x.gid then startGang s x.gid x.image else s

/-! ### Completion records (R22) -/

/-- `LAUNCH_COMPLETION_RECORD` (R22, R270). -/
def execLaunchCompletionRecord (n : Nat) (s : State) : Out :=
  controlled s fun s => if recordDue s n then writeLaunchRecord s n else s

end Sys2Proof.Machine
end

