-- ==== Sys2Proof/Machine/Streams.lean ====
section
/-! DEFINITION. The F slot: the Fumarole stream engine (R155 to R175, R402 to R421). -/

namespace Sys2Proof.Machine

/-- Lanes of a stream register (R155). -/
def laneCount : Nat := 48

/-- log₂ of the length of a length code (Table 7.1). -/
def lengthLog (l : BitVec 2) : Nat := 10 + l.toNat

/-- The length of a length code. -/
def lengthOf (l : BitVec 2) : Nat := 2 ^ lengthLog l

/-- The beats of a length code (R156). -/
def beatsOf (l : BitVec 2) : Nat := 2 ^ l.toNat

/-- A lane of a stream. -/
def Stream.lane (q : Stream) (i : Nat) : BitVec 8192 := tget 0 q.lanes i

/-- The 48 lanes of a stream. -/
def Stream.laneList (q : Stream) : List (BitVec 8192) := tgetList 0 id q.lanes 0 laneCount

/-- A table of 48 lanes. -/
def laneTable (xs : List (BitVec 8192)) : Table (BitVec 8192) := tsetList 0 id 0 xs []

/-- The ones of a lane (R157). -/
def ones (x : BitVec 8192) : Nat := popCount 8192 x.toNat

/-! ### Generators (R158, R159) -/

/-- Bits [n-1:0] of `k`, reversed. -/
def bitrev : Nat → Nat → Nat
  | 0, _ => 0
  | n + 1, k => k % 2 * 2 ^ n + bitrev n (k / 2)

/-- The scramble constants of Table 7.2. -/
def scramble (c n : Nat) : Nat :=
  let row : List Nat :=
    if n = 10 then [0x0000, 0x00A5, 0x01C3, 0x025E, 0x02F1, 0x033C, 0x016A, 0x03D7]
    else if n = 11 then [0x0000, 0x014B, 0x0386, 0x04BD, 0x05E2, 0x0679, 0x02D4, 0x07AE]
    else if n = 12 then [0x0000, 0x0296, 0x070D, 0x097B, 0x0BC5, 0x0CF2, 0x05A8, 0x0F5C]
    else [0x0000, 0x052D, 0x0E1A, 0x12F7, 0x178B, 0x19E4, 0x0B51, 0x1EB9]
  row.getD c 0

/-- gen(c, n, k) (R158). -/
def gen (c n k : Nat) : Nat :=
  if c < 8 then bitrev n k ^^^ scramble c n else (k + (c - 8) * (2 ^ n / 8)) % 2 ^ n

/-- The number whose bit `k` says whether the `k`-th threshold lies below `x`. -/
def laneBits (x : Nat) : List Nat → Nat
  | [] => 0
  | t :: ts => (if t < x then 1 else 0) + 2 * laneBits x ts

/-- Lanes of class `c` for a list of counts (R158). -/
def generate (c n : Nat) (xs : List Nat) : List (BitVec 8192) :=
  let ts := (List.range (2 ^ n)).map (gen c n)
  xs.map fun x => BitVec.ofNat 8192 (laneBits x ts)

/-- A generated stream (R167). -/
def freshStream (l : BitVec 2) (c : BitVec 4) (xs : List Nat) (poison : Bool) : Stream :=
  { lanes := laneTable (generate c.toNat (lengthLog l) xs), len := l.toNat, mask := BitVec.ofNat 32 (2 ^ c.toNat), poison := poison }

/-- The 16-bit elements of a row. -/
def halves (x : Row) : List Nat := elems 2 laneCount x.toNat

/-- The count that `SGENB` forms of an element: i16 plus L/2, clamped (R167). -/
def bipolarCount (len x : Nat) : Nat := (max 0 (min (len : Int) (toSigned 16 x + (len / 2 : Nat)))).toNat

/-! ### Common steps -/

/-- A read of a stream's lanes: an error that can be corrected raises the verdict, one that cannot sets the stream's poison tag
(R293, R295). -/
def meetStream (s : State) (q : BitVec 3) : State :=
  match (streamOf s q).mark with
  | .good => s
  | .correctable => s.raise .corrected
  | .uncorrectable | .poisoned =>
    s.mapRegs fun r => { r with q := tset {} r.q q.toNat { tget {} r.q q.toNat with poison := true } }

/-- A stream operand as an instruction reads it, with what the read meets (R295). -/
def loadStream (s : State) (q : BitVec 3) : Stream × State := (streamOf (meetStream s q) q, meetStream s q)

/-- A stream result (R164). -/
def streamResult (s : State) (d : BitVec 3) (lat : Nat) (x : Stream) : State := s.after lat (.stream d.toNat x)

/-- `SGEN` and `SGENB` (R167). -/
def generateFrom (i : Instr) (s : State) (d : BitVec 3) (l : BitVec 2) (c : BitVec 4) (v : BitVec 6) (count : Nat → Nat) : Out :=
  issueWord i s fun s =>
    let x := readVector s v
    streamResult s d (beatsOf l + 2) (freshStream l c ((halves x.1).map count) x.2)

/-- A gate over two streams, bit by bit (R169, R403). -/
def gateStreams (i : Instr) (s : State) (d a b : BitVec 3) (l : BitVec 2) (f : BitVec 8192 → BitVec 8192 → BitVec 8192) : Out :=
  issueWord i s fun s =>
    let x := loadStream s a
    let y := loadStream x.2 b
    streamResult y.2 d (beatsOf l + 2)
      { lanes := laneTable (x.1.laneList.zipWith f y.1.laneList), len := l.toNat, mask := x.1.mask ||| y.1.mask,
        poison := x.1.poison || y.1.poison }

/-- A function of every lane of one stream that keeps the length and the poison (R171). -/
def mapStream (i : Instr) (s : State) (d a : BitVec 3) (l : BitVec 2) (f : BitVec 8192 → BitVec 8192)
    (m : BitVec 32 → BitVec 32) : Out :=
  issueWord i s fun s =>
    let x := loadStream s a
    streamResult x.2 d (beatsOf l + 2)
      { lanes := laneTable (x.1.laneList.map f), len := l.toNat, mask := m x.1.mask, poison := x.1.poison }

/-- The bits of a lane of a length. -/
def lengthMask (l : BitVec 2) : BitVec 8192 := BitVec.ofNat 8192 (2 ^ lengthOf l - 1)

/-- A lane of length `len` rotated by `y`: bit k of the result is bit (k - y) mod len (R171). -/
def rotateLane (len y : Nat) (x : BitVec 8192) : BitVec 8192 :=
  BitVec.ofNat 8192 (x.toNat % 2 ^ (len - y) * 2 ^ y + x.toNat % 2 ^ len / 2 ^ (len - y))

/-! ### The instructions -/

/-- `SGEN` (R413). -/
def execSgen (d : BitVec 3) (l : BitVec 2) (c : BitVec 4) (v : BitVec 6) (p : BitVec 3) (s : State) : Out :=
  generateFrom (.sgen d l c v p) s d l c v fun x => min x (lengthOf l)

/-- `SGENB` (R413). -/
def execSgenb (d : BitVec 3) (l : BitVec 2) (c : BitVec 4) (v : BitVec 6) (p : BitVec 3) (s : State) : Out :=
  generateFrom (.sgenb d l c v p) s d l c v (bipolarCount (lengthOf l))

/-- `SREGEN` (R168, R421). -/
def execSregen (d a : BitVec 3) (l : BitVec 2) (c : BitVec 4) (p : BitVec 3) (s : State) : Out :=
  issueWord (.sregen d a l c p) s fun s =>
    let x := loadStream s a
    streamResult x.2 d (2 * beatsOf l + 2) (freshStream l c (x.1.laneList.map ones) x.1.poison)

/-- `SAND` (R403). -/
def execSand (d a b : BitVec 3) (l : BitVec 2) (c : BitVec 1) (p : BitVec 3) (s : State) : Out :=
  gateStreams (.sand d a b l c p) s d a b l fun x y => x &&& y

/-- `SOR` (R403). -/
def execSor (d a b : BitVec 3) (l : BitVec 2) (c : BitVec 1) (p : BitVec 3) (s : State) : Out :=
  gateStreams (.sor d a b l c p) s d a b l fun x y => x ||| y

/-- `SXOR` (R403). -/
def execSxor (d a b : BitVec 3) (l : BitVec 2) (c : BitVec 1) (p : BitVec 3) (s : State) : Out :=
  gateStreams (.sxor d a b l c p) s d a b l fun x y => x ^^^ y

/-- `SXNOR` (R403). -/
def execSxnor (d a b : BitVec 3) (l : BitVec 2) (c : BitVec 1) (p : BitVec 3) (s : State) : Out :=
  gateStreams (.sxnor d a b l c p) s d a b l fun x y => x ^^^ y ^^^ lengthMask l

/-- Bit by bit, `y` where `q` is 1 and `x` where it is 0. -/
def muxLane (x y q : BitVec 8192) : BitVec 8192 := (q &&& y) ||| (~~~q &&& x)

/-- `SMUX` (R170, R418). -/
def execSmux (d a b : BitVec 3) (l : BitVec 2) (c : BitVec 1) (q : BitVec 3) (p : BitVec 3) (s : State) : Out :=
  issueWord (.smux d a b l c q p) s fun s =>
    let x := loadStream s a
    let y := loadStream x.2 b
    let z := loadStream y.2 q
    streamResult z.2 d (beatsOf l + 2)
      { lanes := laneTable ((x.1.laneList.zip (y.1.laneList.zip z.1.laneList)).map fun t => muxLane t.1 t.2.1 t.2.2),
        len := l.toNat, mask := x.1.mask ||| y.1.mask ||| z.1.mask, poison := x.1.poison || y.1.poison || z.1.poison }

/-- `SNOT` (R417). -/
def execSnot (d a : BitVec 3) (l : BitVec 2) (p : BitVec 3) (s : State) : Out :=
  mapStream (.snot d a l p) s d a l (fun x => x ^^^ lengthMask l) fun m => m

/-- `SMOV` (R417). -/
def execSmov (d a : BitVec 3) (l : BitVec 2) (p : BitVec 3) (s : State) : Out :=
  mapStream (.smov d a l p) s d a l (fun x => x) fun m => m

/-- `SDLY` (R407): the mask moves each class to the delayed half. -/
def execSdly (d a : BitVec 3) (l : BitVec 2) (y : BitVec 4) (p : BitVec 3) (s : State) : Out :=
  mapStream (.sdly d a l y p) s d a l (rotateLane (lengthOf l) y.toNat) fun m => (m &&& 0xFFFF#32) <<< 16

/-- The element that `SCNT` writes: the count, added with saturation to the old element when accumulating (R172). -/
def countElem (acc : BitVec 1) (old n : Nat) : Nat := if acc = 1 then min 65535 (old + n) else n

/-- `SCNT` (R172, R406). -/
def execScnt (a : BitVec 3) (l : BitVec 2) (v : BitVec 6) (c : BitVec 1) (p : BitVec 3) (s : State) : Out :=
  issueWord (.scnt a l v c p) s fun s =>
    let x := loadStream s a
    let old := if c = 1 then readV s v.toNat else (0, false)
    let row : Row := BitVec.ofNat 768 (ofElems 2 ((halves old.1).zipWith (countElem c) (x.1.laneList.map ones)))
    vectorResult x.2 7 v (beatsOf l + 4) (row, x.1.poison || old.2)

/-- The row of `SCLS` (R173). -/
def classRow (q : Stream) : Row :=
  BitVec.ofNat 768 (ofElems 4 [q.mask.toNat, q.len % 4 + (if q.poison then 4 else 0)])

/-- `SCLS`: no latch, no poison (R405). -/
def execScls (a : BitVec 3) (v : BitVec 6) (p : BitVec 3) (s : State) : Out :=
  issueWord (.scls a v p) s fun s =>
    if v = 63 then s else s.after 2 (.vector (physV s.core.ctl.rrb v.toNat) (classRow (streamOf s a)) false)

/-- The stream of an image and its trailer (R174, R415). -/
def streamOfImage (l : BitVec 2) (x : Nat) (poison : Bool) : Stream :=
  let trailer := x / 2 ^ (48 * lengthOf l)
  { lanes := laneTable ((elems (lengthOf l / 8) laneCount x).map (BitVec.ofNat 8192)), len := l.toNat,
    mask := BitVec.ofNat 32 trailer, poison := poison || trailer / 2 ^ 34 % 2 == 1 }

/-- The bytes of the image of a stream with its trailer (R174, R416). -/
def imageOfStream (l : BitVec 2) (q : Stream) : List Byte :=
  (q.laneList.flatMap fun x => bytesOf (lengthOf l / 8) x.toNat) ++
    bytesOf 8 (q.mask.toNat + place (l.toNat) 32 + place (if q.poison then 1 else 0) 34)

/-- `SLD` (R415). -/
def execSld (d : BitVec 3) (l : BitVec 2) (a : BitVec 6) (p : BitVec 3) (s : State) : Out :=
  issueWord (.sld d l a p) s fun s =>
    let x := stageLoad (s.taintIf (readScalar s a).2) (stageBase s a 0 8) (imageBytes l)
    streamResult x.2 d (beatsOf l + 2) (streamOfImage l x.1.1 x.1.2)

/-- `SST` (R416): the image is visible on the readable cycle; storing poison taints the task. -/
def execSst (a : BitVec 3) (l : BitVec 2) (b : BitVec 6) (p : BitVec 3) (s : State) : Out :=
  issueWord (.sst a l b p) s fun s =>
    let x := loadStream s a
    (x.2.taintIf (x.1.poison || (readScalar s b).2)).push
      { ready := s.core.ctl.cyc + beatsOf l + 2, eff := .store (stageBase s b 0 8) (imageOfStream l x.1) x.1.poison, sst := true }

end Sys2Proof.Machine
end

