-- ==== Sys2Proof/Machine/Preempt.lean ====
section
/-! DEFINITION. Saving a pre-empted gang into its context areas and bringing it back (R51, R289 to R292). -/

namespace Sys2Proof.Machine

/-! ### The context area (Tables 13.5 and 13.8) -/

/-- The number whose bit `i`, for `i` below `n`, is `f i`. -/
def flagWord (f : Nat → Bool) (n : Nat) : Nat := ((List.range n).map fun i => place (f i).toNat i).sum

/-- The word of two 32-bit values, the first one low. -/
def pairWord (lo hi : Nat) : Nat := place hi 32 + lo

/-- Return-stack entries `e` to `e + 3`, the oldest first. -/
def stackWord (c : Ctl) (e : Nat) : Nat := ofElems 2 ((c.ret.reverse.drop e).take 4)

/-- The control words of a tile (Table 13.8). A waiting task names its wait bundle. -/
def controlWords (t : Tile) : List Nat :=
  let c := t.ctl
  let r := t.regs
  let waits := decide (c.status = .waiting)
  let pc := match c.wait with
    | some w => if waits then w.pc else c.pc
    | none => c.pc
  let mk (i : Nat) : Nat := (tget 0x00400060#32 r.mks i).toNat
  let q (i : Nat) : Stream := tget {} r.q i
  [place c.ret.length 20 + place waits.toNat 17 + place c.inseg.toNat 16 + pc, c.cyc, c.lc.toNat,
   place c.fflg.toNat 32 + place c.awb.toNat 16 + c.rrb.toNat, pairWord c.sgsc.toNat c.sgsh.toNat,
   pairWord c.ecnt.toNat c.esig.toNat, flagWord (fun i => i == 0 || tget false r.p i) 8] ++
    (List.range 4).map (fun i => pairWord (mk (2 * i)) (mk (2 * i + 1))) ++
    [((List.range 8).map fun i => place (q i).len (2 * i)).sum] ++
    (List.range 4).map (fun i => pairWord (q (2 * i)).mask.toNat (q (2 * i + 1)).mask.toNat) ++
    [flagWord (tget false r.vPoison) 48, flagWord (tget false r.sPoison) 56, flagWord (fun i => (q i).poison) 8] ++
    (List.range 4).map (fun l => flagWord (fun j => tget false r.mPoison (64 * l + j)) 64) ++
    [stackWord c 0, stackWord c 4] ++ List.replicate 103 0

/-- The lanes of stream `n` with the offsets at which they lie. -/
def streamRegion (r : Regs) (n : Nat) : List (Nat × List Byte) :=
  (List.range 48).map fun i => (0x180000 + 0xC000 * n + 1024 * i, bytesOf 1024 (tget 0 (tget {} r.q n).lanes i).toNat)

/-- The regions of a context area whose layout the manual gives, by offset (Table 13.5). -/
def contextRegions (s : State) : List (Nat × List Byte) :=
  let t := s.core
  let r := t.regs
  [(0x000000, t.staging.bytes 0 Config.stagingBytes),
   (0x100000, (List.range 2048).flatMap fun n => bytesOf 256 (tget 0 r.acc n).toNat)] ++
    (List.range 8).flatMap (streamRegion r) ++
    [(0x1E0000, (List.range 256).flatMap fun n => bytesOf 96 (tget 0 r.m n).toNat),
     (0x1E6000, (List.range 48).flatMap fun n => bytesOf 96 (tget 0 r.v n).toNat),
     (0x1E7200, (List.range 56).flatMap fun n => bytesOf 8 (readS s n).1.toNat),
     (0x1E7400, (controlWords t).flatMap (bytesOf 8)),
     (0x1E7800, (List.range 64).flatMap fun k => bytesOf 8 (tokenWord s k).toNat),
     (0x1E7A00, (List.range 64).flatMap fun k => bytesOf 8 (tget 0 t.canal.routes k).toNat),
     (0x1E7C00, bytesOf 544 (t.vault.image.getD (bankImage s)).toNat)]

/-- The regions whose layout the manual does not give, by offset and size: barriers, pending results, tags and marks, and the page of
the trap record, of which a task that is saved has none (R290). -/
def openRegions : List (Nat × Nat) := [(0x1E8000, 0x2000), (0x1EA000, 0x4000), (0x1EE000, 0x2000), (0x1F0000, 0x1000)]

/-- Write the regions of a list from a base address (R179). -/
def writeRegions (base : Nat) (m : Mem) (rs : List (Nat × List Byte)) : Mem :=
  rs.foldl (fun m r => m.store .reservoir (base + r.1) r.2) m

/-- Write the context of the tile checked out into its context area; regions without a stated layout hold free values. -/
def writeContext (s : State) : State :=
  let s := s.mapMem fun m => writeRegions s.core.task.ctx m (contextRegions s)
  openRegions.foldl (fun s r => s.takeFree.2.mapMem fun m => m.store .reservoir (s.core.task.ctx + r.1) (bytesOf r.2 s.takeFree.1)) s

/-! ### Save (R289) -/

/-- Is the gang's pre-emption hold in effect, and no other cause's (R41, R289)? -/
def preemptHeld (s : State) (gid : Nat) : Bool :=
  let g := s.gang gid
  decide (g.life = .started) && g.held && g.causes == [.preempt]

/-- Has the tile checked out its bank-state image still to record, or an Active bank with PRERDY 0 to precharge (R289)? -/
def drawsBack (s : State) : Bool := s.core.vault.image.isNone || !(readyBanks s).isEmpty

/-- The bank-state image is recorded as the hold takes effect, and each Active bank is precharged once its own PRERDY reads 0. -/
def drawBack (s : State) : State :=
  let i := bankImage s
  let s := s.mapVault fun v => { v with image := some (v.image.getD i) }
  forEach s prechargeBank (readyBanks s)

/-- Does a tile of a gang that is pre-empted draw back now? -/
def drawBackDue (s : State) (gid : Nat) : Bool := preemptHeld s gid && (s.gang gid).tiles.any fun n => drawsBack (s.select n)

/-- Are the barge commands of the tile checked out complete and its banks precharged, with the image recorded? -/
def tileQuiet (s : State) : Bool := s.core.vault.image.isSome && s.core.barge.queue.isEmpty && (activeBanks s).isEmpty

/-- May the gang be saved? -/
def saveDue (s : State) (gid : Nat) : Bool := preemptHeld s gid && (s.gang gid).tiles.all fun n => tileQuiet (s.select n)

/-- A save reads every register and every unit of staging, and so meets the errors that stand there: a correction raises the verdict,
an error that cannot be corrected leaves its poison tag (R293, R295). DEDUCED (log entry 24). -/
def meetErrors (s : State) : State :=
  let r := s.core.regs
  let t := s.core.staging
  let fixes (m : Mark) : Bool := m == .correctable
  let bad (m : Mark) : Bool := !(m == .good || m == .correctable)
  let s := s.correctIf (r.accMark.any (fun x => fixes x.2) || r.q.any (fun x => fixes x.2.mark) || t.marks.any fun x => fixes x.2)
  let tag (xs : List Nat) (p : Table Bool) : Table Bool := xs.foldl (fun p n => tset false p n true) p
  let lost := (t.marks.filter fun x => bad x.2).map Prod.fst
  (spoilUnits lost (s.mapRegs fun r => { r with
    sPoison := tag (r.sBad.map Prod.fst) r.sPoison, vPoison := tag (r.vBad.map Prod.fst) r.vPoison,
    mPoison := tag (r.mBad.map Prod.fst) r.mPoison,
    accPoison := tag ((r.accMark.filter fun x => bad x.2).map Prod.fst) r.accPoison,
    q := (List.range 8).foldl (fun q n =>
      let x := tget {} q n
      tset {} q n { x with poison := x.poison || bad x.mark }) r.q })).mapStaging fun t => { t with
        poison := tag (lost.map fun u => u / 4) t.poison }

/-- What a save keeps of a tile beside its context area: what the regions without a stated layout hold, with the task and its verdict;
not instruction SRAM, the vault or the lookaside. DESIGN CHOICE (log entry 24). -/
def keptTile (s : State) : Tile := { s.core with isram := {}, barge := { s.core.barge with lookaside := [] }, vault := {} }

/-- Save the tile checked out and free it. -/
def saveTile (s : State) : State :=
  let s := writeContext (meetErrors s)
  let key := savedKey s.core.task.gid s.core.task.tix
  let s := { s with saved := tset {} s.saved key (keptTile s) }
  s.mapCore fun t => freeTile { t with vault := { t.vault with guard := none, image := none } }

/-- The gang is saved, its tiles are free, and its launch is ready again with the wait it had (R48, R51). -/
def saveGang (s : State) (gid : Nat) : State :=
  let n := (s.gang gid).node
  let s := (s.gang gid).tiles.foldl (fun s t => s.onTile t saveTile) s
  let s := s.mapGang gid fun g => { g with life := .saved }
  (s.mapNode n fun x => { x with
    life := .ready, saved := true, readyAt := s.clock, prio := agedPrio x x.waited, reserved := false }).mapLk fun l => { l with
      order := l.order ++ [n] }

/-- `PREEMPTION_SAVE`: the tiles draw back as the pre-emption hold stands; once each is quiet, the Lockkeeper saves the gang (R289). -/
def execPreemptionSave (gid : Nat) (s : State) : Out :=
  if drawBackDue s gid then .next ((s.gang gid).tiles.foldl (fun s n => s.onTile n drawBack) s)
  else controlled s fun s => if saveDue s gid then saveGang s gid else s

/-! ### Restore (R291, R292) -/

/-- May the gang be restored: it is placed again at its former origin, no cut of its job is entering, and one that it met has let it
go? -/
def restoreDue (s : State) (gid : Nat) : Bool :=
  let g := s.gang gid
  decide (g.life = .placed) && (s.node g.node).saved && noCut s gid && letGo s gid

/-- The table of the values that a function gives below a bound. -/
def tableOf {α : Type} [DecidableEq α] (d : α) (n : Nat) (f : Nat → α) : Table α := tsetList d id 0 ((List.range n).map f) []

/-- The blocks of a context area at `a` that cannot be read (R179). -/
def lostBlocks (m : Mem) (a : Nat) : List Nat :=
  (m.marks.filter fun x => x.2.bad && decide (a ≤ 64 * x.1) && decide (64 * x.1 < a + contextBytes)).map Prod.fst

/-- The bytes of the reservoir with free ones in the blocks listed (R10, R295). -/
def freeBlocks : List Nat → State → Table Byte → Table Byte × State
  | [], s, t => (t, s)
  | b :: bs, s, t => freeBlocks bs s.takeFree.2 (writeBytes t (64 * b) (bytesOf 64 s.takeFree.1))

/-- The poison tags of the `n` registers of `size` bytes that the region at `off` of a context area holds: those saved, and one for each
register that a lost block touches (R294, R295). `bad` tells whether a run of the area touches one. -/
def savedTags (bad : Nat → Nat → Bool) (off size n : Nat) (saved : Nat → Bool) : Table Bool :=
  tableOf false n fun i => saved i || bad (off + size * i) size

/-- The value of the `n` bytes at an address of the reservoir. -/
def readNat (m : Table Byte) (a n : Nat) : Nat := ofBytes (readBytes m a n)

/-- Word `i` of the control region of the context area at `a` (Table 13.8). -/
def savedWord (m : Table Byte) (a i : Nat) : Nat := readNat m (a + 0x1E7400 + 8 * i) 8

/-- Bit `i` of the control words from word `w` on. -/
def savedBit (m : Table Byte) (a w i : Nat) : Bool := (savedWord m a (w + i / 64)).testBit (i % 64)

/-- One of the pairs of 32-bit values that the control words from word `w` on hold. -/
def savedHalf (m : Table Byte) (a w i : Nat) : BitVec 32 := BitVec.ofNat 32 (savedWord m a (w + i / 2) / 2 ^ (32 * (i % 2)))

/-- The stream register `n` of a context area: of each lane as many bits as its length code names (R155, Table 13.5). -/
def savedStream (bad : Nat → Nat → Bool) (m : Table Byte) (a n : Nat) : Stream :=
  let len := bits (savedWord m a 11) (2 * n + 1) (2 * n)
  { lanes := tableOf 0 48 fun i => BitVec.ofNat 8192 (readNat m (a + 0x180000 + 0xC000 * n + 1024 * i) 1024 % 2 ^ lengthOf (BitVec.ofNat 2 len)),
    len := len, mask := savedHalf m a 12 n,
    poison := savedBit m a 18 n || bad (0x180000 + 0xC000 * n) 0xC000 }

/-- The registers that a context area holds; the tags of accumulator rows lie in a region without a stated layout. -/
def savedRegs (bad : Nat → Nat → Bool) (m : Table Byte) (a : Nat) (k : Regs) : Regs :=
  { s := tableOf 0 56 fun i => BitVec.ofNat 64 (readNat m (a + 0x1E7200 + 8 * i) 8),
    sPoison := savedTags bad 0x1E7200 8 56 (savedBit m a 17),
    p := tableOf false 8 fun i => i != 0 && savedBit m a 6 i,
    v := tableOf 0 48 fun i => BitVec.ofNat 768 (readNat m (a + 0x1E6000 + 96 * i) 96),
    vPoison := savedTags bad 0x1E6000 96 48 (savedBit m a 16),
    acc := tableOf 0 2048 fun i => BitVec.ofNat 2048 (readNat m (a + 0x100000 + 256 * i) 256),
    accPoison := savedTags bad 0x100000 256 2048 (tget false k.accPoison),
    m := tableOf 0 256 fun i => BitVec.ofNat 768 (readNat m (a + 0x1E0000 + 96 * i) 96),
    mPoison := savedTags bad 0x1E0000 96 256 (savedBit m a 19),
    q := tableOf {} 8 (savedStream bad m a),
    mks := tableOf 0x00400060#32 8 fun i => savedHalf m a 7 i &&& 0x007F007F#32 }

/-- The return stack of a context area: its entries lie oldest first, the head of the stack is the newest. -/
def savedStack (m : Table Byte) (a : Nat) : List Nat :=
  ((List.range (min 8 (bits (savedWord m a 0) 23 20))).map fun e =>
    bits (savedWord m a (23 + e / 4)) (16 * (e % 4) + 11) (16 * (e % 4))).reverse

/-- The wait of a task that is restored: its bundle does not issue again, and its condition is tested again (R291). -/
def savedWait (clock pc : Nat) (b : Barge) (w : Wait) : Wait :=
  { w with pc := pc, met := if waitHolds b w.on then some clock else none }

/-- The control state that a context area holds; the occupied slots of a task lie in a region without a stated layout. -/
def savedCtl (m : Table Byte) (a clock : Nat) (b : Barge) (k : Ctl) : Ctl :=
  let pc := bits (savedWord m a 0) 11 0
  let waits := savedBit m a 0 17 && decide (k.status = .waiting)
  { k with
    status := if k.status = .waiting && !waits then .running else k.status,
    pc := if waits then pc + 1 else pc,
    wait := if waits then k.wait.map (savedWait clock pc b) else none, passes := none,
    inseg := savedBit m a 0 16, ret := savedStack m a,
    cyc := savedWord m a 1, lc := savedHalf m a 2 0, rrb := BitVec.ofNat 4 (savedWord m a 3),
    awb := BitVec.ofNat 11 (bits (savedWord m a 3) 26 16), fflg := BitVec.ofNat 6 (bits (savedWord m a 3) 37 32),
    sgsc := savedHalf m a 4 0, sgsh := savedHalf m a 4 1, ecnt := savedHalf m a 5 0, esig := savedHalf m a 5 1 }

/-- The fields of a completion word, its reserved bits 0 (Table 8.4, R7). -/
def wordFields (x : Nat) : BitVec 64 := BitVec.ofNat 64 (place (bits x 63 56) 56 + place (bits x 52 32) 32 + bits x 20 0)

/-- The fields of a route-table entry, its reserved bits 0 (Table 11.1, R7). -/
def routeFields (x : Nat) : BitVec 64 := BitVec.ofNat 64 (place (bits x 15 5) 5)

/-- The barge side of a context area: the completion words of the tokens. The lookaside is that of the tile, whose barge has gone on
numbering its commands. -/
def savedBarge (m : Table Byte) (a : Nat) (k here : Barge) : Barge :=
  { k with
    lookaside := here.lookaside, nextId := max k.nextId here.nextId,
    words := k.issuedBy.foldl (fun t x =>
      if x.2 = 0 then t else tset 0 t (x.2 - 1) (wordFields (readNat m (a + 0x1E7800 + 8 * x.1) 8))) k.words }

/-- The banks that the bank-state image of a context area holds Active, with row and intent (Table 6.5). -/
def savedBanks (m : Table Byte) (a : Nat) : List (Nat × Nat × Bool) :=
  (List.range 64).filterMap fun n =>
    let x := readNat m (a + 0x1E7C00 + 8 * n) 8
    if bits x 43 42 = 1 then some (n, bits x 63 44, x.testBit 41) else none

/-- The tags of staging lines as they were saved, with those of the lines that the lost blocks of a context area at `a` held. -/
def savedLines (a : Nat) (lost : List Nat) (tags : Table Bool) : Table Bool :=
  (lost.filter fun b => decide (64 * b < a + Config.stagingBytes)).foldl (fun t b =>
    tset false (tset false t (2 * b - a / 32) true) (2 * b + 1 - a / 32) true) tags

/-- The tile checked out with the context that its area holds, beside what the save kept; `lost` are the blocks that could not be read, and
`m` is the reservoir with free bytes in them. VPB and VPL are those of the job's partition on the tile, which may have been allocated
meanwhile (R141). -/
def readContext (s : State) (k : Tile) (lost : List Nat) (m : Table Byte) : Tile :=
  let a := k.task.ctx
  let part := tget (0, 0) (s.job k.task.pasid).parts s.cur
  let b := savedBarge m a k.barge s.core.barge
  { k with
    ctl := savedCtl m a s.clock b k.ctl, regs := savedRegs (fun o n => s.mem.badRun .reservoir (a + o) n) m a k.regs, barge := b,
    staging := { cells := tsetList 0 id 0 (readBytes m a Config.stagingBytes) [], poison := savedLines a lost k.staging.poison,
                 unseen := k.staging.unseen },
    canal := { k.canal with routes := tableOf 0 64 fun i => routeFields (readNat m (a + 0x1E7A00 + 8 * i) 8) },
    task := { k.task with vpb := part.1, vpl := part.2 }, isram := { s.core.isram with unseen := [] }, vault := s.core.vault }

/-- Bring one task back into the tile checked out: its context, the instruction SRAM of the loader, the banks reopened under the
clone rule with every counter 0 and DEBT 0 (R144, R232). A block of the area that cannot be read gives free values, poisoned where they
carry a tag (R295). -/
def restoreHere (k : Tile) (s : State) : State :=
  let lost := lostBlocks s.mem k.task.ctx
  let m := freeBlocks lost s s.mem.res
  let banks := savedBanks m.1 k.task.ctx
  let t := readContext s k lost m.1
  let s := m.2.mapCore fun _ => t
  let i := Config.refreshInterval (s.grade (quadrantOf s.cur))
  let s := reopenClones (settleBanks s banks) banks
  forEach s (fun s n => let b := bankOf s n
    setBank s n { b with debt := 0, due := nextDue s.clock i b.due }) (List.range 64)

/-- The gang is restored: it stands held as it was saved, and its pre-emption hold clears (R51, R292). -/
def restoreGang (s : State) (gid : Nat) : State :=
  let g := s.gang gid
  let s := loadVariant s gid g.variant
  let s := g.tiles.zipIdx.foldl (fun s t => s.onTile t.1 (restoreHere (tget {} s.saved (savedKey gid (g.firstTix + t.2))))) s
  let s := { s with saved := tclear s.saved (savedKey gid 0) (savedKey (gid + 1) 0) }
  let s := (s.mapGang gid fun g => { g with life := .started }).mapNode g.node fun x => { x with saved := false }
  endEarly (s.clearHold gid .preempt) gid

/-- `PREEMPTION_RESTORE` (R292). -/
def execPreemptionRestore (gid : Nat) (s : State) : Out :=
  reaching s (!restoreDue s gid || imageFits s (variantWord s gid (s.gang gid).variant)) fun s => if restoreDue s gid then restoreGang s gid else s

end Sys2Proof.Machine
end

