-- ==== Sys2Proof/Machine/TrapEvents.lean ====
section
/-! DEFINITION. The trap policies of a job and TRAPQ (R286, R287). -/

namespace Sys2Proof.Machine

/-- The trap records of a gang's tiles. -/
def gangRecords (s : State) (gid : Nat) : List TrapRec := (s.gang gid).tiles.filterMap fun n => (s.tile n).ctl.trap

/-- The lowest CAUSE among the gang's records. -/
def lowestCause (s : State) (gid : Nat) : Nat := (gangRecords s gid).foldl (fun m r => min m r.cause) 15

/-- Is a trapped gang to be signalled: it is held, its records are written, and the Lockkeeper has not acted (R282, R284)? -/
def signalDue (s : State) (gid : Nat) : Bool :=
  let g := s.gang gid
  let rs := gangRecords s gid
  g.held && g.causes.contains .trap && !g.signalled && !rs.isEmpty && rs.all TrapRec.final

/-- The policy of a job for a cause (Table 13.4). -/
def policyOf (j : Job) (cause : Nat) : Nat := bits j.policy.toNat (2 * cause - 1) (2 * cause - 2)

/-- The TRAPQ entry of a gang (Table 13.4). -/
def trapqEntry (s : State) (gid : Nat) : BitVec 64 :=
  let g := s.gang gid
  let t := g.firstTrap.getD 0
  BitVec.ofNat 64 (2 ^ 63 + place gid 48 + place (tileX t) 44 + place (tileY t) 40 + place g.pasid 20 + place g.node 8 +
    lowestCause s gid)

/-- Report a trap: an entry of TRAPQ, with vector 0 when the queue was empty; a full queue makes the trap wait (R287). -/
def reportTrap (s : State) (gid : Nat) : State :=
  if 64 ≤ s.lk.trapq.length then s.mapLk fun l => { l with trapWaits := l.trapWaits ++ [gid] }
  else
    let e := trapqEntry s gid
    let s := if s.lk.trapq.isEmpty then raiseVector s 0 else s
    s.mapLk fun l => { l with trapq := l.trapq ++ [e] }

/-- Abort a gang: every task ends as R45 states, and the launch is tainted (R23, R286). -/
def abortGang (s : State) (gid : Nat) (again : Bool) : State :=
  requestEnd (s.mapGang gid fun g => { g with reissue := again, tainted := true }) gid (allTasks (s.gang gid))

/-- May the launch of a gang be reissued once more (R286)? -/
def mayReissue (s : State) (gid : Nat) : Bool :=
  let x := s.node (s.gang gid).node
  decide (x.reissues < (s.job (s.gang gid).pasid).rmax) && !x.gaveEarly

/-- The Lockkeeper applies the policy of the lowest cause (R286). -/
def signalTrap (s : State) (gid : Nat) : State :=
  let p := policyOf (s.job (s.gang gid).pasid) (lowestCause s gid)
  let s := s.mapGang gid fun g => { g with signalled := true }
  if p = 1 then abortGang s gid false
  else if p = 2 then abortGang s gid (mayReissue s gid)
  else reportTrap s gid

/-- `TRAP_SIGNAL` (R286). -/
def execTrapSignal (gid : Nat) (s : State) : Out := controlled s fun s => if signalDue s gid then signalTrap s gid else s

/-- `TRAPPOL_WRITE`: POL in [19:0], RMAX in [43:40], PASID in [63:44] (Table 13.4). -/
def execTrappolWrite (value : BitVec 64) (s : State) : Out :=
  let p := bits value.toNat 63 44
  controlled s fun s =>
    if (s.job p).live then
      s.mapJob p fun j => { j with policy := value.truncate 20, rmax := bits value.toNat 43 40 }
    else lkError s 3

/-- Does a trap that waits for TRAPQ still stand? -/
def trapStands (s : State) (gid : Nat) : Bool :=
  (s.gang gid).causes.contains .trap && (s.gang gid).signalled && !(gangRecords s gid).isEmpty

/-- The first waiting trap that still stands takes the entry that has become free. -/
def feedTrapq (s : State) : State :=
  match s.lk.trapWaits.dropWhile fun g => !trapStands s g with
  | [] => s.mapLk fun l => { l with trapWaits := [] }
  | g :: gs => reportTrap (s.mapLk fun l => { l with trapWaits := gs }) g

/-- What a read of TRAPQ returns: its oldest entry, or 0 with the valid bit clear when it is empty (Table 13.4). -/
def trapqHead (s : State) : BitVec 64 := s.lk.trapq.headD 0

/-- `TRAPQ_READ`: the host receives the oldest entry, and a read that returns a valid entry removes it (R287). -/
def execTrapqRead (s : State) : Out :=
  let r := reply s (trapqHead s)
  .next <|
    match s.lk.trapq with
    | [] => r
    | _ :: es => feedTrapq (r.mapLk fun l => { l with trapq := es })

end Sys2Proof.Machine
end

