-- ==== Sys2Proof/Machine/Lkcmd.lean ====
section
/-! DEFINITION. The commands of LKCMD (R42 to R46, R239, R261, R273, R274, R278 to R280, R287). -/

namespace Sys2Proof.Machine

/-! ### The word and its fields (Table 12.9, R279) -/

/-- OP of an LKCMD word. -/
def cmdOp (w : BitVec 64) : Nat := bits w.toNat 63 56
/-- LEVEL. -/
def cmdLevel (w : BitVec 64) : Nat := bits w.toNat 55 52
/-- PASID of every layout. -/
def cmdPasid (w : BitVec 64) : Nat := bits w.toNat 51 32
/-- Node of the task, launch and graph layouts. -/
def cmdNode (w : BitVec 64) : Nat := bits w.toNat 11 0
/-- TIX of the task layout. -/
def cmdTix (w : BitVec 64) : Nat := bits w.toNat 27 12
/-- Queue number. -/
def cmdQueue (w : BitVec 64) : Nat := bits w.toNat 7 0
/-- Generation number. -/
def cmdGen (w : BitVec 64) : Nat := bits w.toNat 31 0

/-- The layouts of the ID field. -/
inductive IdLayout where
  | task | launch | job | queue | gen
  deriving DecidableEq, Repr

/-- Has the ID a nonzero bit outside its layout? -/
def idBad (w : BitVec 64) : IdLayout → Bool
  | .task => decide (bits w.toNat 31 28 ≠ 0)
  | .launch => decide (bits w.toNat 31 12 ≠ 0)
  | .job => decide (bits w.toNat 31 0 ≠ 0)
  | .queue => decide (bits w.toNat 31 8 ≠ 0)
  | .gen => false

/-- The layout of a level (R279). -/
def levelLayout (l : Nat) : IdLayout := if l = 0 then .task else if l < 3 then .launch else .job

/-- A command finishes: DONE, STATUS and VALUE of LKRES (R278). -/
def finish (s : State) (status value : Nat) : State :=
  s.mapLk fun l => { l with res := BitVec.ofNat 64 (2 ^ 63 + place status 56 + value) }

/-- Run the command of a row: a write while a command runs is discarded and logged (R278); a word of another row does nothing. -/
def lkcmd (op : Nat) (w : BitVec 64) (s : State) (f : State → State) : Out :=
  controlled s fun s =>
    if cmdOp w ≠ op then s
    else if s.lk.cmdBusy then lkError s 2
    else f s

/-- A command with an ID: STATUS 5 when it is malformed, 3 when its job does not exist (R279). -/
def withId (s : State) (w : BitVec 64) (levels : List Nat) (l : IdLayout) (f : State → State) : State :=
  if !(levels.contains (cmdLevel w)) || idBad w l then finish s 5 0
  else if !(s.job (cmdPasid w)).live then finish s 3 0
  else f s

/-- Every LEVEL, for a command that ignores it. -/
def anyLevel : List Nat := List.range 16

/-- Is the node assigned to the job? -/
def ownsNode (s : State) (w : BitVec 64) : Bool := decide ((s.node (cmdNode w)).owner = some (cmdPasid w))

/-- The launch in use that a command names. -/
def launchNamed (s : State) (w : BitVec 64) : Option Nat :=
  if ownsNode s w && (s.node (cmdNode w)).inUse then some (cmdNode w) else none

/-- `LKCMD_NOOP` (Table 12.10). -/
def execLkcmdNoop (w : BitVec 64) (s : State) : Out := lkcmd 0 w s fun s => finish s 0 0

/-- `LKCMD_UNASSIGNED`: an unassigned code, or any write while a command runs, sets LKERR bit 2 and leaves LKRES (R278, R287). -/
def execLkcmdUnassigned (w : BitVec 64) (s : State) : Out :=
  controlled s fun s => if 12 ≤ cmdOp w || s.lk.cmdBusy then lkError s 2 else s

/-! ### Graphs (Table 2.1) -/

/-- The nodes in use of a job. -/
def jobNodes (s : State) (p : Nat) : List Nat := (nodesInUse s).filter fun n => decide ((s.node n).owner = some p)

/-- The launches in use of the graph of a node: a graph is named by any one of its nodes, one whose launch is complete among them
(R279). -/
def graphOf (s : State) (p n : Nat) : List Nat := (jobNodes s p).filter fun m => (s.node m).graph == (s.node n).graph

/-- Has the job a graph at the node that a command names: a launch of it is in use there, or one has completed there? -/
def graphNamed (s : State) (w : BitVec 64) : Bool :=
  (launchNamed s w).isSome || (ownsNode s w && (tget none (s.node (cmdNode w)).last (cmdPasid w)).isSome)

/-! ### The counter of a job (Table 2.1) -/

/-- The launches of a list that are not complete. -/
def openLaunches (s : State) (ns : List Nat) : Nat := (ns.filter fun n => decide ((s.node n).life ≠ .counted)).length

/-- The launch packets of a job that its threads hold, not yet entered at a node. -/
def heldLaunches (s : State) (p : Nat) : Nat :=
  ((mappedThreads s).filter fun t => decide (t.2.act = .packet) && packetType t.2.packet == 1 && qPasid s t.2.qcb == p).length

/-- The queues of a job, by QCB: those that its queue table holds and those that are mapped. -/
def jobQueues (s : State) (p : Nat) : List Nat :=
  let named := (List.range 256).filterMap fun q => match walkQueue s p q with
    | .found _ qcb => if qcbBad s qcb none then none else some qcb
    | _ => none
  (((mappedThreads s).map fun t => t.2.qcb) ++ named).eraseDups.filter fun qcb => qPasid s qcb == p

/-- Does a launch packet stand published at an index of a queue, as the Lockkeeper reads the ring (R265, R267)? -/
def queuedAt (s : State) (qcb i : Nat) : Bool × State :=
  let sp := qSpace s qcb
  let a := ringSlot s qcb i
  if s.mem.fits sp a 128 then
    let seq := readSpaceWord s sp (a + 120)
    if seq.1.toNat == i then
      let w := readSpaceWord seq.2 sp a
      (bits w.1.toNat 3 0 == 1, w.2)
    else (false, seq.2)
  else (false, s)

/-- Of `n` indices of a queue from `i` on, those at which a launch packet stands published, each with the queue. -/
def queuedFrom (qcb : Nat) : Nat → Nat → State → List (Nat × Nat) × State
  | 0, _, s => ([], s)
  | n + 1, i, s =>
    let x := queuedAt s qcb i
    let r := queuedFrom qcb n (i + 1) x.2
    (if x.1 then (qcb, i) :: r.1 else r.1, r.2)

/-- The launch packets that stand published and untaken in a ring, kicked or not. -/
def queuedIn (s : State) (qcb : Nat) : List (Nat × Nat) × State :=
  if s.mem.fits (qSpace s qcb) (ridxAddr s qcb) 8 then
    queuedFrom qcb (qSlots s qcb) (spaceWord s (qSpace s qcb) (ridxAddr s qcb)) s
  else ([], s)

/-- The launch packets that stand published and untaken in the rings of a job: queue and index of each. A launch is queued from its publication
on: DEDUCED (log entry 40). -/
def jobQueued (s : State) (p : Nat) : List (Nat × Nat) × State :=
  (jobQueues s p).foldl (fun r q => let x := queuedIn r.2 q; (r.1 ++ x.1, x.2)) ([], s)

/-- The counter of a job: its launches queued, placed or running (Table 2.1). -/
def jobCounter (s : State) (p : Nat) : Nat × State :=
  let r := jobQueued s p
  (openLaunches s (jobNodes s p) + heldLaunches s p + r.1.length, r.2)

/-! ### CANCEL (R44 to R46, R280) -/

/-- The number of this package's tasks of a launch. -/
def taskCount (x : Node) : Nat := launchW x * launchH x

/-- The task index of the first of them (R25). -/
def firstTask (s : State) (n : Nat) : Nat :=
  let x := s.node n
  if decide (x.life = .running) || x.saved then (s.gang x.gid).firstTix else launchRank s x * taskCount x

/-- Is `tix` the index of one of them? -/
def hasTask (s : State) (n tix : Nat) : Bool := decide (firstTask s n ≤ tix) && decide (tix < firstTask s n + taskCount (s.node n))

/-- Cancel one task of a launch in use. A launch that has not started ends the task at its first hold point; a task whose counter has
reached zero keeps its verdict (R44). -/
def cancelTask (s : State) (n tix : Nat) : State :=
  let x := s.node n
  match x.life with
  | .free | .counted => s
  | .waiting | .ready => s.mapNode n fun x => { x with endTasks := x.endTasks ++ [tix] }
  | .running =>
    let g := s.gang x.gid
    if g.life = .started then
      let isOver (t : Tile) : Bool := t.task.complete || (tileCounter t == 0 && t.ctl.trap.isNone)
      if g.tiles.any fun t => (s.tile t).task.tix == tix && isOver (s.tile t) then s else requestEnd s x.gid [tix]
    else s.mapNode n fun x => { x with endTasks := x.endTasks ++ [tix] }

/-- A pending cancel of a launch not yet taken (R280). A second one for the same node is noted beside the first, and meets a second launch: DESIGN
CHOICE (log entry 62). -/
def pendCancel (s : State) (p n : Nat) : State :=
  if 64 ≤ s.lk.cancels.length then finish s 4 0
  else finish (s.mapLk fun l => { l with cancels := l.cancels ++ [(p, n, s.clock)] }) 2 0

/-- A phase cancel: every gang of the job ends at its next re-planning point, and dispatch stops (Table 2.3). With no phase open its
counter is 0, and the cancel has no effect (R44). -/
def cancelPhase (s : State) (p : Nat) : State :=
  if (s.job p).phaseLeft = 0 then s
  else
    let s := s.mapJob p fun j => { j with stopped := true }
    (s.gangs.filter fun g => g.2.pasid == p).foldl (fun s g => s.mapGang g.1 fun g => { g with stopAt := true }) s

/-- Unmap the queues of a job, with their watches and requests, and drop its pending cancels (Table 2.3, R280). -/
def unmapJob (s : State) (p : Nat) : State :=
  s.mapLk fun l => { l with
    threads := l.threads.filter fun t => decide (t.2.act = .unmapped) || t.2.pasid != p,
    watches := l.watches.filter fun w => w.pasid != p,
    reports := l.reports.filter fun r => r.pasid != p,
    mapWaits := l.mapWaits.filter fun r => r.pasid != p,
    serviceWaits := l.serviceWaits.filter fun r => r.pasid != p,
    cancels := l.cancels.filter fun c => c.1 != p }

/-- The threads that serve a queue of a job. -/
def jobThreads (s : State) (p : Nat) : List Nat := ((mappedThreads s).filter fun t => t.2.pasid == p).map Prod.fst

/-- A job cancel meets a launch packet that stands at an index of a ring: one with an error, but for a node in use, is rejected, another launch is
cancelled. A word 0 of zeros then stands in the slot, so that the thread which takes it finds a packet that does nothing: DESIGN CHOICE (log entry
52). -/
def cancelQueued (s : State) (x : Nat × Nat) : State :=
  let sp := qSpace s x.1
  let a := ringSlot s x.1 x.2
  let p := readSpaceWords s sp a 15
  let t : Thread := { qcb := x.1, packet := p.1 }
  let e := launchError p.2 t
  let waits := e == 7 && decide ((s.node (packetNode t.packet)).owner = some (qPasid s x.1))
  (if e == 0 || waits then cancelEntry p.2 t s.clock else rejectRecord p.2 t e).writeSpaceWord sp a 0

/-- A job cancel: every launch of the job, one whose packet a thread has taken or that stands in a ring among them, and its queues (Table 2.3). When the
counter of the job is 0 it ends none (R44), and removes the pending cancels of the job all the same (R280). -/
def cancelJob (s : State) (p : Nat) : State :=
  let q := jobQueued s p
  if (jobCounter s p).1 = 0 then q.2.mapLk fun l => { l with cancels := l.cancels.filter fun c => c.1 != p }
  else
    let s := unmapJob ((jobThreads q.2 p).foldl cancelHeld q.2) p
    q.1.foldl cancelQueued ((jobNodes s p).foldl cancelLaunch s)

/-- The effect of a well-formed CANCEL of an existing job. -/
def cancel (w : BitVec 64) (s : State) : State :=
  let p := cmdPasid w
  let n := cmdNode w
  if cmdLevel w = 3 then finish (cancelPhase s p) 0 0
  else if cmdLevel w = 4 then finish (cancelJob s p) 0 0
  else if !ownsNode s w then finish s 3 0
  else if cmdLevel w = 0 then
    (if (launchNamed s w).isSome && hasTask s n (cmdTix w) then finish (cancelTask s n (cmdTix w)) 0 0 else finish s 3 0)
  else if cmdLevel w = 1 then
    (if (launchNamed s w).isSome then finish (cancelLaunch s n) 0 0 else pendCancel s p n)
  else if graphNamed s w then finish ((graphOf s p n).foldl cancelLaunch s) 0 0
  else finish s 3 0

/-- `LKCMD_CANCEL` (Table 12.10). -/
def execLkcmdCancel (w : BitVec 64) (s : State) : Out :=
  lkcmd 1 w s fun s => withId s w [0, 1, 2, 3, 4] (levelLayout (cmdLevel w)) (cancel w)

/-! ### RELEASE, READ, RETRY, ASSIGN -/

/-- `LKCMD_RELEASE`: the edges that the hold policy keeps unsatisfied are satisfied (R274). -/
def execLkcmdRelease (w : BitVec 64) (s : State) : Out :=
  lkcmd 2 w s fun s => withId s w [1] .launch fun s =>
    match launchNamed s w with
    | none => finish s 3 0
    | some n =>
      if (s.node n).edges.any Edge.blocked then
        let s := s.mapNode n fun x => { x with
          edges := x.edges.map fun e => if e.blocked then { e with blocked := false, satisfied := true } else e }
        finish (becomeReady s n) 0 0
      else finish s 3 0

/-- The counter of a task: 1 until its first bundle issues, 0 once it is complete. -/
def taskCounter (s : State) (n tix : Nat) : Nat :=
  let x := s.node n
  match x.life with
  | .free | .counted => 0
  | _ =>
    if decide ((s.gang x.gid).life = .started) || x.saved then
      match (gangTiles s x.gid)[tix - (s.gang x.gid).firstTix]? with
      | some t => if t.task.complete then 0 else tileCounter t
      | none => 0
    else 1

/-- The counter of a launch: its tasks not complete. -/
def launchCounter (s : State) (n : Nat) : Nat :=
  let x := s.node n
  match x.life with
  | .free | .counted => 0
  | .waiting => taskCount x
  | .ready => if x.saved then x.tasksLeft else taskCount x
  | .running => x.tasksLeft

/-- The STATUS and the counter that READ returns for the levels below a job; a launch that is complete reads 0 (Table 2.1). -/
def readCounter (s : State) (w : BitVec 64) : Nat × Nat :=
  let p := cmdPasid w
  let n := cmdNode w
  if cmdLevel w = 3 then (0, (s.job p).phaseLeft)
  else if !graphNamed s w then (3, 0)
  else if cmdLevel w = 2 then (0, openLaunches s (graphOf s p n))
  else
    match launchNamed s w with
    | none => (0, 0)
    | some n =>
      if cmdLevel w = 1 then (0, launchCounter s n)
      else if hasTask s n (cmdTix w) then (0, taskCounter s n (cmdTix w))
      else (3, 0)

/-- `LKCMD_READ` (Table 12.10). -/
def execLkcmdRead (w : BitVec 64) (s : State) : Out :=
  lkcmd 3 w s fun s => withId s w [0, 1, 2, 3, 4] (levelLayout (cmdLevel w)) fun s =>
    if cmdLevel w = 4 then
      let r := jobCounter s (cmdPasid w)
      finish r.2 0 r.1
    else
      let r := readCounter s w
      finish s r.1 r.2

/-- Has the job the queue that a command names: the walk of the queue table finds it, or finds its tables out of the reservoir
(R261, R279)? -/
def queueNamed (s : State) (w : BitVec 64) : Bool := decide (walkQueue s (cmdPasid w) (cmdQueue w) ≠ .discarded)

/-- `LKCMD_RETRY`: the walks that wait for the queue go on; when the table has no entry for it by now, what waits is discarded with LKERR
bit 0 (R261). -/
def execLkcmdRetry (w : BitVec 64) (s : State) : Out :=
  let walks := controlRuns s && cmdOp w == 4 && !s.lk.cmdBusy && !idBad w .queue && (s.job (cmdPasid w)).live
  fitted (!(walks && decide (walkQueue s (cmdPasid w) (cmdQueue w) = .outside))) <| lkcmd 4 w s fun s => withId s w anyLevel .queue fun s =>
    let mine (r : MapReq) : Bool := r.pasid == cmdPasid w && r.qnum == cmdQueue w
    let rs := s.lk.serviceWaits.filter mine
    let t := s.mapLk fun l => { l with serviceWaits := l.serviceWaits.filter fun r => !mine r }
    if queueNamed s w then finish (rs.foldl requestMap t) 0 0
    else finish (if rs.isEmpty then t else lkError t 0) 3 0

/-- `LKCMD_ASSIGN`: the node belongs to the job; each job's last verdict recorded there stands (R273, R275). -/
def execLkcmdAssign (w : BitVec 64) (s : State) : Out :=
  lkcmd 5 w s fun s => withId s w anyLevel .launch fun s =>
    let x := s.node (cmdNode w)
    if ownsNode s w then finish s 0 0
    else if x.inUse then finish s 1 0
    else finish (s.mapNode (cmdNode w) fun _ => { owner := some (cmdPasid w), graph := x.graph, last := x.last }) 0 0

/-! ### RESUME, REPLAN, DISPATCH -/

/-- May a trapped gang be resumed: it is held, and every record is a complete one of `BRK` or `TRAP` with LATE 0 (R287)? -/
def resumable (s : State) (gid : Nat) : Bool :=
  let g := s.gang gid
  let rs := gangRecords s gid
  decide (g.life = .started) && g.held && g.causes.contains .trap && !rs.isEmpty &&
    rs.all fun r => r.final && !r.late && (r.cause == 9 || r.cause == 10)

/-- The Lockkeeper has acted on a trap by RESUME: its records are done with, each tile with one stands at its NPC, and a later trap is a new one,
to be signalled again (R41, R282, R287). -/
def resumeTrapped (s : State) (gid : Nat) : State :=
  let s := (s.gang gid).tiles.foldl (fun s n => s.onTile n returnFromTrap) s
  let s := s.mapGang gid fun g => { g with signalled := false, firstTrap := none }
  (s.mapLk fun l => { l with trapWaits := l.trapWaits.filter fun g => g != gid }).clearHold gid .trap

/-- `LKCMD_RESUME` (R287). -/
def execLkcmdResume (w : BitVec 64) (s : State) : Out :=
  lkcmd 6 w s fun s => withId s w [1] .launch fun s =>
    if !ownsNode s w then finish s 3 0
    else
      match launchNamed s w with
      | none => finish s 1 0
      | some n =>
        let gid := (s.node n).gid
        if decide ((s.node n).life = .running) && resumable s gid then finish (resumeTrapped s gid) 0 0
        else finish s 1 0

/-- A new phase of a job: its placed gangs are counted; with none the phase is over at once (R42). A request made while a phase is
open merges into it (R43). -/
def replan (s : State) (p : Nat) : State :=
  let gs := placedGangs s p
  if (s.job p).phaseLeft ≠ 0 then s
  else if gs.isEmpty then s.mapJob p fun j => { j with phaseNum := j.phaseNum + 1 }
  else
    let s := gs.foldl (fun s g => s.mapGang g fun x => { x with counted := true }) s
    s.mapJob p fun j => { j with phaseLeft := gs.length }

/-- `LKCMD_REPLAN` (R42, R43). -/
def execLkcmdReplan (w : BitVec 64) (s : State) : Out :=
  lkcmd 7 w s fun s => withId s w [4] .job fun s => finish (replan s (cmdPasid w)) 0 0

/-- `LKCMD_DISPATCH` (R44). -/
def execLkcmdDispatch (w : BitVec 64) (s : State) : Out :=
  lkcmd 8 w s fun s => withId s w [4] .job fun s =>
    if (s.job (cmdPasid w)).stopped then finish (s.mapJob (cmdPasid w) fun j => { j with stopped := false }) 0 0
    else finish s 1 0

/-! ### GENADDR, GENRELEASE, GENRESTORE (R239) -/

/-- The closed generation that a command names, one that the job still knows. -/
def genNamed (s : State) (w : BitVec 64) : Option Gen :=
  let j := s.job (cmdPasid w)
  j.gens.find? fun g => g.num == cmdGen w && j.knows g

/-- The STATUS for a generation that is not closed: 1 for the live or pending one, 3 for one that the job does not have (R239, R279). -/
def openGen (s : State) (w : BitVec 64) : Nat := if cmdGen w = (s.job (cmdPasid w)).gen then 1 else 3

/-- `LKCMD_GENADDR`: a generation that is released, or that could not be recorded, has no record. -/
def execLkcmdGenaddr (w : BitVec 64) (s : State) : Out :=
  lkcmd 9 w s fun s => withId s w anyLevel .gen fun s =>
    match genNamed s w with
    | none => finish s 3 0
    | some g => if g.record = 0 || decide (g.state = .released) then finish s 3 0 else finish s 0 (g.record % 2 ^ 48)

/-- The frames that a generation alone keeps: those of its record, its lists and its images, and the frame copies that no other retained
generation of its job names (R230, R239). -/
def ownRuns (j : Job) (g : Gen) : List (Nat × Nat) :=
  let others := j.gens.filter fun x => x.retained && x.num != g.num
  g.runs ++ (g.copies.filter fun c => !(others.any fun x => x.copies.any fun d => d.2 == c.2)).map fun c => (c.2, 1)

/-- A generation is released: its frames go back to the MMP (R239). -/
def releaseGen (s : State) (p : Nat) (g : Gen) : State :=
  let rs := ownRuns (s.job p) g
  (s.mapMem fun m => rs.foldl (fun m r => m.giveBack r.1 r.2) m).mapJob p fun j => { j with
    gens := j.gens.map fun x => if x.num == g.num then { x with state := .released, runs := [], copies := [] } else x }

/-- `LKCMD_GENRELEASE`: a drained generation is released, unless a restore of it runs. -/
def execLkcmdGenrelease (w : BitVec 64) (s : State) : Out :=
  lkcmd 10 w s fun s => withId s w anyLevel .gen fun s =>
    match genNamed s w with
    | none => finish s (openGen s w) 0
    | some g =>
      if g.state = .drained && (s.job (cmdPasid w)).restoring != some g.num then finish (releaseGen s (cmdPasid w) g) 0 0
      else finish s 1 0

/-- `LKCMD_GENRESTORE`: the restore of a drained generation begins when the job has no gang placed; the command runs until it is
complete. -/
def execLkcmdGenrestore (w : BitVec 64) (s : State) : Out :=
  lkcmd 11 w s fun s => withId s w anyLevel .gen fun s =>
    match genNamed s w with
    | none => finish s (openGen s w) 0
    | some g =>
      if g.state = .drained && (placedGangs s (cmdPasid w)).isEmpty then
        (s.mapJob (cmdPasid w) fun j => { j with restoring := some g.num }).mapLk fun l => { l with cmdBusy := true, res := 0 }
      else finish s 1 0

end Sys2Proof.Machine
end

