-- ==== Sys2Proof/Machine/Matrix.lean ====
section
/-! DEFINITION. The M slot: latch loads, beats, chained beats, drains, stores of accumulator rows, and special registers
(R115 to R130, R383 to R392). -/

namespace Sys2Proof.Machine

/-! ### Latches -/

/-- `MPUSH` (R118, R389). -/
def execMpush (l : BitVec 2) (c v : BitVec 6) (p : BitVec 3) (s : State) : Out :=
  issueWord (.mpush l c v p) s fun s =>
    let x := readVector s v
    s.after 2 (.column l.toNat c.toNat x.1 x.2)

/-- The place in Table 5.1 of a 4-bit format code (Table 4.2): i8 follows f8e5. -/
def shapeOf (f : BitVec 4) : Nat := if f = 8 then 6 else f.toNat

/-- +1 or -1 in the format of a beat. -/
def unitElem (f : Nat) (neg : Bool) : Nat :=
  if 6 ≤ f then (if neg then 255 else 1) else (roundTo (fmtOf f) 0 neg 1 0).1

/-- Element (k, j) of a Hadamard latch of order `n` (R129). -/
def hadamardElem (f n k j : Nat) : Nat :=
  if k / n = j / n ∧ (k / n + 1) * n ≤ min (beatK f) (beatN f) then
    unitElem f (decide (popCount 8 ((k % n) &&& (j % n)) % 2 = 1))
  else 0

/-- The 64 columns of a Hadamard latch. -/
def hadamardColumns (f n : Nat) : List Row :=
  (List.range 64).map fun j =>
    BitVec.ofNat 768 (ofElems (beatWidth f) ((List.range (beatK f)).map fun k => hadamardElem f n k j))

/-- `MHAD` (R129, R388). -/
def execMhad (l o : BitVec 2) (f : BitVec 4) (p : BitVec 3) (s : State) : Out :=
  issueWord (.mhad l o f p) s fun s => s.after 66 (.hadamard l.toNat (hadamardColumns (shapeOf f) (16 * 2 ^ o.toNat)))

/-! ### Accumulator rows -/

/-- An accumulator row as an instruction reads it, with what the read meets (R295). -/
def loadAcc (s : State) (r : Nat) : (AccRow × Bool) × State := (accRow (meetAcc s r) r, meetAcc s r)

/-- `MSTA` (R127, R390). -/
def execMsta (w : BitVec 2) (o : BitVec 8) (a : BitVec 6) (k p : BitVec 3) (s : State) : Out :=
  issueWord (.msta w o a k p) s fun s =>
    let n := mstaWidth w * mstaCount s w k
    let s' := s.taintIf (readScalar s a).2
    if n = 0 then s'
    else
      let x := loadAcc s' (physRow s.core.ctl.awb o.toNat)
      (x.2.taintIf x.1.2).after 2 (.store (stageBase s a 0 (mstaWidth w)) (bytesOf n x.1.1.toNat) x.1.2)

/-- `MZERO` (R128, R392). -/
def execMzero (n : BitVec 2) (o : BitVec 8) (p : BitVec 3) (s : State) : Out :=
  issueWord (.mzero n o p) s fun s =>
    (List.range (2 ^ n.toNat)).foldl (fun t i => t.after 6 (.zeroRow (physRow s.core.ctl.awb (o.toNat + i)))) s

/-! ### Special registers -/

/-- `MFS` (R386). -/
def execMfs (n : BitVec 8) (d : BitVec 6) (p : BitVec 3) (s : State) : Out :=
  issueWord (.mfs n d p) s fun s => scalarResult s 4 d 2 (readSpecial s n.toNat, false)

/-- `MTS`: in force from the next bundle; a poisoned source taints the task (R74, R387). -/
def execMts (n : BitVec 8) (a : BitVec 6) (p : BitVec 3) (s : State) : Out :=
  issueWord (.mts n a p) s fun s =>
    let x := readScalar s a
    (s.taintIf x.2).after 1 (.special n.toNat x.1)

/-! ### Beats -/

/-- Capture a beat as it reads its operands at issue (R119, R120): `a` is the A row with its tag and the flags of its
conversion. -/
def captureBeat (s : State) (f : Nat) (l : BitVec 2) (w : BitVec 8) (k rm : BitVec 3) (fresh : BitVec 1) (a : Row × Bool)
    (fl : Flags) : Beat :=
  let cols := min (maskCols s k) (beatN f)
  let cs := (List.range cols).map fun j => latchColumn s l.toNat j
  { fmt := f, rm := rm, fresh := fresh == 1, row := physRow s.core.ctl.awb w.toNat, depth := min (maskDepth s k) (beatK f),
    cols := cols, a := a.1, latch := cs.map Prod.fst, poison := a.2 || cs.any Prod.snd, flags := fl }

/-- `MACC` of an input format: one beat, readable six cycles later (R119, R383). -/
def maccBeat (i : Instr) (s : State) (f : Nat) (l : BitVec 2) (w : BitVec 8) (v : BitVec 6) (k rm : BitVec 3)
    (fresh : BitVec 1) : Out :=
  issueWord i s fun s => s.after 6 (.beat (captureBeat s f l w k rm fresh (readVector s v) 0))

/-- Elements of a source row that a chained beat may read (R125). -/
def sourceCount (f : Nat) : Nat := if f = 0 then 32 else 64

/-- One element of a chained beat's A row (R125). DEDUCED (log entry 32): `signed` in the rule's `saturate(8, signed, x)` is the
signedness of the input format, as in R126, so an n8 element is clamped to 0 to 255. -/
def chainElem (f rm x : Nat) : Nat × Flags :=
  if f = 6 then (narrow true true 8 (toSigned 32 x), 0)
  else if f = 7 then (narrow true false 8 (toSigned 32 x), 0)
  else convertF (accFmt f) (fmtOf f) rm false x

/-- The A row of a chained beat with its flags: elements that enter a term, those with k < d in a beat with a column, are
converted; the rest do not matter and are zero (R125, R121). -/
def chainRow (f g rm depth cols : Nat) (x : AccRow) : Row × Flags :=
  let src := (elems (accWidth f) (sourceCount f) x.toNat).drop (g * beatK f)
  let xs := (src.take (if cols = 0 then 0 else depth)).map (chainElem f rm)
  (BitVec.ofNat 768 (ofElems (beatWidth f) (xs.map Prod.fst)), allFlags xs)

/-- `MACCA` of an input format (R125): the source row is read when an element of it enters a term. -/
def maccaBeat (i : Instr) (s : State) (f : Nat) (l : BitVec 2) (w : BitVec 8) (o : BitVec 4) (g : BitVec 2)
    (k rm : BitVec 3) (fresh : BitVec 1) : Out :=
  issueWord i s fun s =>
    let depth := min (maskDepth s k) (beatK f)
    let cols := min (maskCols s k) (beatN f)
    let r := physRow s.core.ctl.awb o.toNat
    let x := if depth = 0 ∨ cols = 0 then (accRow s r, s) else loadAcc s r
    let a := chainRow f g.toNat rm.toNat depth cols x.1.1
    x.2.after 6 (.beat (captureBeat s f l w k rm fresh (a.1, x.1.2) a.2))

/-- `MACC.f64`. -/
def execMaccF64 (l : BitVec 2) (w : BitVec 8) (v : BitVec 6) (k r : BitVec 3) (f : BitVec 1) (p : BitVec 3) (s : State) : Out :=
  maccBeat (.maccF64 l w v k r f p) s 0 l w v k r f

/-- `MACC.f32`. -/
def execMaccF32 (l : BitVec 2) (w : BitVec 8) (v : BitVec 6) (k r : BitVec 3) (f : BitVec 1) (p : BitVec 3) (s : State) : Out :=
  maccBeat (.maccF32 l w v k r f p) s 1 l w v k r f

/-- `MACC.f16`. -/
def execMaccF16 (l : BitVec 2) (w : BitVec 8) (v : BitVec 6) (k r : BitVec 3) (f : BitVec 1) (p : BitVec 3) (s : State) : Out :=
  maccBeat (.maccF16 l w v k r f p) s 2 l w v k r f

/-- `MACC.b16`. -/
def execMaccB16 (l : BitVec 2) (w : BitVec 8) (v : BitVec 6) (k r : BitVec 3) (f : BitVec 1) (p : BitVec 3) (s : State) : Out :=
  maccBeat (.maccB16 l w v k r f p) s 3 l w v k r f

/-- `MACC.f8e4`. -/
def execMaccF8e4 (l : BitVec 2) (w : BitVec 8) (v : BitVec 6) (k r : BitVec 3) (f : BitVec 1) (p : BitVec 3) (s : State) : Out :=
  maccBeat (.maccF8e4 l w v k r f p) s 4 l w v k r f

/-- `MACC.f8e5`. -/
def execMaccF8e5 (l : BitVec 2) (w : BitVec 8) (v : BitVec 6) (k r : BitVec 3) (f : BitVec 1) (p : BitVec 3) (s : State) : Out :=
  maccBeat (.maccF8e5 l w v k r f p) s 5 l w v k r f

/-- `MACC.i8`. -/
def execMaccI8 (l : BitVec 2) (w : BitVec 8) (v : BitVec 6) (k : BitVec 3) (f : BitVec 1) (p : BitVec 3) (s : State) : Out :=
  maccBeat (.maccI8 l w v k f p) s 6 l w v k 0 f

/-- `MACC.n8`. -/
def execMaccN8 (l : BitVec 2) (w : BitVec 8) (v : BitVec 6) (k : BitVec 3) (f : BitVec 1) (p : BitVec 3) (s : State) : Out :=
  maccBeat (.maccN8 l w v k f p) s 7 l w v k 0 f

/-- `MACCA.f64`. -/
def execMaccaF64 (l : BitVec 2) (w : BitVec 8) (o : BitVec 4) (g : BitVec 2) (k r : BitVec 3) (f : BitVec 1) (p : BitVec 3)
    (s : State) : Out :=
  maccaBeat (.maccaF64 l w o g k r f p) s 0 l w o g k r f

/-- `MACCA.f32`. -/
def execMaccaF32 (l : BitVec 2) (w : BitVec 8) (o : BitVec 4) (g : BitVec 2) (k r : BitVec 3) (f : BitVec 1) (p : BitVec 3)
    (s : State) : Out :=
  maccaBeat (.maccaF32 l w o g k r f p) s 1 l w o g k r f

/-- `MACCA.f16`. -/
def execMaccaF16 (l : BitVec 2) (w : BitVec 8) (o : BitVec 4) (g : BitVec 2) (k r : BitVec 3) (f : BitVec 1) (p : BitVec 3)
    (s : State) : Out :=
  maccaBeat (.maccaF16 l w o g k r f p) s 2 l w o g k r f

/-- `MACCA.b16`. -/
def execMaccaB16 (l : BitVec 2) (w : BitVec 8) (o : BitVec 4) (g : BitVec 2) (k r : BitVec 3) (f : BitVec 1) (p : BitVec 3)
    (s : State) : Out :=
  maccaBeat (.maccaB16 l w o g k r f p) s 3 l w o g k r f

/-- `MACCA.f8e4`. -/
def execMaccaF8e4 (l : BitVec 2) (w : BitVec 8) (o : BitVec 4) (g : BitVec 2) (k r : BitVec 3) (f : BitVec 1) (p : BitVec 3)
    (s : State) : Out :=
  maccaBeat (.maccaF8e4 l w o g k r f p) s 4 l w o g k r f

/-- `MACCA.f8e5`. -/
def execMaccaF8e5 (l : BitVec 2) (w : BitVec 8) (o : BitVec 4) (g : BitVec 2) (k r : BitVec 3) (f : BitVec 1) (p : BitVec 3)
    (s : State) : Out :=
  maccaBeat (.maccaF8e5 l w o g k r f p) s 5 l w o g k r f

/-- `MACCA.i8`. -/
def execMaccaI8 (l : BitVec 2) (w : BitVec 8) (o : BitVec 4) (g : BitVec 2) (k : BitVec 3) (f : BitVec 1) (p : BitVec 3)
    (s : State) : Out :=
  maccaBeat (.maccaI8 l w o g k f p) s 6 l w o g k 0 f

/-- `MACCA.n8`. -/
def execMaccaN8 (l : BitVec 2) (w : BitVec 8) (o : BitVec 4) (g : BitVec 2) (k : BitVec 3) (f : BitVec 1) (p : BitVec 3)
    (s : State) : Out :=
  maccaBeat (.maccaN8 l w o g k f p) s 7 l w o g k 0 f

/-! ### Drains (R126, R385) -/

/-- The exponent of a scale code (R126). -/
def drainScale (c : BitVec 2) : Int := if c = 0 then 0 else if c = 1 then -2 else -3

/-- A drain of group `g`: `w` and `n` are the width and number of the accumulator elements, `wd` the destination's width, and
`f` converts one element. Elements past the row are zero. -/
def drainRow (w n wd g : Nat) (f : Nat → Nat × Flags) (x : AccRow) : Row × Flags :=
  let xs := (((elems w n x.toNat).drop (g * (96 / wd))).take (96 / wd)).map f
  (BitVec.ofNat 768 (ofElems wd (xs.map Prod.fst)), allFlags xs)

/-- `MDRAIN` of a row (R126). -/
def drain (i : Instr) (s : State) (w : BitVec 8) (d : BitVec 6) (f : AccRow → Row × Flags) : Out :=
  issueWord i s fun s =>
    let x := loadAcc s (physRow s.core.ctl.awb w.toNat)
    let r := f x.1.1
    flagResult (vectorResult x.2 4 d 5 (r.1, x.1.2)) 5 r.2

/-- A floating-point drain from the accumulator format `src` to `dst`. -/
def drainFloat (src dst : Nat) (c : BitVec 2) (g r : BitVec 3) (sat : BitVec 1) : AccRow → Row × Flags :=
  drainRow (fmtOf src).bytes (256 / (fmtOf src).bytes) (fmtOf dst).bytes g.toNat
    (convertScaled (fmtOf src) (fmtOf dst) r.toNat (sat == 1) (drainScale c))

/-- An integer drain to signed elements of `n` bits. -/
def drainInt (n : Nat) (g : BitVec 3) (sat : BitVec 1) : AccRow → Row × Flags :=
  drainRow 4 64 (n / 8) g.toNat fun x => (narrow (sat == 1) true n (toSigned 32 x), 0)

/-- `MDRAIN.f32.f32`. -/
def execMdrainF32F32 (c : BitVec 2) (w : BitVec 8) (d : BitVec 6) (g r : BitVec 3) (f : BitVec 1) (p : BitVec 3) (s : State) : Out :=
  drain (.mdrainF32F32 c w d g r f p) s w d (drainFloat 1 1 c g r f)

/-- `MDRAIN.f32.f16`. -/
def execMdrainF32F16 (c : BitVec 2) (w : BitVec 8) (d : BitVec 6) (g r : BitVec 3) (f : BitVec 1) (p : BitVec 3) (s : State) : Out :=
  drain (.mdrainF32F16 c w d g r f p) s w d (drainFloat 1 2 c g r f)

/-- `MDRAIN.f32.b16`. -/
def execMdrainF32B16 (c : BitVec 2) (w : BitVec 8) (d : BitVec 6) (g r : BitVec 3) (f : BitVec 1) (p : BitVec 3) (s : State) : Out :=
  drain (.mdrainF32B16 c w d g r f p) s w d (drainFloat 1 3 c g r f)

/-- `MDRAIN.f32.f8e4`. -/
def execMdrainF32F8e4 (c : BitVec 2) (w : BitVec 8) (d : BitVec 6) (g r : BitVec 3) (f : BitVec 1) (p : BitVec 3) (s : State) : Out :=
  drain (.mdrainF32F8e4 c w d g r f p) s w d (drainFloat 1 4 c g r f)

/-- `MDRAIN.f32.f8e5`. -/
def execMdrainF32F8e5 (c : BitVec 2) (w : BitVec 8) (d : BitVec 6) (g r : BitVec 3) (f : BitVec 1) (p : BitVec 3) (s : State) : Out :=
  drain (.mdrainF32F8e5 c w d g r f p) s w d (drainFloat 1 5 c g r f)

/-- `MDRAIN.f64.f64`. -/
def execMdrainF64F64 (c : BitVec 2) (w : BitVec 8) (d : BitVec 6) (g r : BitVec 3) (f : BitVec 1) (p : BitVec 3) (s : State) : Out :=
  drain (.mdrainF64F64 c w d g r f p) s w d (drainFloat 0 0 c g r f)

/-- `MDRAIN.f64.f32`. -/
def execMdrainF64F32 (c : BitVec 2) (w : BitVec 8) (d : BitVec 6) (g r : BitVec 3) (f : BitVec 1) (p : BitVec 3) (s : State) : Out :=
  drain (.mdrainF64F32 c w d g r f p) s w d (drainFloat 0 1 c g r f)

/-- `MDRAIN.i32.i32`. -/
def execMdrainI32I32 (w : BitVec 8) (d : BitVec 6) (g : BitVec 3) (f : BitVec 1) (p : BitVec 3) (s : State) : Out :=
  drain (.mdrainI32I32 w d g f p) s w d (drainInt 32 g f)

/-- `MDRAIN.i32.i16`. -/
def execMdrainI32I16 (w : BitVec 8) (d : BitVec 6) (g : BitVec 3) (f : BitVec 1) (p : BitVec 3) (s : State) : Out :=
  drain (.mdrainI32I16 w d g f p) s w d (drainInt 16 g f)

/-- `MDRAIN.i32.i8`. -/
def execMdrainI32I8 (w : BitVec 8) (d : BitVec 6) (g : BitVec 3) (f : BitVec 1) (p : BitVec 3) (s : State) : Out :=
  drain (.mdrainI32I8 w d g f p) s w d (drainInt 8 g f)

end Sys2Proof.Machine
end

