-- ==== Sys2Proof/Machine/Shake.lean ====
section
/-! DEFINITION. SHAKE256 of FIPS 202, to which the marker copies and the signatures of the boot flash are bound (R302, R303). PRESUMED
(log entry 36). The state is one word of 1,600 bits: plane y is its y-th run of 320 bits, and lane (x, y) the x-th run of 64 bits of
that plane. -/

namespace Sys2Proof.Machine

/-- A plane of the state: five lanes. -/
abbrev Plane := BitVec 320

/-- The state of the permutation. -/
abbrev Sponge := BitVec (320 * 5)

/-- Plane `y`. -/
def planeOf (a : Sponge) (y : Nat) : Plane := a.extractLsb' (320 * y) 320

/-- Every lane of a plane rotated by one place. -/
def turnLanes (p : Plane) : Plane :=
  let low : Plane := (1#64).replicate 5
  (p <<< 1) &&& ~~~low ||| (p >>> 63) &&& low

/-- Theta adds to every plane the column parities of the lane before, and those of the lane after turned by one. -/
def mixColumns (a : Sponge) : Sponge :=
  let p := (List.range 5).foldl (fun q y => q ^^^ planeOf a y) 0
  a ^^^ (p.rotateLeft 64 ^^^ turnLanes (p.rotateRight 64)).replicate 5

/-- Rho and pi on one walk through the lanes: from step `t` of `n` left, lane (x, y) turns by the t-th triangular number and moves to
(y, 2x + 3y), where the walk goes on. -/
def walkLanes (a : Sponge) : Nat → Nat → Nat → Nat → Sponge → Sponge
  | 0, _, _, _, out => out
  | n + 1, t, x, y, out =>
    let lane := (a.extractLsb' (64 * (x + 5 * y)) 64).rotateLeft (t * (t + 1) / 2)
    let y' := (2 * x + 3 * y) % 5
    walkLanes a n (t + 1) y y' (out ||| lane.setWidth (320 * 5) <<< (64 * (y + 5 * y')))

/-- Lane (0, 0) stands still; the other twenty-four are one cycle of the walk from (1, 0). -/
def moveLanes (a : Sponge) : Sponge := walkLanes a 24 1 1 0 (a &&& BitVec.ofNat _ (2 ^ 64 - 1))

/-- Chi of a plane. -/
def bendPlane (p : Plane) : Plane := p ^^^ (~~~p.rotateRight 64 &&& p.rotateRight 128)

/-- Chi: each plane by itself. -/
def bendRows (a : Sponge) : Sponge :=
  (List.range 5).foldr (fun y out => (out <<< 320) ||| (bendPlane (planeOf a y)).setWidth (320 * 5)) 0

/-- The next state of the shift register of iota, whose polynomial is x⁸ + x⁶ + x⁵ + x⁴ + 1. -/
def nextTap (r : Nat) : Nat := if r < 128 then 2 * r else (2 * r) ^^^ 0x171

/-- Iota: the register's next seven outputs go to the bits 2ʲ - 1 of lane (0, 0). The state, and the register after it. -/
def markRound (a : Sponge) (r : Nat) : Sponge × Nat :=
  (List.range 7).foldl (fun z j => (z.1 ^^^ BitVec.ofNat _ (z.2 % 2 * 2 ^ (2 ^ j - 1)), nextTap z.2)) (a, r)

/-- `n` rounds of the permutation. -/
def sponge : Nat → Sponge × Nat → Sponge
  | 0, z => z.1
  | n + 1, z => sponge n (markRound (bendRows (moveLanes (mixColumns z.1))) z.2)

/-- The bytes of a block at SHAKE256's rate. -/
def shakeRate : Nat := 136

/-- The message bits 1111 of SHAKE and the padding 10*1 that end a message whose last block lacks `k` bytes. -/
def shakeTail (k : Nat) : List Byte := bytesOf k (0x1F + 2 ^ (8 * k - 1))

/-- The state after `n` further blocks of a message. -/
def soak : Nat → List Byte → Sponge → Sponge
  | 0, _, a => a
  | n + 1, m, a => soak n (m.drop shakeRate) (sponge 24 (a ^^^ BitVec.ofNat _ (ofBytes (m.take shakeRate)), 1))

/-- SHAKE256 with 256 bits of output. -/
def shake256 (m : List Byte) : List Byte :=
  bytesOf 32 (soak (m.length / shakeRate + 1) (m ++ shakeTail (shakeRate - m.length % shakeRate)) 0).toNat

end Sys2Proof.Machine
end

