-- ==== Sys2Proof/Machine/Xmss.lean ====
section
/-! DEFINITION. Verification of an XMSS-SHAKE256_20_256 signature, as RFC 8391 and NIST SP 800-208 state it (R302, R303). PRESUMED (log
entry 36). -/

namespace Sys2Proof.Machine

/-! ### Bytes -/

/-- A number as `n` bytes, the most significant first. -/
def bigEndian (n x : Nat) : List Byte := (bytesOf n x).reverse

/-- The number of a list of bytes, the most significant first. -/
def fromBigEndian (bs : List Byte) : Nat := ofBytes bs.reverse

/-- Exclusive or of two lists of bytes. -/
def xorBytes (a b : List Byte) : List Byte := List.zipWith (fun x y => x ^^^ y) a b

/-- The `i`-th run of 32 bytes of a list. -/
def nodeAt (bs : List Byte) (i : Nat) : List Byte := (bs.drop (32 * i)).take 32

/-! ### Addresses and keyed functions -/

/-- A hash address: its type and its four last words. Layer and tree are 0 in a single tree. -/
structure HashAddress where
  kind : Nat
  a : Nat
  b : Nat
  c : Nat
  mask : Nat := 0
  deriving DecidableEq, Repr

/-- The 32 bytes of an address. -/
def addressBytes (x : HashAddress) : List Byte :=
  bigEndian 12 0 ++ bigEndian 4 x.kind ++ bigEndian 4 x.a ++ bigEndian 4 x.b ++ bigEndian 4 x.c ++ bigEndian 4 x.mask

/-- A hash with its purpose and key in front: 0 chain, 1 tree, 2 message, 3 pseudo-random. -/
def keyedHash (purpose : Nat) (key m : List Byte) : List Byte := shake256 (bigEndian 32 purpose ++ key ++ m)

/-- The pseudo-random value of an address with a key and mask number. -/
def prf (seed : List Byte) (x : HashAddress) (mask : Nat) : List Byte := keyedHash 3 seed (addressBytes { x with mask := mask })

/-- The hash of two nodes, each masked. -/
def hashNodes (seed : List Byte) (x : HashAddress) (l r : List Byte) : List Byte :=
  keyedHash 1 (prf seed x 0) (xorBytes l (prf seed x 1) ++ xorBytes r (prf seed x 2))

/-! ### The one-time signature -/

/-- `steps` links of chain `i` of one-time key `idx`, from link `start` on. -/
def chainLinks (seed : List Byte) (idx i : Nat) : Nat → Nat → List Byte → List Byte
  | 0, _, x => x
  | steps + 1, start, x =>
    let a : HashAddress := { kind := 0, a := idx, b := i, c := start }
    chainLinks seed idx i steps (start + 1) (keyedHash 0 (prf seed a 0) (xorBytes x (prf seed a 1)))

/-- The 4-bit digits of a list of bytes. -/
def nibbles (bs : List Byte) : List Nat := bs.flatMap fun b => [b.toNat / 16, b.toNat % 16]

/-- The 67 digits that are signed: the message's and its checksum's. -/
def signedDigits (m : List Byte) : List Nat :=
  let ds := nibbles m
  ds ++ (nibbles (bigEndian 2 (16 * (ds.map fun d => 15 - d).sum))).take 3

/-- The one-time public key that a signature of a message leads to. -/
def oneTimeKey (seed : List Byte) (idx : Nat) (m sig : List Byte) : List (List Byte) :=
  (signedDigits m).zipIdx.map fun d => chainLinks seed idx d.2 (15 - d.1) d.1 (nodeAt sig d.2)

/-! ### Trees -/

/-- One level of the tree over a one-time key: neighbours are hashed, an odd last node moves up. -/
def pairUp (seed : List Byte) (idx height : Nat) : Nat → List (List Byte) → List (List Byte)
  | i, l :: r :: ns => hashNodes seed { kind := 1, a := idx, b := height, c := i } l r :: pairUp seed idx height (i + 1) ns
  | _, ns => ns

/-- `n` levels of that tree. -/
def compress (seed : List Byte) (idx : Nat) : Nat → Nat → List (List Byte) → List (List Byte)
  | 0, _, ns => ns
  | n + 1, height, ns => compress seed idx n (height + 1) (pairUp seed idx height 0 ns)

/-- The leaf of a one-time key of 67 values: seven levels. -/
def leafOf (seed : List Byte) (idx : Nat) (ks : List (List Byte)) : List Byte := (compress seed idx 7 0 ks).headD []

/-- Climb from a node by the levels of an authentication path. -/
def climb (seed : List Byte) (idx : Nat) : Nat → List (List Byte) → List Byte → List Byte
  | _, [], x => x
  | k, a :: as, x =>
    let p : HashAddress := { kind := 2, a := 0, b := k, c := idx / 2 ^ (k + 1) }
    climb seed idx (k + 1) as (if (idx / 2 ^ k) % 2 = 0 then hashNodes seed p x a else hashNodes seed p a x)

/-! ### Verification -/

/-- The root that a signature of a message leads to, under a public seed and the root of the key. -/
def rootFrom (root seed m sig : List Byte) : List Byte :=
  let idx := fromBigEndian (sig.take 4)
  let r := (sig.drop 4).take 32
  let h := keyedHash 2 (r ++ root ++ bigEndian 32 idx) m
  let ots := (sig.drop 36).take 2144
  let auth := (List.range 20).map (nodeAt (sig.drop 2180))
  climb seed idx 0 auth (leafOf seed idx (oneTimeKey seed idx h ots))

/-- Is `sig` a valid signature of `m` under the 68 bytes of a public key: the identifier of XMSS-SHAKE256_20_256, root and seed? -/
def signatureValid (key m sig : List Byte) : Bool :=
  decide (key.length = 68) && decide (sig.length = 2820) && key.take 4 == bigEndian 4 0x12 &&
    decide (fromBigEndian (sig.take 4) < 2 ^ 20) &&
    rootFrom ((key.drop 4).take 32) ((key.drop 36).take 32) m sig == (key.drop 4).take 32

end Sys2Proof.Machine
end

