-- ==== Sys2Proof/Machine/Platform.lean ====
section
/-! DEFINITION. The platform controller: reset and boot, firmware flash, temperature, throttling, droop, watchdogs, shares, the
registers of BAR0 without a row of their own, and what reads of the three BARs return (R6, R7, R256, R278, R295 to R311). -/

namespace Sys2Proof.Machine

/-! ### Boot (R302 to R306) -/

/-- Bytes `a` to `b - 1` of a marker. -/
def markerBytes (m : List Byte) (a b : Nat) : List Byte := (m.drop a).take (b - a)

/-- SEQ of a marker copy (Table 14.2). -/
def markerSeq (m : List Byte) : Nat := ofBytes (markerBytes m 0 8)

/-- SLOT of a marker copy: its byte 8. -/
def markerSlot (m : List Byte) : Nat := ofBytes (markerBytes m 8 9)

/-- Does a marker copy verify (R303)? A copy shorter than its layout does not. -/
def markerVerifies (p : Platform) (m : List Byte) : Bool :=
  decide (m.length = 2876) && (markerBytes m 9 16).all (fun b => b == 0) && decide (markerSlot m < 2) &&
    decide (p.minSeq ≤ markerSeq m) && signatureValid p.key (markerBytes m 0 56) (markerBytes m 56 2876)

/-- The slot that a marker copy names. -/
def slotNamed (p : Platform) (m : List Byte) : List Byte := if markerSlot m = 0 then p.slotA else p.slotB

/-- Does the slot of a marker copy verify for it (R303)? -/
def slotVerifies (p : Platform) (m : List Byte) : Bool :=
  let n := ofBytes (markerBytes m 16 24)
  decide (n ≤ (slotNamed p m).length) &&
    shake256 ((slotNamed p m).take n) == markerBytes m 24 56

/-- The verifying copies in decreasing SEQ order, copy 0 first when they are equal (R304). -/
def bootOrder (p : Platform) : List (List Byte) :=
  (if markerSeq p.marker0 < markerSeq p.marker1 then [p.marker1, p.marker0] else [p.marker0, p.marker1]).filter (markerVerifies p)

/-- The marker copy that boots (R304). -/
def bootChoice (p : Platform) : Option (List Byte) := (bootOrder p).find? (slotVerifies p)

/-- VOK of BOOTST: the copies and the slots that verify (Table 14.3). -/
def bootVok (p : Platform) : Nat :=
  let slot (k : Nat) : Bool := (bootOrder p).any fun m => markerSlot m == k && slotVerifies p m
  (markerVerifies p p.marker0).toNat + 2 * (markerVerifies p p.marker1).toNat + 4 * (slot 0).toNat + 8 * (slot 1).toNat

/-- Did a marker copy or a slot fail (PLERR bit 3)? The slot of every copy that verifies is verified, one that no boot reaches too: DESIGN CHOICE
(log entry 67). -/
def bootFailed (p : Platform) : Bool :=
  !markerVerifies p p.marker0 || !markerVerifies p p.marker1 || (bootOrder p).any fun m => !slotVerifies p m

/-! ### Refresh grades (R147, R309) -/

/-- The band of a temperature (Table 6.7). -/
def gradeBand (t : Nat) : Nat := if t ≤ 85 then 0 else if t ≤ 95 then 1 else 2

/-- The upper limit of a band below the highest. -/
def bandLimit (g : Nat) : Nat := if g = 0 then 85 else 95

/-- Grade and count of cool samples after one sample: up at once, down by one band after 16 cool ones. -/
def gradeStep (g cool t : Nat) : Nat × Nat :=
  if g < gradeBand t then (gradeBand t, 0)
  else if 0 < g && t + 2 ≤ bandLimit (g - 1) then (if 16 ≤ cool + 1 then (g - 1, 0) else (g, cool + 1))
  else (g, 0)

/-! ### Device reset (R300, R301) -/

/-- The platform controller as a reset begins: phase 1, THERM 0. Flash, fuses, the sensors and the supply stand, and time goes on (R300,
R307, R308, Table 14.3). -/
def resetPlatform (p : Platform) : Platform :=
  { slotA := p.slotA, slotB := p.slotB, marker0 := p.marker0, marker1 := p.marker1, key := p.key, minSeq := p.minSeq,
    sensors := p.sensors, droops := p.droops, halves := p.halves }

/-- A device reset begins at step 1: no task, gang, generation or queue mapping survives (R300, R301). What lies outside the device
stands: host and peer memory, its address and links' other ends, flash, fuses, the clock, and the model's own agenda and free values. -/
def resetDevice (s : State) : State :=
  { State.reset with
    clock := s.clock, agenda := s.agenda, fresh := s.fresh, fabric := { addr := s.fabric.addr },
    mem := { host := s.mem.host, peers := s.mem.peers, capacity := s.mem.capacity, nextFrame := Config.firstMmpFrame s.mem.capacity },
    platform := resetPlatform s.platform }

/-- Step 1: the boot ROM reads both marker copies and chooses a slot, or enters recovery (R304, R306). -/
def chooseSlot (p : Platform) : Platform :=
  let q := { p with vok := BitVec.ofNat 4 (bootVok p), plerr := if bootFailed p then 8 else 0 }
  match bootChoice p with
  | some m => { q with phase := 2, bootSeq := BitVec.ofNat 32 (markerSeq m), bootSlot := markerSlot m }
  | none => { q with phase := 7 }

/-- Reload every RDUE of a tile above the interval (R146). -/
def reloadDue (interval : Nat) (s : State) : State :=
  forEach s (fun s n => let b := bankOf s n
    if s.clock + interval < b.due then setBank s n { b with due := s.clock + interval } else s) (List.range 64)

/-- The hottest sensor of a quadrant. -/
def hottestOf (degrees : List Nat) (q : Nat) : Nat :=
  degrees.zipIdx.foldl (fun m d => if quadrantOf d.2 = q then max m d.1 else m) 0

/-- Bring RDUE of a tile without a task to the present, then below the new interval (R144, R146). -/
def rollDue (old new : Nat) (s : State) : State :=
  forEach s (fun s n => let b := bankOf s n
    setBank s n { b with due := min (nextDue s.clock old b.due) (s.clock + new) }) (List.range 64)

/-- RDUE of every bank of a tile after a change of grade (R146). -/
def regrade (old new : Nat) (s : State) : State :=
  if s.core.ctl.status = .idle then rollDue old new s else reloadDue new s

/-- Carry out a step of the reset sequence that concerns the platform controller alone (Table 14.1): the choice of a slot, the loading of
firmware, the training of the PCIe link and the start of the Lockkeeper and the MMP. -/
def bootPhase (p : Platform) : Platform :=
  if p.phase = 1 then chooseSlot p
  else if p.phase = 2 then { p with phase := 3 }
  else if p.phase = 4 then { p with phase := 5 }
  else p

/-- Is a temperature above the limit of R20? -/
def overheated (t : Nat) : Bool := decide (105 < t)

/-- A quadrant's grade, and with a change RDUE of every bank of its tiles (R146, R147). -/
def setGrade (s : State) (q g : Nat) : State :=
  let old := s.grade q
  let s := s.mapPlatform fun p => { p with grades := tset 0 p.grades q g }
  if g = old then s
  else
    (List.range Config.tiles).foldl (fun s n =>
      if quadrantOf n = q then s.onTile n (regrade (Config.refreshInterval old) (Config.refreshInterval g)) else s) s

/-- Step 3: every quadrant's grade from what its sensors measure (R147, R309), which the throttle sees too (R310). They are read again
every 2^16 cycles from now on. -/
def trainVaults (s : State) : State :=
  let ds := s.platform.sensors
  let s := (List.range 4).foldl (fun s q => (setGrade s q (gradeBand (hottestOf ds q))).mapPlatform fun p => { p with
    hottest := tset 0 p.hottest q (hottestOf ds q) }) s
  s.mapPlatform fun p => { p with phase := 4, hotThrottle := ds.any overheated, sampleAt := s.clock + 65536 }

/-- Does the reset sequence run? -/
def booting (s : State) : Bool := decide (1 ≤ s.platform.phase) && decide (s.platform.phase ≤ 4)

/-- One step of the reset sequence: the one that PHASE records (R300). -/
def bootStep (s : State) : State := if s.platform.phase = 3 then trainVaults s else s.mapPlatform bootPhase

/-- `DEVICE_RESET`: power-on and the resets of PCIe start the sequence at step 1, at whatever step it stands (R300, R301). -/
def execDeviceReset (s : State) : Out := .next (resetDevice s)

/-- `PLCMD_DEVICE_RESET`: value 1 resets, other values are ignored (Table 14.3). -/
def execPlcmdDeviceReset (value : BitVec 64) (s : State) : Out :=
  .next (if linkUp s && decide (value.toNat % 256 = 1) then resetDevice s else s)

/-! ### Firmware (R302, R305) -/

/-- `FIRMWARE_SLOT_WRITE`: a slot or a marker copy of the boot flash holds the bytes written. -/
def execFirmwareSlotWrite (t : FlashPart) (bs : List Byte) (s : State) : Out :=
  .next <| s.mapPlatform fun p =>
    match t with
    | .slotA => { p with slotA := bs }
    | .slotB => { p with slotB := bs }
    | .marker0 => { p with marker0 := bs }
    | .marker1 => { p with marker1 := bs }

/-! ### BAR0 registers (R256, Tables 12.9 and 14.3) -/

/-- The part of a written value that bits `hi` to `lo` hold. -/
def fieldOf (v : BitVec 64) (hi lo : Nat) : Nat := place (bits v.toNat hi lo) lo

/-- A write to a register by its offset: RW fields are set, W1C bits are cleared, everything else is discarded. The Lockkeeper's
registers answer once the device has booted (R306). -/
def writeRegister (s : State) (offset : Nat) (v : BitVec 64) : State :=
  let lk := booted s
  if offset = 0x1000 && lk then s.mapLk fun l => { l with qtroot := fieldOf v 47 24 }
  else if offset = 0x1018 && lk then s.mapLk fun l => { l with err := l.err &&& ~~~(v.truncate 4) }
  else if offset = 0x1020 && lk then s.mapLk fun l => { l with rwbase := fieldOf v 47 30 }
  else if offset = 0x1038 && lk then s.mapLk fun l => { l with dbroot := fieldOf v 47 15 }
  else if offset = 0x2020 then s.mapPlatform fun p => { p with plerr := p.plerr &&& ~~~(v.truncate 4) }
  else s

/-- `REGISTER_WRITE`: an access that is not an aligned 8-byte one is discarded (R256). -/
def execRegisterWrite (offset size : Nat) (v : BitVec 64) (s : State) : Out :=
  .next (if linkUp s && size = 8 && offset % 8 = 0 then writeRegister s offset v else s)

/-- BOOTST (Table 14.3). -/
def bootStatus (p : Platform) : Nat := place p.bootSeq.toNat 32 + place p.vok.toNat 8 + place p.bootSlot 4 + p.phase

/-- A quadrant's part of THERM: hottest sensor, throttling, RGD. DEDUCED (log entry 36): a quadrant throttles while its hottest sensor
is above the limit. -/
def thermOf (p : Platform) (q : Nat) : Nat :=
  let t := tget 0 p.hottest q
  place (t % 256) 8 + place (overheated t).toNat 2 + tget 0 p.grades q % 4

/-- THERM. -/
def thermWord (p : Platform) : Nat := ((List.range 4).map fun q => place (thermOf p q) (16 * q)).sum

/-- The power register. -/
def powerWord (p : Platform) : Nat := place p.powerThrottle.toNat 32 + place (p.pkgW % 65536) 16 + p.modW % 65536

/-- What a register of BAR0 reads as (Tables 12.9, 13.4, 14.3): reserved bits, write-only registers and unassigned offsets read zero
(R6, R7, R256). -/
def registerValue (s : State) (offset : Nat) : Nat :=
  let l := s.lk
  let p := s.platform
  if offset = 0x1000 then l.qtroot
  else if offset = 0x1010 then l.res.toNat
  else if offset = 0x1018 then l.err.toNat
  else if offset = 0x1020 then l.rwbase
  else if offset = 0x1030 then (trapqHead s).toNat
  else if offset = 0x1038 then l.dbroot
  else if offset = 0x2000 then bootStatus p
  else if offset = 0x2008 then thermWord p
  else if offset = 0x2010 then p.stretched.toNat
  else if offset = 0x2018 then powerWord p
  else if offset = 0x2020 then p.plerr.toNat
  else 0

/-- A read of BAR0: an access that is not an aligned 8-byte one returns zero (R256), as does one that no trained link answers. DESIGN
CHOICE (log entry 27). -/
def readBar0 (s : State) (offset size : Nat) : BitVec 64 :=
  if linkUp s && size = 8 && offset % 8 = 0 then BitVec.ofNat 64 (registerValue s offset) else 0

/-- A read of BAR2: bytes of queue SRAM, of any size and alignment (R256); none while the device does not answer. -/
def readBar2 (s : State) (a n : Nat) : List Byte :=
  if deviceUp s then readBytes s.mem.qsram a (min n (Config.queueSramBytes - a)) else []

/-- The bytes of the window of BAR4. -/
def windowBytes : Nat := 2 ^ 30

/-- A read of BAR4: bytes of the reservoir from RWBASE on, of any size and alignment, as the host sees them (R205, R220, R256); none while the
device does not answer, and none of frames that are not there (R2, log entry 28). -/
def readBar4 (s : State) (a n : Nat) : List Byte × State :=
  let b := s.lk.rwbase + a
  if deviceUp s then readRun s .host .reservoir b (min n (min (windowBytes - a) (s.mem.capacity * Config.frameBytes - b))) else ([], s)

/-! ### Temperature and throttling (R309, R310) -/

/-- Sample one quadrant: its grade, and with a change the RDUE of its tiles and a report to system software (R146, R147, R309). -/
def sampleQuadrant (degrees : List Nat) (s : State) (q : Nat) : State :=
  let t := hottestOf degrees q
  let g := s.grade q
  let r := gradeStep g (tget 0 s.platform.coolSamples q) t
  (setGrade s q r.1).mapPlatform fun p => { p with
    hottest := tset 0 p.hottest q t, coolSamples := tset 0 p.coolSamples q r.2,
    reports := if r.1 = g then p.reports else p.reports ++ [(q, r.1)] }

/-- Is a reading of the sensors due? -/
def sampleDue (s : State) : Bool := platformRuns s && decide (s.platform.sampleAt ≤ s.clock)

/-- The platform controller reads the sensors; the next reading falls due 2^16 cycles after this one did (R309). -/
def takeSample (s : State) : State :=
  let ds := s.platform.sensors
  ((List.range 4).foldl (sampleQuadrant ds) s).mapPlatform fun p => { p with
    hotThrottle := ds.any overheated, sampleAt := p.sampleAt + 65536 }

/-- `TEMPERATURE_SAMPLE`: what the vault sensors measure from now on, by tile number; they are read when a reading is due, which the clock
brings (R309). -/
def execTemperatureSample (degrees : List Nat) (s : State) : Out :=
  let s := s.mapPlatform fun p => { p with sensors := degrees }
  .next (if sampleDue s then takeSample s else s)

/-- `THROTTLE_STEP`: the power means of the last millisecond, and the share of 2-period cycles one sixteenth up or down (R310). PTHR is cleared with its
cause, while the share may still have to fall: DESIGN CHOICE (log entry 66). -/
def execThrottleStep (pkgW modW : Nat) (s : State) : Out :=
  watched s fun s => s.mapPlatform fun p =>
    let power := decide (1850 < pkgW) || decide (2000 < modW)
    { p with pkgW := pkgW % 65536, modW := modW % 65536, powerThrottle := power,
             throttle := if p.hotThrottle || power then min 16 (p.throttle + 1) else p.throttle - 1 }

/-- The sensors of a quadrant find its supply low, or recovered. -/
def noteSupply (s : State) (q : Nat) (low : Bool) : State := s.mapPlatform fun p => { p with droops := tset false p.droops q low }

/-- `SUPPLY_DROOP`: a quadrant's sensors find the supply low (R308). Which quadrant it is, is free: the event comes from outside. -/
def execSupplyDroop (s : State) : Out := .next (noteSupply s.takeFree.2 (s.takeFree.1 % 4) true)

/-- `SUPPLY_RECOVERY`: the supply of a quadrant, free as before, has recovered (R308). -/
def execSupplyRecovery (s : State) : Out := .next (noteSupply s.takeFree.2 (s.takeFree.1 % 4) false)

/-! ### Clocks (R307, R308, R310) -/

/-- How the package stretches clock cycle `c`: 0 not at all, 1 to 1.5 periods, 2 to 2 periods. Under a droop in any quadrant every
cycle is stretched, under throttling `throttle` of each 16 (R308, R310), and a stretch that another package of the lock group requests
is applied here too (R249). The longest stands. That the answer to a droop begins, and ends, with the very cycle on which it is noted, and which
`throttle` cycles of each 16 have 2 periods, is a DESIGN CHOICE (log entry 70). -/
def stretchOf (s : State) (c : Nat) : Nat :=
  let p := s.platform
  let own := if (c + 1) * p.throttle / 16 ≠ c * p.throttle / 16 then 2 else if p.droops.any (fun x => x.2) then 1 else 0
  max own (if s.fabric.stretchAt = c + 1 then s.fabric.stretchKind else 0)

/-- Half-periods that a cycle of a kind lasts. -/
def cycleHalves (k : Nat) : Nat := if k = 0 then 2 else if k = 1 then 3 else 4

/-! ### Watchdogs and memory errors (R295, R297) -/

/-- Every gang of the device is held. -/
def holdEvery (s : State) : State := s.gangs.foldl (fun s g => s.requestHold g.1 .stop) s

/-- Half-periods of the arithmetic clock that a watchdog of the Lockkeeper lasts: 2^24 cycles at half its rate (R297, R307). -/
def watchdogHalves : Nat := 4 * 2 ^ 24

/-- Does a watchdog expire: a thread has served no packet and no walk, an MMP core no miss, for 2^24 of its cycles (R297)? DEDUCED (log
entry 37): the watchdog of a thread or a core with nothing to serve stands still. -/
def mayExpire (s : State) : Sys2Proof.Watchdog → Bool
  | .thread n =>
    let t := threadOf s n
    controlRuns s && decide (n < 32) && hasWork t && decide (t.servedAt + watchdogHalves ≤ s.platform.halves)
  | .core k =>
    mmpRuns s && decide (k < 4) && coreBusy s k &&
      decide (Config.mmpCycles (tget 0 s.platform.coreServed k) + 2 ^ 24 ≤ Config.mmpCycles s.platform.halves)

/-- A watchdog that expires. -/
def watchdogDue (s : State) : Option Sys2Proof.Watchdog :=
  (((List.range 32).map Sys2Proof.Watchdog.thread) ++ (List.range 4).map Sys2Proof.Watchdog.core).find? (mayExpire s)

/-- The bit of PLERR that reports a watchdog. -/
def watchdogBit : Sys2Proof.Watchdog → BitVec 4
  | .thread _ => 1
  | .core _ => 2

/-- `WATCHDOG_EXPIRY`: PLERR, the control complex stops, every gang is held (R297). -/
def execWatchdogExpiry (who : Sys2Proof.Watchdog) (s : State) : Out :=
  .next <|
    if mayExpire s who then
      holdEvery (s.mapPlatform fun p => { p with plerr := p.plerr ||| watchdogBit who, lkStopped := true, mmpStopped := true })
    else s

/-- The processors of the control complex with a memory under SECDED (Table 13.7). -/
inductive Processor where
  | lockkeeper | mmp | platform
  deriving DecidableEq, Repr

/-- A processor by a free number. -/
def processorOf (n : Nat) : Processor := if n % 3 = 0 then .lockkeeper else if n % 3 = 1 then .mmp else .platform

/-- Does a processor run? -/
def processorRuns (s : State) : Processor → Bool
  | .lockkeeper => controlRuns s
  | .mmp => mmpRuns s
  | .platform => platformRuns s

/-- A processor stops. -/
def stopProcessor (p : Platform) : Processor → Platform
  | .lockkeeper => { p with lkStopped := true }
  | .mmp => { p with mmpStopped := true }
  | .platform => { p with pcStopped := true }

/-- An uncorrectable error in a processor's memory stops it, PLERR bit 2 (R295). -/
def failMemory (s : State) (who : Processor) : State :=
  if processorRuns s who then s.mapPlatform fun p => { stopProcessor p who with plerr := p.plerr ||| 4 } else s

/-- `CONTROL_MEMORY_ERROR`: the processor whose memory fails stops (R295). Which one it is, is free: the event comes from outside. -/
def execControlMemoryError (s : State) : Out := .next (failMemory s.takeFree.2 (processorOf s.takeFree.1))

/-! ### Shares (R298, R299) -/

/-- Units that bandwidth is shared at: the 16 reservoir controllers, four in each quadrant, then the 64 Sarpol ports (R13, R179, R251). -/
def shareUnits : Nat := 80

/-- The unit of the controller that a frame lives on (R179). -/
def controllerOf (f : Nat) : Nat := f % 16

/-- The unit of a Sarpol port. -/
def portUnit (p : Nat) : Nat := 16 + p

/-- May a unit be given shares: a controller, or a port that no crossing uses (R298)? -/
def sharable (s : State) (u : Nat) : Bool := decide (u < shareUnits) && !(decide (16 ≤ u) && portBonded s 8 (u - 16))

/-- Are shares within the limits: drain at least 8, system at least 2, at most 64 in all (R298)? -/
def legalShares (xs : List Nat) : Bool := decide (8 ≤ xs.getD 0 0) && decide (2 ≤ xs.getD 1 0) && decide (xs.sum ≤ 64)

/-- `SHARE_SETTING`: the drain share, the system share, then the others; a setting that breaks the limits is refused (R298). -/
def execShareSetting (u : Nat) (xs : List Nat) (s : State) : Out :=
  managed s fun s =>
    if sharable s u && legalShares xs then s.mapFabric fun f => { f with shares := tset [] f.shares u xs } else s

/-- `BUDGET_PERIOD`: a new period of 4,096 cycles begins (R299). Bytes are not counted (log entry 11). -/
def execBudgetPeriod (s : State) : Out :=
  .next (if booted s then s.mapFabric fun f => { f with period := f.period + 1 } else s)

end Sys2Proof.Machine
end

