-- ==== Sys2Proof/Machine/Rows.lean ====
section
/-! DEFINITION. The X slot's staging rows and canal words: `LDV`, `STV`, `SEND`, `RECV`, `CROUTE` (R244 to R247, R379, R399,
R412, R423). -/

namespace Sys2Proof.Machine

/-- `LDV` (R379). -/
def execLdv (d a : BitVec 6) (o : BitVec 11) (p : BitVec 3) (s : State) : Out :=
  issueWord (.ldv d a o p) s fun s =>
    let x := stageLoad (s.taintIf (readScalar s a).2) (stageBase s a (32 * o.toNat) 32) 96
    vectorResult x.2 6 d 4 (BitVec.ofNat 768 x.1.1, x.1.2)

/-- `STV`: visible two cycles later; storing poison taints the task (R423). -/
def execStv (v a : BitVec 6) (o : BitVec 11) (p : BitVec 3) (s : State) : Out :=
  issueWord (.stv v a o p) s fun s =>
    let x := readVector s v
    (s.taintIf (x.2 || (readScalar s a).2)).after 2
      (.store (stageBase s a (32 * o.toNat) 32) (bytesOf 96 x.1.toNat) x.2)

/-- `SEND`: the row enters the router on the next cycle by the local input; sending poison taints the task (R245, R412). -/
def execSend (r v : BitVec 6) (p : BitVec 3) (s : State) : Out :=
  issueWord (.send r v p) s fun s =>
    let x := readVector s v
    let f : Flight := { route := r.toNat, row := x.1, poison := x.2, corrected := false, mark := .good, tile := s.cur, input := 0,
                        enters := s.clock + 1, gid := s.core.task.gid }
    let s := s.taintIf x.2
    { s with flights := s.flights ++ [f] }

/-- `RECV`: the oldest row of the latch, readable on the next cycle; the latch is freed at issue (R246, R399). -/
def execRecv (d : BitVec 6) (l : BitVec 2) (p : BitVec 3) (s : State) : Out :=
  issueWord (.recv d l p) s fun s =>
    match heldRows s l.toNat with
    | [] => s
    | h :: _ => vectorResult (takeRow s l.toNat) 6 d 1 (h.row, h.poison)

/-- `CROUTE`: the 64 entries of the image at issue, in force from the next cycle; a poisoned line taints the task and leaves the
table as it stands (R244, R371). The image is read as any core read of staging is, a unit that no wait has ordered old or new (R213):
by the checks of its bundle, or here. -/
def execCroute (a : BitVec 6) (p : BitVec 3) (s : State) : Out :=
  issueWord (.croute a p) s fun s =>
    let us := routeUnits s a
    let t := if s.core.canal.image.isSome then s.mapCanal fun c => { c with image := none } else (readImage s a).2
    let t := (t.taintIf (readScalar s a).2).correctIf (us.any UnitValue.fixed)
    if us.any UnitValue.poison then t.raise .tainted
    else t.mapCanal fun c => { c with old := some (s.clock, c.routes), routes := tsetList 0 id 0 (us.map UnitValue.value) [] }

end Sys2Proof.Machine
end

