-- ==== Sys2Proof/Machine/Scalar.lean ====
section
/-! DEFINITION. The A slot: scalar arithmetic, compares, immediates and scalar staging access (R350 to R450). -/

namespace Sys2Proof.Machine

/-- A two-source operation: `f` of the values, poisoned when a source is (R347). -/
def aluBinary (i : Instr) (s : State) (d a b : BitVec 6) (lat : Nat) (f : Scalar → Scalar → Scalar) : Out :=
  issueWord i s fun s =>
    let x := readScalar s a
    let y := readScalar s b
    scalarResult s 1 d lat (f x.1 y.1, x.2 || y.2)

/-- A one-source operation. -/
def aluUnary (i : Instr) (s : State) (d a : BitVec 6) (f : Scalar → Scalar) : Out :=
  issueWord i s fun s =>
    let x := readScalar s a
    scalarResult s 1 d 1 (f x.1, x.2)

/-- `SHL` by all 64 bits of the amount (R414). -/
def shiftLeft (x y : Scalar) : Scalar := if 64 ≤ y.toNat then 0 else x <<< y.toNat

/-- `SHR` (R414). -/
def shiftRight (x y : Scalar) : Scalar := if 64 ≤ y.toNat then 0 else x >>> y.toNat

/-- `SRA` (R414). -/
def shiftArith (x y : Scalar) : Scalar := x.sshiftRight (min y.toNat 63)

/-- The high half of a signed product (R391). -/
def mulHigh (x y : Scalar) : Scalar := BitVec.ofInt 64 (x.toInt * y.toInt / 2 ^ 64)

/-- The high half of an unsigned product (R391). -/
def mulHighU (x y : Scalar) : Scalar := BitVec.ofNat 64 (x.toNat * y.toNat / 2 ^ 64)

/-- `MAX` (R384). -/
def maxScalar (signed : BitVec 1) (x y : Scalar) : Scalar :=
  if signed = 1 then (if x.toInt < y.toInt then y else x) else (if x.toNat < y.toNat then y else x)

/-- `MIN` (R384). -/
def minScalar (signed : BitVec 1) (x y : Scalar) : Scalar :=
  if signed = 1 then (if y.toInt < x.toInt then y else x) else (if y.toNat < x.toNat then y else x)

/-- A condition of Table 15.5. -/
def condition (c : BitVec 5) (x y : Scalar) : Bool :=
  if c = 0 then x == y
  else if c = 1 then x != y
  else if c = 2 then decide (x.toInt < y.toInt)
  else if c = 3 then decide (y.toInt ≤ x.toInt)
  else if c = 4 then decide (x.toNat < y.toNat)
  else decide (y.toNat ≤ x.toNat)

/-- `ADD` (R350). -/
def execAdd (d a b : BitVec 6) (p : BitVec 3) (s : State) : Out := aluBinary (.add d a b p) s d a b 1 fun x y => x + y

/-- `SUB` (R425). -/
def execSub (d a b : BitVec 6) (p : BitVec 3) (s : State) : Out := aluBinary (.sub d a b p) s d a b 1 fun x y => x - y

/-- `AND` (R350). -/
def execAnd (d a b : BitVec 6) (p : BitVec 3) (s : State) : Out := aluBinary (.andS d a b p) s d a b 1 fun x y => x &&& y

/-- `OR` (R394). -/
def execOr (d a b : BitVec 6) (p : BitVec 3) (s : State) : Out := aluBinary (.orS d a b p) s d a b 1 fun x y => x ||| y

/-- `XOR` (R450). -/
def execXor (d a b : BitVec 6) (p : BitVec 3) (s : State) : Out := aluBinary (.xorS d a b p) s d a b 1 fun x y => x ^^^ y

/-- `SHL` (R414). -/
def execShl (d a b : BitVec 6) (p : BitVec 3) (s : State) : Out := aluBinary (.shl d a b p) s d a b 1 shiftLeft

/-- `SHR` (R414). -/
def execShr (d a b : BitVec 6) (p : BitVec 3) (s : State) : Out := aluBinary (.shr d a b p) s d a b 1 shiftRight

/-- `SRA` (R414). -/
def execSra (d a b : BitVec 6) (p : BitVec 3) (s : State) : Out := aluBinary (.sra d a b p) s d a b 1 shiftArith

/-- `MUL` (R391). -/
def execMul (d a b : BitVec 6) (p : BitVec 3) (s : State) : Out := aluBinary (.mul d a b p) s d a b 3 fun x y => x * y

/-- `MULH` (R391). -/
def execMulh (d a b : BitVec 6) (p : BitVec 3) (s : State) : Out := aluBinary (.mulh d a b p) s d a b 3 mulHigh

/-- `MULHU` (R391). -/
def execMulhu (d a b : BitVec 6) (p : BitVec 3) (s : State) : Out := aluBinary (.mulhu d a b p) s d a b 3 mulHighU

/-- `MAX` (R384). -/
def execMax (d a b : BitVec 6) (f : BitVec 1) (p : BitVec 3) (s : State) : Out :=
  aluBinary (.maxS d a b f p) s d a b 1 (maxScalar f)

/-- `MIN` (R384). -/
def execMin (d a b : BitVec 6) (f : BitVec 1) (p : BitVec 3) (s : State) : Out :=
  aluBinary (.minS d a b f p) s d a b 1 (minScalar f)

/-- `CLZ` (R369). -/
def execClz (d a : BitVec 6) (p : BitVec 3) (s : State) : Out :=
  aluUnary (.clz d a p) s d a fun x => BitVec.ofNat 64 (leadingZeros 64 x.toNat)

/-- `FFS` (R374). -/
def execFfs (d a : BitVec 6) (p : BitVec 3) (s : State) : Out :=
  aluUnary (.ffs d a p) s d a fun x => BitVec.ofNat 64 (firstSet 64 x.toNat)

/-- `POPC` (R396). -/
def execPopc (d a : BitVec 6) (p : BitVec 3) (s : State) : Out :=
  aluUnary (.popc d a p) s d a fun x => BitVec.ofNat 64 (popCount 64 x.toNat)

/-- `SEL`: the value and the tag of the selected source (R411). -/
def execSel (d a b : BitVec 6) (t p : BitVec 3) (s : State) : Out :=
  issueWord (.sel d a b t p) s fun s => scalarResult s 1 d 1 (if readPred s t then readScalar s a else readScalar s b)

/-- `CMP`: a poisoned operand taints the task (R370). -/
def execCmp (d : BitVec 3) (a b : BitVec 6) (c : BitVec 5) (p : BitVec 3) (s : State) : Out :=
  issueWord (.cmp d a b c p) s fun s =>
    let x := readScalar s a
    let y := readScalar s b
    predResult (s.taintIf (x.2 || y.2)) d (condition c x.1 y.1)

/-- `ADDI` (R351). -/
def execAddi (d a : BitVec 6) (i : BitVec 11) (p : BitVec 3) (s : State) : Out :=
  aluUnary (.addi d a i p) s d a fun x => x + i.signExtend 64

/-- `LI` (R380). -/
def execLi (d : BitVec 6) (i : BitVec 17) (p : BitVec 3) (s : State) : Out :=
  issueWord (.li d i p) s fun s => scalarResult s 1 d 1 (i.signExtend 64, false)

/-- `LIH` (R380). -/
def execLih (d : BitVec 6) (i : BitVec 17) (p : BitVec 3) (s : State) : Out :=
  issueWord (.lih d i p) s fun s =>
    let x := readScalar s d
    scalarResult s 1 d 1 (x.1 * 2 ^ 17 + i.zeroExtend 64, x.2)

/-- `LDS`: the 8 bytes at the address, poisoned with the line; a poisoned base taints the task (R378). -/
def execLds (d a : BitVec 6) (i : BitVec 11) (p : BitVec 3) (s : State) : Out :=
  issueWord (.lds d a i p) s fun s =>
    let x := stageLoad (s.taintIf (readScalar s a).2) (stageBase s a (8 * i.toNat) 8) 8
    scalarResult x.2 1 d 3 (BitVec.ofNat 64 x.1.1, x.1.2)

/-- `STS`: the unit is visible two cycles later; storing poison taints the task (R422). -/
def execSts (v a : BitVec 6) (i : BitVec 11) (p : BitVec 3) (s : State) : Out :=
  issueWord (.sts v a i p) s fun s =>
    let x := readScalar s v
    (s.taintIf (x.2 || (readScalar s a).2)).after 2
      (.store (stageBase s a (8 * i.toNat) 8) (bytesOf 8 x.1.toNat) x.2)

end Sys2Proof.Machine
end

