-- ==== Sys2Proof/Machine/VaultOps.lean ====
section
/-! DEFINITION. The D slot: vault commands (R131 to R146, R348 to R400, R449). -/

namespace Sys2Proof.Machine

/-- `ACT` and `ACTW` (R348): a poisoned row register taints the task. -/
def activateWord (i : Instr) (s : State) (c : BitVec 2) (b : BitVec 4) (a : BitVec 6) (intent : Bool) : Out :=
  issueWord i s fun s =>
    let r := readScalar s a
    activate (s.taintIf r.2) (bankNo c b) r.1.toNat intent

/-- `ACT`. -/
def execAct (c : BitVec 2) (b : BitVec 4) (a : BitVec 6) (p : BitVec 3) (s : State) : Out :=
  activateWord (.act c b a p) s c b a false

/-- `ACTW`. -/
def execActw (c : BitVec 2) (b : BitVec 4) (a : BitVec 6) (p : BitVec 3) (s : State) : Out :=
  activateWord (.actw c b a p) s c b a true

/-- `RD`: the column of the open row, readable at tRL (R137, R145, R398). -/
def execRd (c : BitVec 2) (b l : BitVec 4) (v : BitVec 6) (p : BitVec 3) (s : State) : Out :=
  issueWord (.rd c b l v p) s fun s =>
    let n := bankNo c b
    let x := loadColumn (readBank s n) (columnKey n (bankOf s n).row l.toNat)
    let s' := markLane x.2 s.core.vault.corrections c.toNat
    let s' := if v = 63 then s' else
      s'.push { ready := s.core.ctl.cyc + 24, eff := .vector (physV s.core.ctl.rrb v.toNat) x.1.1 x.1.2, vault := true }
    s'.push { ready := s.core.ctl.cyc + 24, eff := .latch 5 true true x.1.1 x.1.2, vault := true }

/-- `WR`: storing poison taints the task (R145, R449). -/
def execWr (c : BitVec 2) (b l : BitVec 4) (v : BitVec 6) (p : BitVec 3) (s : State) : Out :=
  issueWord (.wr c b l v p) s fun s =>
    let n := bankNo c b
    let x := readVector s v
    ((writeBank s n).taintIf x.2).mapVault fun t => setColumn t (columnKey n (bankOf s n).row l.toNat) x.1 x.2

/-- `PRE` (R397). -/
def execPre (c : BitVec 2) (b : BitVec 4) (p : BitVec 3) (s : State) : Out :=
  issueWord (.pre c b p) s fun s => prechargeBank s (bankNo c b)

/-- `PREA` (R397). -/
def execPrea (c : BitVec 2) (p : BitVec 3) (s : State) : Out :=
  issueWord (.prea c p) s fun s => forEach s prechargeBank (banksOf c.toNat)

/-- `REF`: every bank of the channel (R400). -/
def execRef (c : BitVec 2) (p : BitVec 3) (s : State) : Out :=
  issueWord (.ref c p) s fun s => forEach s (fun s n => refreshBank s n 420) (banksOf c.toNat)

/-- `REFB` (R400). -/
def execRefb (c : BitVec 2) (b : BitVec 4) (p : BitVec 3) (s : State) : Out :=
  issueWord (.refb c b p) s fun s => activateChannel (refreshBank s (bankNo c b) 240) (bankNo c b)

end Sys2Proof.Machine
end

