-- ==== Sys2Proof/Machine/Trans.lean ====
section
/-! DEFINITION. The transcendental functions (R106 to R110), evaluated by integer series to some 300 significant bits. A
value is either exact or known to lie strictly between two neighbouring integers in units of 2^e. -/

namespace Sys2Proof.Machine

/-- π in units of 2^-700, rounded down. -/
def piFixed : Nat := 16525204305188294122575967610974940178026148430521517253674428844222689879174614411560235390899801560652737794125520858649187813498260676587492720299944119139547246105762461028318293173887444219654040121887534587

/-- ln 2 in units of 2^-700, rounded down. -/
def ln2Fixed : Nat := 3646048369520401155099996961047707357507096331783503843849344245633807666567193540862011325354993176522073248963992540440461234955063439798781282174979321648927961039135097465446362992577109506093562453216683523

/-- A function value: exactly ±m·2^e, or irrational in size between m·2^e and (m + 1)·2^e. -/
inductive TVal where
  | exact (s : Bool) (m : Nat) (e : Int)
  | between (s : Bool) (m : Nat) (e : Int)
  deriving DecidableEq, Repr

/-- Working fraction bits. -/
def tN : Nat := 560

/-- The sum of `n` terms of e^r, where `term` is r^k / k! and r is in units of 2^-tN. -/
def expTerms : Nat → Nat → Nat → Nat → Nat
  | 0, _, _, _ => 0
  | n + 1, r, k, term => term + expTerms n r (k + 1) (term * r / 2 ^ tN / (k + 1))

/-- e^r for 0 ≤ r < 1, in units of 2^-tN. -/
def expFixed (r : Nat) : Nat := expTerms 130 r 0 (2 ^ tN)

/-- The alternating sum of `n` terms of sin or cos: `term` is r^k / k!. -/
def trigTerms : Nat → Nat → Nat → Int → Int → Int
  | 0, _, _, _, _ => 0
  | n + 1, r, k, sg, term =>
    sg * term + trigTerms n r (k + 2) (-sg) (term * r / (2 ^ tN : Nat) * r / (2 ^ tN : Nat) / ((k + 1) * (k + 2) : Nat))

/-- sin r in units of 2^-tN, for 0 ≤ r < 2. -/
def sinFixed (r : Nat) : Nat := (trigTerms 75 r 1 1 r).toNat

/-- cos r in units of 2^-tN, for 0 ≤ r < 2. -/
def cosFixed (r : Nat) : Nat := (trigTerms 75 r 0 1 (2 ^ tN : Nat)).toNat

/-- The sum z + z^3/3 + z^5/5 + …, `n` terms, in units of 2^-tN. -/
def atanhTerms : Nat → Nat → Nat → Nat → Nat
  | 0, _, _, _ => 0
  | n + 1, z, k, term => term / k + atanhTerms n z (k + 2) (term * z / 2 ^ tN * z / 2 ^ tN)

/-- The integer square root, bit by bit from bit `n` - 1 down. -/
def isqrt : Nat → Nat → Nat → Nat
  | 0, _, r => r
  | n + 1, x, r => if (r + 2 ^ n) * (r + 2 ^ n) ≤ x then isqrt n x (r + 2 ^ n) else isqrt n x r

/-- Is a positive number a power of two? -/
def isPow2 (m : Nat) : Bool := m == 2 ^ Nat.log2 m

/-- A fixed-point integer, in units of 2^-tN, of m·2^e, rounded down. -/
def toFixed (m : Nat) (e : Int) : Nat :=
  if 0 ≤ e + (tN : Int) then m * 2 ^ (e + (tN : Int)).toNat else m / 2 ^ (-(e + (tN : Int))).toNat

/-- 2^x for x = ±m·2^e, not zero. -/
def tExp2 (s : Bool) (m : Nat) (e : Int) : TVal :=
  let lg : Int := (Nat.log2 m : Int) + e
  if 20 ≤ lg then .between false 1 (if s then -1048576 else 1048576)
  else if 0 ≤ e ∨ m % 2 ^ (-e).toNat = 0 then
    let k : Nat := if 0 ≤ e then m * 2 ^ e.toNat else m / 2 ^ (-e).toNat
    .exact false 1 (if s then -(k : Int) else k)
  else if lg < -400 then .between false (if s then 2 ^ 300 - 1 else 2 ^ 300) (-300)
  else
    let x : Int := if s then -(toFixed m e : Int) else toFixed m e
    let k := x / (2 ^ tN : Nat)
    let fr := (x % (2 ^ tN : Nat)).toNat
    .between false (expFixed (fr * (ln2Fixed / 2 ^ (700 - tN)) / 2 ^ tN)) (k - (tN : Int))

/-- log2 of m·2^e, positive. -/
def tLog2 (m : Nat) (e : Int) : TVal :=
  let lg := Nat.log2 m
  let k : Int := (lg : Int) + e
  if isPow2 m then .exact (decide (k < 0)) k.natAbs 0
  else
    let z := (m - 2 ^ lg) * 2 ^ tN / (m + 2 ^ lg)
    let l := 2 * atanhTerms 190 z 1 z * 2 ^ tN / (ln2Fixed / 2 ^ (700 - tN))
    let v : Int := k * (2 ^ tN : Nat) + l
    .between (decide (v < 0)) v.natAbs (-(tN : Int))

/-- The reciprocal of ±m·2^e. -/
def tRcp (s : Bool) (m : Nat) (e : Int) : TVal :=
  let lg := Nat.log2 m
  if isPow2 m then .exact s 1 (-(lg : Int) - e)
  else .between s (2 ^ (lg + tN) / m) (-(lg : Int) - (tN : Int) - e)

/-- m·2^e with an even exponent. -/
def evenExp (m : Nat) (e : Int) : Nat × Int := if e % 2 = 0 then (m, e) else (2 * m, e - 1)

/-- The square root of m·2^e. -/
def tSqrt (m : Nat) (e : Int) : TVal :=
  let r := evenExp m e
  let x := r.1 * 2 ^ 400
  let y := isqrt (Nat.log2 x / 2 + 1) x 0
  if y * y = x then .exact false y (r.2 / 2 - 200) else .between false y (r.2 / 2 - 200)

/-- The reciprocal square root of m·2^e. -/
def tRsq (m : Nat) (e : Int) : TVal :=
  let r := evenExp m e
  let lg := Nat.log2 r.1
  if isPow2 r.1 && decide (lg % 2 = 0) then .exact false 1 (-(lg / 2 : Nat) - r.2 / 2)
  else
    let k := 200 + lg
    let x := 2 ^ (2 * k) / r.1
    .between false (isqrt (Nat.log2 x / 2 + 1) x 0) (-(k : Int) - r.2 / 2)

/-- A number just below m·2^e. -/
def justBelow (s : Bool) (m : Nat) (e : Int) : TVal := .between s (m * 2 ^ 300 - 1) (e - 300)

/-- The quadrant of |x| = m·2^e and what is left of it, in units of 2^-tN. -/
def reduceQuarter (m : Nat) (e : Int) : Nat × Nat :=
  let x := toFixed m e * 2 ^ (700 - tN)
  let h := piFixed / 2
  (x / h % 4, x % h / 2 ^ (700 - tN))

/-- sin of ±m·2^e, not zero. Below 2^-180, x - x^3/6 differs from x by less than a unit of 2^(e-300), and above by more than 2^17
units of 2^-tN. -/
def tSin (s : Bool) (m : Nat) (e : Int) : TVal :=
  if (Nat.log2 m : Int) + e < -180 then justBelow s m e
  else
    let r := reduceQuarter m e
    let y := if r.1 % 2 = 0 then sinFixed r.2 else cosFixed r.2
    .between (s != decide (2 ≤ r.1)) y (-(tN : Int))

/-- cos of ±m·2^e, not zero. -/
def tCos (m : Nat) (e : Int) : TVal :=
  if (Nat.log2 m : Int) + e < -200 then justBelow false 1 0
  else
    let r := reduceQuarter m e
    let y := if r.1 % 2 = 0 then cosFixed r.2 else sinFixed r.2
    .between (decide (r.1 = 1) || decide (r.1 = 2)) y (-(tN : Int))

/-- tanh of ±m·2^e, not zero: as for `tSin`, x - x^3/3 lies just below x for the smallest x. -/
def tTanh (s : Bool) (m : Nat) (e : Int) : TVal :=
  let lg : Int := (Nat.log2 m : Int) + e
  if lg < -180 then justBelow s m e
  else if 8 ≤ lg then justBelow s 1 0
  else
    let x := 2 * toFixed m e * 2 ^ (700 - tN)
    let k := x / ln2Fixed
    let ex := expFixed (x % ln2Fixed / 2 ^ (700 - tN)) * 2 ^ k
    .between s ((ex - 2 ^ tN) * 2 ^ tN / (ex + 2 ^ tN)) (-(tN : Int))

/-- The transcendental operations of Table 4.6, by opcode less 0x10. -/
inductive TOp where
  | rcp | sqrt | rsq | exp2 | log2 | sin | cos | tanh
  deriving DecidableEq, Repr

/-- The place of an operation in the opcode order. -/
def TOp.num : TOp → Nat
  | .rcp => 0
  | .sqrt => 1
  | .rsq => 2
  | .exp2 => 3
  | .log2 => 4
  | .sin => 5
  | .cos => 6
  | .tanh => 7

/-- The error bound of Table 4.6 in half ulps; 0 means correctly rounded. -/
def TOp.halfUlps (o : TOp) (fmt : Nat) : Nat :=
  if 2 ≤ fmt then 0
  else match o with
    | .rcp | .sqrt => 0
    | .exp2 | .log2 | .rsq => 2
    | .sin | .cos => 3
    | .tanh => 4

/-- The function value at a finite argument that is not zero and lies in the domain. -/
def TOp.value (o : TOp) (s : Bool) (m : Nat) (e : Int) : TVal :=
  match o with
  | .rcp => tRcp s m e
  | .sqrt => tSqrt m e
  | .rsq => tRsq m e
  | .exp2 => tExp2 s m e
  | .log2 => tLog2 m e
  | .sin => tSin s m e
  | .cos => tCos m e
  | .tanh => tTanh s m e

/-- The candidate n·2^(q-1), signed by `s`, when the format holds it. -/
def candidateBits (f : Fmt) (s : Bool) (q : Int) (n : Int) : Option Nat :=
  let r := roundTo f 1 (s != decide (n < 0)) n.natAbs (q - 1)
  if r.2 = 0 then some r.1 else none

/-- Is |n·2^(q-1) - y| at most `h`/2 ulps, and on the side that the rounding code asks for (R107, R108)? `y` is the midpoint of
the interval in which the magnitude lies. -/
def allowed (h rm : Nat) (s : Bool) (m : Nat) (e q n : Int) : Bool :=
  let u := min (e - 1) (q - 1)
  let y : Int := (2 * m + 1 : Nat) * (2 ^ (e - 1 - u).toNat : Nat)
  let x : Int := n * (2 ^ (q - 1 - u).toNat : Nat)
  let b : Int := (h : Int) * (2 ^ (q - 1 - u).toNat : Nat)
  decide ((x - y).natAbs ≤ b.natAbs) &&
    (if rm = 1 then decide (x.natAbs ≤ y.natAbs)
     else if rm = 2 then (if s then decide (y ≤ x) else decide (x ≤ y))
     else if rm = 3 then (if s then decide (x ≤ y) else decide (y ≤ x))
     else true)

/-- The results that R107 and R108 allow for a value that is not representable. -/
def allowedResults (f : Fmt) (h rm : Nat) (s : Bool) (m : Nat) (e : Int) : List Nat :=
  let lg : Int := (Nat.log2 m : Int) + e
  let q := max (lg - (f.fbits : Int)) f.qmin
  let t : Int := if q ≤ e then (m * 2 ^ (e - q).toNat : Nat) else (m / 2 ^ (q - e).toNat : Nat)
  (List.range 20).filterMap fun i =>
    let n := 2 * t - 9 + (i : Int)
    if allowed h rm s m e q n then candidateBits f s q n else none

/-- The result for a function value, with its flags (R106 to R108). DESIGN CHOICE (log entry 10): an exact value that the format does
not hold, as `VEXP2` gives below the least subnormal, is rounded by `round_to`, where R108 leaves the bound alone. -/
def roundT (o : TOp) (fmt rm x : Nat) (v : TVal) : Nat × Flags :=
  let f := fmtOf fmt
  match v with
  | .exact s m e => roundTo f rm s m e
  | .between s m e =>
    let r := roundTo f rm s (2 * m + 1) (e - 1)
    if o.halfUlps fmt = 0 ∨ r.2.getLsbD 2 ∨ r.1 = f.signBit s then r
    else
      let c := allowedResults f (o.halfUlps fmt) rm s m e
      let tiny := decide ((Nat.log2 m : Int) + e < f.qmin + (f.fbits : Int))
      if c.isEmpty then r
      else (c.getD (Config.transcendental o.num fmt rm x % c.length) r.1, if tiny then fUFL ||| fINX else fINX)

/-- A transcendental function of one element: the special operands of Table 4.7, the range rule of R110, then the value. -/
def transF (o : TOp) (fmt rm x : Nat) : Nat × Flags :=
  let f := fmtOf fmt
  match decodeF f x with
  | .nan s fr => (carryNan f f s fr, if isSnan f x then fINV else 0)
  | .inf s =>
    match o with
    | .exp2 => (if s then 0 else f.inf false, 0)
    | .log2 | .sqrt => if s then (f.nan, fINV) else (f.inf false, 0)
    | .rsq => if s then (f.nan, fINV) else (0, 0)
    | .rcp => (f.signBit s, 0)
    | .sin | .cos => (f.nan, fINV)
    | .tanh => (roundTo f 0 s 1 0)
  | .num s m e =>
    if m = 0 then
      match o with
      | .exp2 | .cos => roundTo f 0 false 1 0
      | .log2 => (f.inf true, fDZE)
      | .rcp | .rsq => (f.inf s, fDZE)
      | .sqrt | .sin | .tanh => (x, 0)
    else if s && (o == .log2 || o == .sqrt || o == .rsq) then (f.nan, fINV)
    else if (o == .sin || o == .cos) && decide (fmt < 2) &&
        decide ((if fmt = 1 then 20 else 30 : Int) ≤ (Nat.log2 m : Int) + e) then (f.nan + 0x2A, fRANGE)
    else roundT o fmt rm x (o.value s m e)

end Sys2Proof.Machine
end

