-- ==== Sys2Proof/Machine/VecInt.lean ====
section
/-! DEFINITION. The integer forms of the V slots: arithmetic, bitwise operations, bit counts, selection and permutation, and the
integer form of `VRED` (R428 to R444). -/

namespace Sys2Proof.Machine

/-! ### Rows by element -/

/-- Each element of a row through `f` (R428). -/
def mapRow (w : Nat) (f : Nat → Nat) (x : Row) : Row := BitVec.ofNat 768 (ofElems w ((elems w (96 / w) x.toNat).map f))

/-- Each pair of elements of two rows through `f`. -/
def zipRow (w : Nat) (f : Nat → Nat → Nat) (x y : Row) : Row :=
  BitVec.ofNat 768 (ofElems w ((elems w (96 / w) x.toNat).zipWith f (elems w (96 / w) y.toNat)))

/-- A row of given elements, and the flags they raised. -/
def flaggedRow (w : Nat) (xs : List (Nat × Flags)) : Row × Flags :=
  (BitVec.ofNat 768 (ofElems w (xs.map Prod.fst)), allFlags xs)

/-- The element width in bytes of a width code (Table 4.2). -/
def widthOf (w : BitVec 3) : Nat := 2 ^ (w.toNat / 2)

/-- The bits of an element. -/
def bitsOf (w : BitVec 3) : Nat := 8 * widthOf w

/-- Does the width code name a signed format? -/
def signedOf (w : BitVec 3) : Bool := decide (w.toNat % 2 = 0)

/-- A one-source vector instruction: row and flags of `va` (R428, R429). -/
def vecUnary (i : Instr) (s : State) (u : VSlot) (d a : BitVec 6) (lat : Nat) (f : Row → Row × Flags) : Out :=
  issueWord i s fun s =>
    let x := readVector s a
    let r := f x.1
    flagResult (vectorResult s (vslot u).num d lat (r.1, x.2)) lat r.2

/-- A two-source vector instruction. -/
def vecBinary (i : Instr) (s : State) (u : VSlot) (d a b : BitVec 6) (lat : Nat) (f : Row → Row → Row × Flags) : Out :=
  issueWord i s fun s =>
    let x := readVector s a
    let y := readVector s b
    let r := f x.1 y.1
    flagResult (vectorResult s (vslot u).num d lat (r.1, x.2 || y.2)) lat r.2

/-- An instruction that also reads the register that `vd` names (R324). -/
def vecTernary (i : Instr) (s : State) (u : VSlot) (d a b : BitVec 6) (lat : Nat) (f : Row → Row → Row → Row × Flags) : Out :=
  issueWord i s fun s =>
    let x := readVector s a
    let y := readVector s b
    let z := readV s d.toNat
    let r := f x.1 y.1 z.1
    flagResult (vectorResult s (vslot u).num d lat (r.1, x.2 || y.2 || z.2)) lat r.2

/-! ### Integer arithmetic (R438) -/

/-- `f` of the two integers, wrapped or saturated. -/
def intBinary (w : BitVec 3) (sat : Bool) (f : Int → Int → Int) (x y : Row) : Row × Flags :=
  (zipRow (widthOf w) (fun a b =>
    narrow sat (signedOf w) (bitsOf w) (f (readInt (signedOf w) (bitsOf w) a) (readInt (signedOf w) (bitsOf w) b))) x y, 0)

/-- `f` of the integer, wrapped or saturated. -/
def intUnary (w : BitVec 3) (sat : Bool) (f : Int → Int) (x : Row) : Row × Flags :=
  (mapRow (widthOf w) (fun a => narrow sat (signedOf w) (bitsOf w) (f (readInt (signedOf w) (bitsOf w) a))) x, 0)

/-- The high half of a product. -/
def highHalf (n : Nat) (a b : Int) : Int := a * b / (2 ^ n : Nat)

/-- `VADD`, integer form. -/
def execVaddI (u : VSlot) (w : BitVec 3) (sat : BitVec 1) (d a b : BitVec 6) (p : BitVec 3) (s : State) : Out :=
  vecBinary (.vaddI u w sat d a b p) s u d a b 2 (intBinary w (sat == 1) fun x y => x + y)

/-- `VSUB`, integer form. -/
def execVsubI (u : VSlot) (w : BitVec 3) (sat : BitVec 1) (d a b : BitVec 6) (p : BitVec 3) (s : State) : Out :=
  vecBinary (.vsubI u w sat d a b p) s u d a b 2 (intBinary w (sat == 1) fun x y => x - y)

/-- `VMUL`, integer form. -/
def execVmulI (u : VSlot) (w : BitVec 3) (sat : BitVec 1) (d a b : BitVec 6) (p : BitVec 3) (s : State) : Out :=
  vecBinary (.vmulI u w sat d a b p) s u d a b 2 (intBinary w (sat == 1) fun x y => x * y)

/-- `VMULH`. -/
def execVmulh (u : VSlot) (w : BitVec 3) (d a b : BitVec 6) (p : BitVec 3) (s : State) : Out :=
  vecBinary (.vmulh u w d a b p) s u d a b 2 (intBinary w false (highHalf (bitsOf w)))

/-- `VMAX`, integer form. -/
def execVmaxI (u : VSlot) (w : BitVec 3) (d a b : BitVec 6) (p : BitVec 3) (s : State) : Out :=
  vecBinary (.vmaxI u w d a b p) s u d a b 2 (intBinary w false max)

/-- `VMIN`, integer form. -/
def execVminI (u : VSlot) (w : BitVec 3) (d a b : BitVec 6) (p : BitVec 3) (s : State) : Out :=
  vecBinary (.vminI u w d a b p) s u d a b 2 (intBinary w false min)

/-- `VABS`, integer form. -/
def execVabsI (u : VSlot) (w : BitVec 3) (sat : BitVec 1) (d a : BitVec 6) (p : BitVec 3) (s : State) : Out :=
  vecUnary (.vabsI u w sat d a p) s u d a 2 (intUnary w (sat == 1) fun x => (x.natAbs : Int))

/-- `VNEG`, integer form. -/
def execVnegI (u : VSlot) (w : BitVec 3) (sat : BitVec 1) (d a : BitVec 6) (p : BitVec 3) (s : State) : Out :=
  vecUnary (.vnegI u w sat d a p) s u d a 2 (intUnary w (sat == 1) fun x => -x)

/-- `VMAXE`: the signed maximum (R442). -/
def execVmaxe (u : VSlot) (w : BitVec 3) (d a b : BitVec 6) (p : BitVec 3) (s : State) : Out :=
  vecBinary (.vmaxe u w d a b p) s u d a b 2 (intBinary w false max)

/-! ### Bitwise operations, shifts and counts (R439, R440) -/

/-- `VSHL` of one element by the whole unsigned amount. -/
def shlElem (n a k : Nat) : Nat := if n ≤ k then 0 else a * 2 ^ k % 2 ^ n

/-- `VSHR` of one element. -/
def shrElem (signed : Bool) (n a k : Nat) : Nat :=
  if signed then wrapInt n (toSigned n a / (2 ^ min k (n - 1) : Nat)) else if n ≤ k then 0 else a / 2 ^ k

/-- `VAND`. -/
def execVand (u : VSlot) (w : BitVec 3) (d a b : BitVec 6) (p : BitVec 3) (s : State) : Out :=
  vecBinary (.vand u w d a b p) s u d a b 2 fun x y => (x &&& y, 0)

/-- `VOR`. -/
def execVor (u : VSlot) (w : BitVec 3) (d a b : BitVec 6) (p : BitVec 3) (s : State) : Out :=
  vecBinary (.vor u w d a b p) s u d a b 2 fun x y => (x ||| y, 0)

/-- `VXOR`. -/
def execVxor (u : VSlot) (w : BitVec 3) (d a b : BitVec 6) (p : BitVec 3) (s : State) : Out :=
  vecBinary (.vxor u w d a b p) s u d a b 2 fun x y => (x ^^^ y, 0)

/-- `VSHL`. -/
def execVshl (u : VSlot) (w : BitVec 3) (d a b : BitVec 6) (p : BitVec 3) (s : State) : Out :=
  vecBinary (.vshl u w d a b p) s u d a b 2 fun x y => (zipRow (widthOf w) (shlElem (bitsOf w)) x y, 0)

/-- `VSHR`. -/
def execVshr (u : VSlot) (w : BitVec 3) (d a b : BitVec 6) (p : BitVec 3) (s : State) : Out :=
  vecBinary (.vshr u w d a b p) s u d a b 2 fun x y => (zipRow (widthOf w) (shrElem (signedOf w) (bitsOf w)) x y, 0)

/-- `VCLZ`. -/
def execVclz (u : VSlot) (w : BitVec 3) (d a : BitVec 6) (p : BitVec 3) (s : State) : Out :=
  vecUnary (.vclz u w d a p) s u d a 2 fun x => (mapRow (widthOf w) (leadingZeros (bitsOf w)) x, 0)

/-- `VFFS`. -/
def execVffs (u : VSlot) (w : BitVec 3) (d a : BitVec 6) (p : BitVec 3) (s : State) : Out :=
  vecUnary (.vffs u w d a p) s u d a 2 fun x => (mapRow (widthOf w) (firstSet (bitsOf w)) x, 0)

/-- `VPOPC`. -/
def execVpopc (u : VSlot) (w : BitVec 3) (d a : BitVec 6) (p : BitVec 3) (s : State) : Out :=
  vecUnary (.vpopc u w d a p) s u d a 2 fun x => (mapRow (widthOf w) (popCount (bitsOf w)) x, 0)

/-! ### Compares and the sum (R433, R434) -/

/-- All ones of the element's width where the condition holds. -/
def maskElem (n : Nat) (b : Bool) : Nat := if b then 2 ^ n - 1 else 0

/-- An integer compare into a mask row. -/
def intCompare (w : BitVec 3) (c : Int → Int → Bool) (x y : Row) : Row × Flags :=
  (zipRow (widthOf w) (fun a b =>
    maskElem (bitsOf w) (c (readInt (signedOf w) (bitsOf w) a) (readInt (signedOf w) (bitsOf w) b))) x y, 0)

/-- `VCMP.eq`, integer form. -/
def execVcmpEqI (u : VSlot) (w : BitVec 3) (d a b : BitVec 6) (p : BitVec 3) (s : State) : Out :=
  vecBinary (.vcmpEqI u w d a b p) s u d a b 2 (intCompare w fun x y => decide (x = y))

/-- `VCMP.lt`, integer form. -/
def execVcmpLtI (u : VSlot) (w : BitVec 3) (d a b : BitVec 6) (p : BitVec 3) (s : State) : Out :=
  vecBinary (.vcmpLtI u w d a b p) s u d a b 2 (intCompare w fun x y => decide (x < y))

/-- `VCMP.le`, integer form. -/
def execVcmpLeI (u : VSlot) (w : BitVec 3) (d a b : BitVec 6) (p : BitVec 3) (s : State) : Out :=
  vecBinary (.vcmpLeI u w d a b p) s u d a b 2 (intCompare w fun x y => decide (x ≤ y))

/-- The sum of the elements of a row, narrowed once, in element 0 (R434). -/
def intSum (w : BitVec 3) (sat : Bool) (x : Row) : Row × Flags :=
  let xs := (elems (widthOf w) (96 / widthOf w) x.toNat).map (readInt (signedOf w) (bitsOf w))
  (BitVec.ofNat 768 (narrow sat (signedOf w) (bitsOf w) (xs.foldl (fun t y => t + y) 0)), 0)

/-- `VRED`, integer form. -/
def execVredI (u : VSlot) (w : BitVec 3) (sat : BitVec 1) (d a : BitVec 6) (p : BitVec 3) (s : State) : Out :=
  vecUnary (.vredI u w sat d a p) s u d a 6 (intSum w (sat == 1))

/-! ### Selection and permutation (R444) -/

/-- `VSEL`: the mask row chooses, element by element. -/
def selectRow (w : Nat) (x y m : Row) : Row :=
  BitVec.ofNat 768 (ofElems w (((elems w (96 / w) m.toNat).zip ((elems w (96 / w) x.toNat).zip (elems w (96 / w) y.toNat))).map
    fun t => if t.1 ≠ 0 then t.2.1 else t.2.2))

/-- The element of a row that an index names; 0 beyond the row. -/
def pickElem (w : Nat) (x : Row) (j : Nat) : Nat := if j < 96 / w then elemAt w x.toNat j else 0

/-- `VSEL`: the mask is the register of `vd`, read at issue. -/
def execVsel (u : VSlot) (w : BitVec 3) (d a b : BitVec 6) (p : BitVec 3) (s : State) : Out :=
  vecTernary (.vsel u w d a b p) s u d a b 2 fun x y m => (selectRow (widthOf w) x y m, 0)

/-- `VSHUF`. -/
def execVshuf (u : VSlot) (w : BitVec 3) (d a b : BitVec 6) (p : BitVec 3) (s : State) : Out :=
  vecBinary (.vshuf u w d a b p) s u d a b 2 fun x y => (mapRow (widthOf w) (pickElem (widthOf w) x) y, 0)

/-- `VDUP`. -/
def execVdup (u : VSlot) (w : BitVec 3) (d a b : BitVec 6) (p : BitVec 3) (s : State) : Out :=
  vecBinary (.vdup u w d a b p) s u d a b 2 fun x y =>
    (mapRow (widthOf w) (fun _ => pickElem (widthOf w) x (elemAt (widthOf w) y.toNat 0)) x, 0)

end Sys2Proof.Machine
end

