-- ==== Sys2Proof/Machine/VecFloat.lean ====
section
/-! DEFINITION. The float forms of the V slots: arithmetic, sign operations, compares, reductions, transcendentals, exponent
operations and conversions (R430 to R443). -/

namespace Sys2Proof.Machine

/-- The width in bytes of a float element. -/
def fmtWidth (f : BitVec 2) : Nat := (fmtOf f.toNat).bytes

/-- Each element of a row through a flagged operation (R428, R429). -/
def floatUnary (f : BitVec 2) (g : Fmt → Nat → Nat × Flags) (x : Row) : Row × Flags :=
  flaggedRow (fmtWidth f) ((elems (fmtWidth f) (96 / fmtWidth f) x.toNat).map (g (fmtOf f.toNat)))

/-- Each pair of elements through a flagged operation. -/
def floatBinary (f : BitVec 2) (g : Fmt → Nat → Nat → Nat × Flags) (x y : Row) : Row × Flags :=
  flaggedRow (fmtWidth f)
    ((elems (fmtWidth f) (96 / fmtWidth f) x.toNat).zipWith (g (fmtOf f.toNat)) (elems (fmtWidth f) (96 / fmtWidth f) y.toNat))

/-! ### Arithmetic that rounds (R430, R431) -/

/-- `VADD` of one element. -/
def addF (rm : BitVec 3) (f : Fmt) (a b : Nat) : Nat × Flags := exactRound f rm.toNat [[(f, a)], [(f, b)]]

/-- `VSUB` of one element. -/
def subF (rm : BitVec 3) (f : Fmt) (a b : Nat) : Nat × Flags := exactRound f rm.toNat [[(f, a)], [(f, negF f b)]]

/-- `VMUL` of one element. -/
def mulF (rm : BitVec 3) (f : Fmt) (a b : Nat) : Nat × Flags := exactRound f rm.toNat [[(f, a), (f, b)]]

/-- `VFMA` of one element: va · vb + vd, NaNs in that order (R324). -/
def fmaF (rm : BitVec 3) (f : Fmt) (t : Nat × (Nat × Nat)) : Nat × Flags :=
  exactRound f rm.toNat [[(f, t.1), (f, t.2.1)], [(f, t.2.2)]]

/-- `VFMA` of three rows. -/
def fmaRow (f : BitVec 2) (rm : BitVec 3) (x y z : Row) : Row × Flags :=
  let w := fmtWidth f
  flaggedRow w (((elems w (96 / w) x.toNat).zip ((elems w (96 / w) y.toNat).zip (elems w (96 / w) z.toNat))).map
    (fmaF rm (fmtOf f.toNat)))

/-- `VADD`, float form. -/
def execVaddF (u : VSlot) (f : BitVec 2) (r : BitVec 3) (d a b : BitVec 6) (p : BitVec 3) (s : State) : Out :=
  vecBinary (.vaddF u f r d a b p) s u d a b 3 (floatBinary f (addF r))

/-- `VSUB`, float form. -/
def execVsubF (u : VSlot) (f : BitVec 2) (r : BitVec 3) (d a b : BitVec 6) (p : BitVec 3) (s : State) : Out :=
  vecBinary (.vsubF u f r d a b p) s u d a b 3 (floatBinary f (subF r))

/-- `VMUL`, float form. -/
def execVmulF (u : VSlot) (f : BitVec 2) (r : BitVec 3) (d a b : BitVec 6) (p : BitVec 3) (s : State) : Out :=
  vecBinary (.vmulF u f r d a b p) s u d a b 3 (floatBinary f (mulF r))

/-- `VFMA`. -/
def execVfma (u : VSlot) (f : BitVec 2) (r : BitVec 3) (d a b : BitVec 6) (p : BitVec 3) (s : State) : Out :=
  vecTernary (.vfma u f r d a b p) s u d a b 4 (fmaRow f r)

/-- `VRINT`. -/
def execVrint (u : VSlot) (f : BitVec 2) (r : BitVec 3) (d a : BitVec 6) (p : BitVec 3) (s : State) : Out :=
  vecUnary (.vrint u f r d a p) s u d a 3 (floatUnary f fun g => rintF g r.toNat)

/-! ### Sign operations, maximum and minimum (R432) -/

/-- The sign bit of a pattern. -/
def signOf (f : Fmt) (x : Nat) : Bool := decide (f.signBit true ≤ x)

/-- A pattern with a given sign bit. -/
def withSign (f : Fmt) (s : Bool) (x : Nat) : Nat := f.signBit s + x % f.signBit true

/-- `VABS`, float form. -/
def execVabsF (u : VSlot) (f : BitVec 2) (d a : BitVec 6) (p : BitVec 3) (s : State) : Out :=
  vecUnary (.vabsF u f d a p) s u d a 3 (floatUnary f fun g x => (withSign g false x, 0))

/-- `VNEG`, float form. -/
def execVnegF (u : VSlot) (f : BitVec 2) (d a : BitVec 6) (p : BitVec 3) (s : State) : Out :=
  vecUnary (.vnegF u f d a p) s u d a 3 (floatUnary f fun g x => (withSign g (!signOf g x) x, 0))

/-- `VCPYS`. -/
def execVcpys (u : VSlot) (f : BitVec 2) (d a b : BitVec 6) (p : BitVec 3) (s : State) : Out :=
  vecBinary (.vcpys u f d a b p) s u d a b 3 (floatBinary f fun g x y => (withSign g (signOf g y) x, 0))

/-- `VMAX`, float form. -/
def execVmaxF (u : VSlot) (f : BitVec 2) (d a b : BitVec 6) (p : BitVec 3) (s : State) : Out :=
  vecBinary (.vmaxF u f d a b p) s u d a b 3 (floatBinary f fun g => maxMinF g true)

/-- `VMIN`, float form. -/
def execVminF (u : VSlot) (f : BitVec 2) (d a b : BitVec 6) (p : BitVec 3) (s : State) : Out :=
  vecBinary (.vminF u f d a b p) s u d a b 3 (floatBinary f fun g => maxMinF g false)

/-! ### Compares and the sum (R433, R434) -/

/-- A float compare of one element into a mask. -/
def compareElem (c : Nat) (f : Fmt) (a b : Nat) : Nat × Flags :=
  (maskElem (8 * f.bytes) (compareF f c a b).1, (compareF f c a b).2)

/-- `VCMP.eq`, float form. -/
def execVcmpEqF (u : VSlot) (f : BitVec 2) (d a b : BitVec 6) (p : BitVec 3) (s : State) : Out :=
  vecBinary (.vcmpEqF u f d a b p) s u d a b 3 (floatBinary f (compareElem 0))

/-- `VCMP.lt`, float form. -/
def execVcmpLtF (u : VSlot) (f : BitVec 2) (d a b : BitVec 6) (p : BitVec 3) (s : State) : Out :=
  vecBinary (.vcmpLtF u f d a b p) s u d a b 3 (floatBinary f (compareElem 1))

/-- `VCMP.le`, float form. -/
def execVcmpLeF (u : VSlot) (f : BitVec 2) (d a b : BitVec 6) (p : BitVec 3) (s : State) : Out :=
  vecBinary (.vcmpLeF u f d a b p) s u d a b 3 (floatBinary f (compareElem 2))

/-- The exact sum of the elements of a row, rounded once, in element 0 (R434). -/
def floatSum (f : BitVec 2) (rm : BitVec 3) (x : Row) : Row × Flags :=
  let g := fmtOf f.toNat
  let r := exactRound g rm.toNat ((elems (fmtWidth f) (96 / fmtWidth f) x.toNat).map fun a => [(g, a)])
  (BitVec.ofNat 768 r.1, r.2)

/-- `VRED`, float form. -/
def execVredF (u : VSlot) (f : BitVec 2) (r : BitVec 3) (d a : BitVec 6) (p : BitVec 3) (s : State) : Out :=
  vecUnary (.vredF u f r d a p) s u d a 6 (floatSum f r)

/-! ### Transcendentals (R435) -/

/-- The latency of a class T instruction (Table 3.9). -/
def transLat (f : BitVec 2) : Nat := if f = 0 then 20 else 8

/-- A class T function of a row. -/
def transRow (o : TOp) (f : BitVec 2) (rm : BitVec 3) : Row → Row × Flags :=
  floatUnary f fun _ => transF o f.toNat rm.toNat

/-- `VRCP`. -/
def execVrcp (u : VSlot) (f : BitVec 2) (r : BitVec 3) (d a : BitVec 6) (p : BitVec 3) (s : State) : Out :=
  vecUnary (.vrcp u f r d a p) s u d a (transLat f) (transRow .rcp f r)

/-- `VSQRT`. -/
def execVsqrt (u : VSlot) (f : BitVec 2) (r : BitVec 3) (d a : BitVec 6) (p : BitVec 3) (s : State) : Out :=
  vecUnary (.vsqrt u f r d a p) s u d a (transLat f) (transRow .sqrt f r)

/-- `VRSQ`. -/
def execVrsq (u : VSlot) (f : BitVec 2) (r : BitVec 3) (d a : BitVec 6) (p : BitVec 3) (s : State) : Out :=
  vecUnary (.vrsq u f r d a p) s u d a (transLat f) (transRow .rsq f r)

/-- `VEXP2`. -/
def execVexp2 (u : VSlot) (f : BitVec 2) (r : BitVec 3) (d a : BitVec 6) (p : BitVec 3) (s : State) : Out :=
  vecUnary (.vexp2 u f r d a p) s u d a (transLat f) (transRow .exp2 f r)

/-- `VLOG2`. -/
def execVlog2 (u : VSlot) (f : BitVec 2) (r : BitVec 3) (d a : BitVec 6) (p : BitVec 3) (s : State) : Out :=
  vecUnary (.vlog2 u f r d a p) s u d a (transLat f) (transRow .log2 f r)

/-- `VSIN`. -/
def execVsin (u : VSlot) (f : BitVec 2) (r : BitVec 3) (d a : BitVec 6) (p : BitVec 3) (s : State) : Out :=
  vecUnary (.vsin u f r d a p) s u d a (transLat f) (transRow .sin f r)

/-- `VCOS`. -/
def execVcos (u : VSlot) (f : BitVec 2) (r : BitVec 3) (d a : BitVec 6) (p : BitVec 3) (s : State) : Out :=
  vecUnary (.vcos u f r d a p) s u d a (transLat f) (transRow .cos f r)

/-- `VTANH`. -/
def execVtanh (u : VSlot) (f : BitVec 2) (r : BitVec 3) (d a : BitVec 6) (p : BitVec 3) (s : State) : Out :=
  vecUnary (.vtanh u f r d a p) s u d a (transLat f) (transRow .tanh f r)

/-! ### Exponent operations (R441, R443) -/

/-- The float format that a width code of `VEXPS` names (Table 16.4). -/
def expFmt (w : BitVec 3) : Nat := if w = 2 then 2 else if w = 3 then 3 else if w = 4 then 1 else 0

/-- `VEXPS`. -/
def execVexps (u : VSlot) (w : BitVec 3) (x : BitVec 1) (d a : BitVec 6) (p : BitVec 3) (s : State) : Out :=
  vecUnary (.vexps u w x d a p) s u d a 2
    (floatUnary (BitVec.ofNat 2 (expFmt w)) fun g => expSplit g (x == 1))

/-- `VSCALE`: the exponent is the integer of the element's own width. -/
def execVscale (u : VSlot) (f : BitVec 2) (r : BitVec 3) (d a b : BitVec 6) (p : BitVec 3) (s : State) : Out :=
  vecBinary (.vscale u f r d a b p) s u d a b 3
    (floatBinary f fun g x n => scaleF g r.toNat x (toSigned (8 * g.bytes) n))

/-! ### Conversions (R436, R437) -/

/-- Convert the elements of a row: the first of as many as both formats hold; the rest of the destination is zero (R436). -/
def convertRow (ws wd : Nat) (g : Nat → Nat × Flags) (x : Row) : Row × Flags :=
  flaggedRow wd (((elems ws (96 / ws) x.toNat).take (96 / wd)).map g)

/-- One element from a float format to the format of a 4-bit code (R97, R98, R99). -/
def fromFloat (src : Nat) (rm : Nat) (dst : Nat) (sat : Bool) (x : Nat) : Nat × Flags :=
  if dst < 8 then convertF (fmtOf src) (fmtOf dst) rm sat x
  else
    let w : BitVec 3 := BitVec.ofNat 3 (dst - 8)
    floatToInt (fmtOf src) (signedOf w) (bitsOf w) rm x

/-- One element from an integer format (R96, R98, R100). -/
def fromInt (w : BitVec 3) (rm : Nat) (toInt : Bool) (dst : Nat) (sat : Bool) (x : Nat) : Nat × Flags :=
  let v := readInt (signedOf w) (bitsOf w) x
  if toInt then
    let t : BitVec 3 := BitVec.ofNat 3 dst
    (narrow sat (signedOf t) (bitsOf t) v, 0)
  else intToFloat (fmtOf dst) rm sat v

/-- The width in bytes of the format of a 4-bit code (Table 4.2). -/
def codeWidth (c : Nat) : Nat := if c < 8 then (fmtOf c).bytes else widthOf (BitVec.ofNat 3 (c - 8))

/-- `VCVT` from a float format. -/
def execVcvtFromFloat (u : VSlot) (f : BitVec 2) (r : BitVec 3) (d a : BitVec 6) (g : BitVec 4) (sat : BitVec 1)
    (p : BitVec 3) (s : State) : Out :=
  vecUnary (.vcvtFromFloat u f r d a g sat p) s u d a 3
    (convertRow (fmtWidth f) (codeWidth g.toNat) (fromFloat f.toNat r.toNat g.toNat (sat == 1)))

/-- `VCVT` from an integer format. -/
def execVcvtFromInt (u : VSlot) (w : BitVec 3) (sat y : BitVec 1) (d a : BitVec 6) (r g p : BitVec 3) (s : State) : Out :=
  vecUnary (.vcvtFromInt u w sat y d a r g p) s u d a 3
    (convertRow (widthOf w) (if y = 1 then widthOf g else (fmtOf g.toNat).bytes)
      (fromInt w r.toNat (y == 1) g.toNat (sat == 1)))

/-- `VCVT` that widens an 8-bit float. -/
def execVcvtWidenF8 (u : VSlot) (f : BitVec 4) (d a : BitVec 6) (g : BitVec 4) (p : BitVec 3) (s : State) : Out :=
  vecUnary (.vcvtWidenF8 u f d a g p) s u d a 3
    (convertRow 1 (codeWidth g.toNat) (fromFloat f.toNat 0 g.toNat false))

end Sys2Proof.Machine
end

