-- ==== Sys2Proof/Machine/Dispatch.lean ====
section
/-! DEFINITION. The one arm of every instruction and event: a direct call of its meaning. -/

namespace Sys2Proof.Machine

def exec (i : Instr) (s : State) : Host.Outcome State Fault Refusal :=
  match i with
  | .nop => Sys2Proof.Machine.execNop s
  | .br x1 x2 => Sys2Proof.Machine.execBr x1 x2 s
  | .brp x1 x2 x3 => Sys2Proof.Machine.execBrp x1 x2 x3 s
  | .call x1 x2 => Sys2Proof.Machine.execCall x1 x2 s
  | .ret x1 => Sys2Proof.Machine.execRet x1 s
  | .loop x1 x2 => Sys2Proof.Machine.execLoop x1 x2 s
  | .loopr x1 x2 x3 x4 => Sys2Proof.Machine.execLoopr x1 x2 x3 x4 s
  | .waitb x1 x2 x3 => Sys2Proof.Machine.execWaitb x1 x2 x3 s
  | .arrb x1 x2 x3 => Sys2Proof.Machine.execArrb x1 x2 x3 s
  | .waitt x1 x2 => Sys2Proof.Machine.execWaitt x1 x2 s
  | .waitp x1 x2 x3 => Sys2Proof.Machine.execWaitp x1 x2 x3 s
  | .trig x1 => Sys2Proof.Machine.execTrig x1 s
  | .endTask x1 => Sys2Proof.Machine.execEnd x1 s
  | .seg x1 x2 x3 x4 => Sys2Proof.Machine.execSeg x1 x2 x3 x4 s
  | .sege x1 => Sys2Proof.Machine.execSege x1 s
  | .ifence x1 => Sys2Proof.Machine.execIfence x1 s
  | .snap x1 => Sys2Proof.Machine.execSnap x1 s
  | .genq x1 x2 x3 => Sys2Proof.Machine.execGenq x1 x2 x3 s
  | .brk x1 x2 => Sys2Proof.Machine.execBrk x1 x2 s
  | .trap x1 x2 => Sys2Proof.Machine.execTrap x1 x2 s
  | .pand x1 x2 x3 x4 => Sys2Proof.Machine.execPand x1 x2 x3 x4 s
  | .por x1 x2 x3 x4 => Sys2Proof.Machine.execPor x1 x2 x3 x4 s
  | .pxor x1 x2 x3 x4 => Sys2Proof.Machine.execPxor x1 x2 x3 x4 s
  | .pnot x1 x2 x3 => Sys2Proof.Machine.execPnot x1 x2 x3 s
  | .add x1 x2 x3 x4 => Sys2Proof.Machine.execAdd x1 x2 x3 x4 s
  | .sub x1 x2 x3 x4 => Sys2Proof.Machine.execSub x1 x2 x3 x4 s
  | .andS x1 x2 x3 x4 => Sys2Proof.Machine.execAnd x1 x2 x3 x4 s
  | .orS x1 x2 x3 x4 => Sys2Proof.Machine.execOr x1 x2 x3 x4 s
  | .xorS x1 x2 x3 x4 => Sys2Proof.Machine.execXor x1 x2 x3 x4 s
  | .shl x1 x2 x3 x4 => Sys2Proof.Machine.execShl x1 x2 x3 x4 s
  | .shr x1 x2 x3 x4 => Sys2Proof.Machine.execShr x1 x2 x3 x4 s
  | .sra x1 x2 x3 x4 => Sys2Proof.Machine.execSra x1 x2 x3 x4 s
  | .mul x1 x2 x3 x4 => Sys2Proof.Machine.execMul x1 x2 x3 x4 s
  | .mulh x1 x2 x3 x4 => Sys2Proof.Machine.execMulh x1 x2 x3 x4 s
  | .mulhu x1 x2 x3 x4 => Sys2Proof.Machine.execMulhu x1 x2 x3 x4 s
  | .maxS x1 x2 x3 x4 x5 => Sys2Proof.Machine.execMax x1 x2 x3 x4 x5 s
  | .minS x1 x2 x3 x4 x5 => Sys2Proof.Machine.execMin x1 x2 x3 x4 x5 s
  | .clz x1 x2 x3 => Sys2Proof.Machine.execClz x1 x2 x3 s
  | .ffs x1 x2 x3 => Sys2Proof.Machine.execFfs x1 x2 x3 s
  | .popc x1 x2 x3 => Sys2Proof.Machine.execPopc x1 x2 x3 s
  | .sel x1 x2 x3 x4 x5 => Sys2Proof.Machine.execSel x1 x2 x3 x4 x5 s
  | .cmp x1 x2 x3 x4 x5 => Sys2Proof.Machine.execCmp x1 x2 x3 x4 x5 s
  | .addi x1 x2 x3 x4 => Sys2Proof.Machine.execAddi x1 x2 x3 x4 s
  | .lds x1 x2 x3 x4 => Sys2Proof.Machine.execLds x1 x2 x3 x4 s
  | .sts x1 x2 x3 x4 => Sys2Proof.Machine.execSts x1 x2 x3 x4 s
  | .li x1 x2 x3 => Sys2Proof.Machine.execLi x1 x2 x3 s
  | .lih x1 x2 x3 => Sys2Proof.Machine.execLih x1 x2 x3 s
  | .vaddF x1 x2 x3 x4 x5 x6 x7 => Sys2Proof.Machine.execVaddF x1 x2 x3 x4 x5 x6 x7 s
  | .vsubF x1 x2 x3 x4 x5 x6 x7 => Sys2Proof.Machine.execVsubF x1 x2 x3 x4 x5 x6 x7 s
  | .vmulF x1 x2 x3 x4 x5 x6 x7 => Sys2Proof.Machine.execVmulF x1 x2 x3 x4 x5 x6 x7 s
  | .vfma x1 x2 x3 x4 x5 x6 x7 => Sys2Proof.Machine.execVfma x1 x2 x3 x4 x5 x6 x7 s
  | .vmaxF x1 x2 x3 x4 x5 x6 => Sys2Proof.Machine.execVmaxF x1 x2 x3 x4 x5 x6 s
  | .vminF x1 x2 x3 x4 x5 x6 => Sys2Proof.Machine.execVminF x1 x2 x3 x4 x5 x6 s
  | .vcpys x1 x2 x3 x4 x5 x6 => Sys2Proof.Machine.execVcpys x1 x2 x3 x4 x5 x6 s
  | .vcmpEqF x1 x2 x3 x4 x5 x6 => Sys2Proof.Machine.execVcmpEqF x1 x2 x3 x4 x5 x6 s
  | .vcmpLtF x1 x2 x3 x4 x5 x6 => Sys2Proof.Machine.execVcmpLtF x1 x2 x3 x4 x5 x6 s
  | .vcmpLeF x1 x2 x3 x4 x5 x6 => Sys2Proof.Machine.execVcmpLeF x1 x2 x3 x4 x5 x6 s
  | .vabsF x1 x2 x3 x4 x5 => Sys2Proof.Machine.execVabsF x1 x2 x3 x4 x5 s
  | .vnegF x1 x2 x3 x4 x5 => Sys2Proof.Machine.execVnegF x1 x2 x3 x4 x5 s
  | .vrint x1 x2 x3 x4 x5 x6 => Sys2Proof.Machine.execVrint x1 x2 x3 x4 x5 x6 s
  | .vredF x1 x2 x3 x4 x5 x6 => Sys2Proof.Machine.execVredF x1 x2 x3 x4 x5 x6 s
  | .vscale x1 x2 x3 x4 x5 x6 x7 => Sys2Proof.Machine.execVscale x1 x2 x3 x4 x5 x6 x7 s
  | .vrcp x1 x2 x3 x4 x5 x6 => Sys2Proof.Machine.execVrcp x1 x2 x3 x4 x5 x6 s
  | .vsqrt x1 x2 x3 x4 x5 x6 => Sys2Proof.Machine.execVsqrt x1 x2 x3 x4 x5 x6 s
  | .vrsq x1 x2 x3 x4 x5 x6 => Sys2Proof.Machine.execVrsq x1 x2 x3 x4 x5 x6 s
  | .vexp2 x1 x2 x3 x4 x5 x6 => Sys2Proof.Machine.execVexp2 x1 x2 x3 x4 x5 x6 s
  | .vlog2 x1 x2 x3 x4 x5 x6 => Sys2Proof.Machine.execVlog2 x1 x2 x3 x4 x5 x6 s
  | .vsin x1 x2 x3 x4 x5 x6 => Sys2Proof.Machine.execVsin x1 x2 x3 x4 x5 x6 s
  | .vcos x1 x2 x3 x4 x5 x6 => Sys2Proof.Machine.execVcos x1 x2 x3 x4 x5 x6 s
  | .vtanh x1 x2 x3 x4 x5 x6 => Sys2Proof.Machine.execVtanh x1 x2 x3 x4 x5 x6 s
  | .vaddI x1 x2 x3 x4 x5 x6 x7 => Sys2Proof.Machine.execVaddI x1 x2 x3 x4 x5 x6 x7 s
  | .vsubI x1 x2 x3 x4 x5 x6 x7 => Sys2Proof.Machine.execVsubI x1 x2 x3 x4 x5 x6 x7 s
  | .vmulI x1 x2 x3 x4 x5 x6 x7 => Sys2Proof.Machine.execVmulI x1 x2 x3 x4 x5 x6 x7 s
  | .vmulh x1 x2 x3 x4 x5 x6 => Sys2Proof.Machine.execVmulh x1 x2 x3 x4 x5 x6 s
  | .vmaxI x1 x2 x3 x4 x5 x6 => Sys2Proof.Machine.execVmaxI x1 x2 x3 x4 x5 x6 s
  | .vminI x1 x2 x3 x4 x5 x6 => Sys2Proof.Machine.execVminI x1 x2 x3 x4 x5 x6 s
  | .vand x1 x2 x3 x4 x5 x6 => Sys2Proof.Machine.execVand x1 x2 x3 x4 x5 x6 s
  | .vor x1 x2 x3 x4 x5 x6 => Sys2Proof.Machine.execVor x1 x2 x3 x4 x5 x6 s
  | .vxor x1 x2 x3 x4 x5 x6 => Sys2Proof.Machine.execVxor x1 x2 x3 x4 x5 x6 s
  | .vshl x1 x2 x3 x4 x5 x6 => Sys2Proof.Machine.execVshl x1 x2 x3 x4 x5 x6 s
  | .vshr x1 x2 x3 x4 x5 x6 => Sys2Proof.Machine.execVshr x1 x2 x3 x4 x5 x6 s
  | .vabsI x1 x2 x3 x4 x5 x6 => Sys2Proof.Machine.execVabsI x1 x2 x3 x4 x5 x6 s
  | .vnegI x1 x2 x3 x4 x5 x6 => Sys2Proof.Machine.execVnegI x1 x2 x3 x4 x5 x6 s
  | .vclz x1 x2 x3 x4 x5 => Sys2Proof.Machine.execVclz x1 x2 x3 x4 x5 s
  | .vffs x1 x2 x3 x4 x5 => Sys2Proof.Machine.execVffs x1 x2 x3 x4 x5 s
  | .vpopc x1 x2 x3 x4 x5 => Sys2Proof.Machine.execVpopc x1 x2 x3 x4 x5 s
  | .vcmpEqI x1 x2 x3 x4 x5 x6 => Sys2Proof.Machine.execVcmpEqI x1 x2 x3 x4 x5 x6 s
  | .vcmpLtI x1 x2 x3 x4 x5 x6 => Sys2Proof.Machine.execVcmpLtI x1 x2 x3 x4 x5 x6 s
  | .vcmpLeI x1 x2 x3 x4 x5 x6 => Sys2Proof.Machine.execVcmpLeI x1 x2 x3 x4 x5 x6 s
  | .vredI x1 x2 x3 x4 x5 x6 => Sys2Proof.Machine.execVredI x1 x2 x3 x4 x5 x6 s
  | .vmaxe x1 x2 x3 x4 x5 x6 => Sys2Proof.Machine.execVmaxe x1 x2 x3 x4 x5 x6 s
  | .vexps x1 x2 x3 x4 x5 x6 => Sys2Proof.Machine.execVexps x1 x2 x3 x4 x5 x6 s
  | .vsel x1 x2 x3 x4 x5 x6 => Sys2Proof.Machine.execVsel x1 x2 x3 x4 x5 x6 s
  | .vshuf x1 x2 x3 x4 x5 x6 => Sys2Proof.Machine.execVshuf x1 x2 x3 x4 x5 x6 s
  | .vdup x1 x2 x3 x4 x5 x6 => Sys2Proof.Machine.execVdup x1 x2 x3 x4 x5 x6 s
  | .vcvtFromFloat x1 x2 x3 x4 x5 x6 x7 x8 => Sys2Proof.Machine.execVcvtFromFloat x1 x2 x3 x4 x5 x6 x7 x8 s
  | .vcvtFromInt x1 x2 x3 x4 x5 x6 x7 x8 x9 => Sys2Proof.Machine.execVcvtFromInt x1 x2 x3 x4 x5 x6 x7 x8 x9 s
  | .vcvtWidenF8 x1 x2 x3 x4 x5 x6 => Sys2Proof.Machine.execVcvtWidenF8 x1 x2 x3 x4 x5 x6 s
  | .mpush x1 x2 x3 x4 => Sys2Proof.Machine.execMpush x1 x2 x3 x4 s
  | .mhad x1 x2 x3 x4 => Sys2Proof.Machine.execMhad x1 x2 x3 x4 s
  | .msta x1 x2 x3 x4 x5 => Sys2Proof.Machine.execMsta x1 x2 x3 x4 x5 s
  | .mzero x1 x2 x3 => Sys2Proof.Machine.execMzero x1 x2 x3 s
  | .mfs x1 x2 x3 => Sys2Proof.Machine.execMfs x1 x2 x3 s
  | .mts x1 x2 x3 => Sys2Proof.Machine.execMts x1 x2 x3 s
  | .maccF64 x1 x2 x3 x4 x5 x6 x7 => Sys2Proof.Machine.execMaccF64 x1 x2 x3 x4 x5 x6 x7 s
  | .maccF32 x1 x2 x3 x4 x5 x6 x7 => Sys2Proof.Machine.execMaccF32 x1 x2 x3 x4 x5 x6 x7 s
  | .maccF16 x1 x2 x3 x4 x5 x6 x7 => Sys2Proof.Machine.execMaccF16 x1 x2 x3 x4 x5 x6 x7 s
  | .maccB16 x1 x2 x3 x4 x5 x6 x7 => Sys2Proof.Machine.execMaccB16 x1 x2 x3 x4 x5 x6 x7 s
  | .maccF8e4 x1 x2 x3 x4 x5 x6 x7 => Sys2Proof.Machine.execMaccF8e4 x1 x2 x3 x4 x5 x6 x7 s
  | .maccF8e5 x1 x2 x3 x4 x5 x6 x7 => Sys2Proof.Machine.execMaccF8e5 x1 x2 x3 x4 x5 x6 x7 s
  | .maccI8 x1 x2 x3 x4 x5 x6 => Sys2Proof.Machine.execMaccI8 x1 x2 x3 x4 x5 x6 s
  | .maccN8 x1 x2 x3 x4 x5 x6 => Sys2Proof.Machine.execMaccN8 x1 x2 x3 x4 x5 x6 s
  | .maccaF64 x1 x2 x3 x4 x5 x6 x7 x8 => Sys2Proof.Machine.execMaccaF64 x1 x2 x3 x4 x5 x6 x7 x8 s
  | .maccaF32 x1 x2 x3 x4 x5 x6 x7 x8 => Sys2Proof.Machine.execMaccaF32 x1 x2 x3 x4 x5 x6 x7 x8 s
  | .maccaF16 x1 x2 x3 x4 x5 x6 x7 x8 => Sys2Proof.Machine.execMaccaF16 x1 x2 x3 x4 x5 x6 x7 x8 s
  | .maccaB16 x1 x2 x3 x4 x5 x6 x7 x8 => Sys2Proof.Machine.execMaccaB16 x1 x2 x3 x4 x5 x6 x7 x8 s
  | .maccaF8e4 x1 x2 x3 x4 x5 x6 x7 x8 => Sys2Proof.Machine.execMaccaF8e4 x1 x2 x3 x4 x5 x6 x7 x8 s
  | .maccaF8e5 x1 x2 x3 x4 x5 x6 x7 x8 => Sys2Proof.Machine.execMaccaF8e5 x1 x2 x3 x4 x5 x6 x7 x8 s
  | .maccaI8 x1 x2 x3 x4 x5 x6 x7 => Sys2Proof.Machine.execMaccaI8 x1 x2 x3 x4 x5 x6 x7 s
  | .maccaN8 x1 x2 x3 x4 x5 x6 x7 => Sys2Proof.Machine.execMaccaN8 x1 x2 x3 x4 x5 x6 x7 s
  | .mdrainF32F32 x1 x2 x3 x4 x5 x6 x7 => Sys2Proof.Machine.execMdrainF32F32 x1 x2 x3 x4 x5 x6 x7 s
  | .mdrainF32F16 x1 x2 x3 x4 x5 x6 x7 => Sys2Proof.Machine.execMdrainF32F16 x1 x2 x3 x4 x5 x6 x7 s
  | .mdrainF32B16 x1 x2 x3 x4 x5 x6 x7 => Sys2Proof.Machine.execMdrainF32B16 x1 x2 x3 x4 x5 x6 x7 s
  | .mdrainF32F8e4 x1 x2 x3 x4 x5 x6 x7 => Sys2Proof.Machine.execMdrainF32F8e4 x1 x2 x3 x4 x5 x6 x7 s
  | .mdrainF32F8e5 x1 x2 x3 x4 x5 x6 x7 => Sys2Proof.Machine.execMdrainF32F8e5 x1 x2 x3 x4 x5 x6 x7 s
  | .mdrainF64F64 x1 x2 x3 x4 x5 x6 x7 => Sys2Proof.Machine.execMdrainF64F64 x1 x2 x3 x4 x5 x6 x7 s
  | .mdrainF64F32 x1 x2 x3 x4 x5 x6 x7 => Sys2Proof.Machine.execMdrainF64F32 x1 x2 x3 x4 x5 x6 x7 s
  | .mdrainI32I32 x1 x2 x3 x4 x5 => Sys2Proof.Machine.execMdrainI32I32 x1 x2 x3 x4 x5 s
  | .mdrainI32I16 x1 x2 x3 x4 x5 => Sys2Proof.Machine.execMdrainI32I16 x1 x2 x3 x4 x5 s
  | .mdrainI32I8 x1 x2 x3 x4 x5 => Sys2Proof.Machine.execMdrainI32I8 x1 x2 x3 x4 x5 s
  | .act x1 x2 x3 x4 => Sys2Proof.Machine.execAct x1 x2 x3 x4 s
  | .actw x1 x2 x3 x4 => Sys2Proof.Machine.execActw x1 x2 x3 x4 s
  | .rd x1 x2 x3 x4 x5 => Sys2Proof.Machine.execRd x1 x2 x3 x4 x5 s
  | .wr x1 x2 x3 x4 x5 => Sys2Proof.Machine.execWr x1 x2 x3 x4 x5 s
  | .pre x1 x2 x3 => Sys2Proof.Machine.execPre x1 x2 x3 s
  | .prea x1 x2 => Sys2Proof.Machine.execPrea x1 x2 s
  | .ref x1 x2 => Sys2Proof.Machine.execRef x1 x2 s
  | .refb x1 x2 x3 => Sys2Proof.Machine.execRefb x1 x2 x3 s
  | .sgen x1 x2 x3 x4 x5 => Sys2Proof.Machine.execSgen x1 x2 x3 x4 x5 s
  | .sgenb x1 x2 x3 x4 x5 => Sys2Proof.Machine.execSgenb x1 x2 x3 x4 x5 s
  | .sregen x1 x2 x3 x4 x5 => Sys2Proof.Machine.execSregen x1 x2 x3 x4 x5 s
  | .sand x1 x2 x3 x4 x5 x6 => Sys2Proof.Machine.execSand x1 x2 x3 x4 x5 x6 s
  | .sor x1 x2 x3 x4 x5 x6 => Sys2Proof.Machine.execSor x1 x2 x3 x4 x5 x6 s
  | .sxor x1 x2 x3 x4 x5 x6 => Sys2Proof.Machine.execSxor x1 x2 x3 x4 x5 x6 s
  | .sxnor x1 x2 x3 x4 x5 x6 => Sys2Proof.Machine.execSxnor x1 x2 x3 x4 x5 x6 s
  | .smux x1 x2 x3 x4 x5 x6 x7 => Sys2Proof.Machine.execSmux x1 x2 x3 x4 x5 x6 x7 s
  | .snot x1 x2 x3 x4 => Sys2Proof.Machine.execSnot x1 x2 x3 x4 s
  | .smov x1 x2 x3 x4 => Sys2Proof.Machine.execSmov x1 x2 x3 x4 s
  | .sdly x1 x2 x3 x4 x5 => Sys2Proof.Machine.execSdly x1 x2 x3 x4 x5 s
  | .scnt x1 x2 x3 x4 x5 => Sys2Proof.Machine.execScnt x1 x2 x3 x4 x5 s
  | .scls x1 x2 x3 => Sys2Proof.Machine.execScls x1 x2 x3 s
  | .sld x1 x2 x3 x4 => Sys2Proof.Machine.execSld x1 x2 x3 x4 s
  | .sst x1 x2 x3 x4 => Sys2Proof.Machine.execSst x1 x2 x3 x4 s
  | .ldv x1 x2 x3 x4 => Sys2Proof.Machine.execLdv x1 x2 x3 x4 s
  | .stv x1 x2 x3 x4 => Sys2Proof.Machine.execStv x1 x2 x3 x4 s
  | .send x1 x2 x3 => Sys2Proof.Machine.execSend x1 x2 x3 s
  | .recv x1 x2 x3 => Sys2Proof.Machine.execRecv x1 x2 x3 s
  | .croute x1 x2 => Sys2Proof.Machine.execCroute x1 x2 s
  | .bcopy x1 x2 x3 x4 x5 x6 => Sys2Proof.Machine.execBcopy x1 x2 x3 x4 x5 x6 s
  | .bgath x1 x2 x3 x4 => Sys2Proof.Machine.execBgath x1 x2 x3 x4 s
  | .bscat x1 x2 x3 => Sys2Proof.Machine.execBscat x1 x2 x3 s
  | .breda x1 x2 x3 x4 x5 x6 => Sys2Proof.Machine.execBreda x1 x2 x3 x4 x5 x6 s
  | .batom x1 x2 x3 x4 x5 => Sys2Proof.Machine.execBatom x1 x2 x3 x4 x5 s
  | .bfence x1 x2 x3 x4 => Sys2Proof.Machine.execBfence x1 x2 x3 x4 s
  | .bmark x1 x2 x3 => Sys2Proof.Machine.execBmark x1 x2 x3 s
  | .bseal x1 x2 x3 => Sys2Proof.Machine.execBseal x1 x2 x3 s
  | .bopen x1 x2 x3 => Sys2Proof.Machine.execBopen x1 x2 x3 s
  | .resultLand x1 => Sys2Proof.Machine.execResultLand x1 s
  | .barrierRelease x1 x2 => Sys2Proof.Machine.execBarrierRelease x1 x2 s
  | .waitEnd x1 => Sys2Proof.Machine.execWaitEnd x1 s
  | .holdTakeEffect x1 => Sys2Proof.Machine.execHoldTakeEffect x1 s
  | .gangResume x1 => Sys2Proof.Machine.execGangResume x1 s
  | .refreshDue x1 x2 => Sys2Proof.Machine.execRefreshDue x1 x2 s
  | .refreshGuard x1 => Sys2Proof.Machine.execRefreshGuard x1 s
  | .spareExhaustionDrain x1 => Sys2Proof.Machine.execSpareExhaustionDrain x1 s
  | .cutRequest x1 x2 => Sys2Proof.Machine.execCutRequest x1 x2 s
  | .cutInstant x1 => Sys2Proof.Machine.execCutInstant x1 s
  | .drainRowCopy x1 x2 => Sys2Proof.Machine.execDrainRowCopy x1 x2 s
  | .variantSwap x1 => Sys2Proof.Machine.execVariantSwap x1 s
  | .bondLaneRepair x1 => Sys2Proof.Machine.execBondLaneRepair x1 s
  | .preemptionSave x1 => Sys2Proof.Machine.execPreemptionSave x1 s
  | .preemptionRestore x1 => Sys2Proof.Machine.execPreemptionRestore x1 s
  | .trapSignal x1 => Sys2Proof.Machine.execTrapSignal x1 s
  | .bargeCommandStart x1 x2 => Sys2Proof.Machine.execBargeCommandStart x1 x2 s
  | .bargePiece x1 x2 x3 => Sys2Proof.Machine.execBargePiece x1 x2 x3 s
  | .bargeCompletion x1 x2 => Sys2Proof.Machine.execBargeCompletion x1 x2 s
  | .lookasideWalk x1 x2 x3 => Sys2Proof.Machine.execLookasideWalk x1 x2 x3 s
  | .mmpMissFill x1 x2 x3 => Sys2Proof.Machine.execMmpMissFill x1 x2 x3 s
  | .hostFrameReply x1 x2 x3 => Sys2Proof.Machine.execHostFrameReply x1 x2 x3 s
  | .shootdown x1 x2 x3 x4 => Sys2Proof.Machine.execShootdown x1 x2 x3 x4 s
  | .sealChange x1 x2 => Sys2Proof.Machine.execSealChange x1 x2 s
  | .canalRowArrive x1 => Sys2Proof.Machine.execCanalRowArrive x1 s
  | .receiveOverrun x1 x2 => Sys2Proof.Machine.execReceiveOverrun x1 x2 s
  | .crossingUnit x1 x2 => Sys2Proof.Machine.execCrossingUnit x1 x2 s
  | .crossingTraining x1 x2 x3 x4 x5 => Sys2Proof.Machine.execCrossingTraining x1 x2 x3 x4 x5 s
  | .sarpolFlit x1 x2 x3 => Sys2Proof.Machine.execSarpolFlit x1 x2 x3 s
  | .doorbellWrite x1 x2 => Sys2Proof.Machine.execDoorbellWrite x1 x2 s
  | .queueMap x1 x2 => Sys2Proof.Machine.execQueueMap x1 x2 s
  | .watchFire x1 => Sys2Proof.Machine.execWatchFire x1 s
  | .kickObserve x1 => Sys2Proof.Machine.execKickObserve x1 s
  | .queueSramWrite x1 x2 => Sys2Proof.Machine.execQueueSramWrite x1 x2 s
  | .pcieFetchadd x1 x2 => Sys2Proof.Machine.execPcieFetchadd x1 x2 s
  | .pcieCas x1 x2 x3 => Sys2Proof.Machine.execPcieCas x1 x2 x3 s
  | .slotTake x1 => Sys2Proof.Machine.execSlotTake x1 s
  | .nopPacket x1 => Sys2Proof.Machine.execNopPacket x1 s
  | .launchPacket x1 => Sys2Proof.Machine.execLaunchPacket x1 s
  | .waitPacket x1 => Sys2Proof.Machine.execWaitPacket x1 s
  | .waitPacketEnd x1 => Sys2Proof.Machine.execWaitPacketEnd x1 s
  | .graphEntryFree x1 => Sys2Proof.Machine.execGraphEntryFree x1 s
  | .dispatchStep => Sys2Proof.Machine.execDispatchStep s
  | .priorityAging x1 => Sys2Proof.Machine.execPriorityAging x1 s
  | .loaderLoad x1 => Sys2Proof.Machine.execLoaderLoad x1 s
  | .gangStart x1 => Sys2Proof.Machine.execGangStart x1 s
  | .taskComplete x1 => Sys2Proof.Machine.execTaskComplete x1 s
  | .launchCompletionRecord x1 => Sys2Proof.Machine.execLaunchCompletionRecord x1 s
  | .lkcmdNoop x1 => Sys2Proof.Machine.execLkcmdNoop x1 s
  | .lkcmdCancel x1 => Sys2Proof.Machine.execLkcmdCancel x1 s
  | .lkcmdRelease x1 => Sys2Proof.Machine.execLkcmdRelease x1 s
  | .lkcmdRead x1 => Sys2Proof.Machine.execLkcmdRead x1 s
  | .lkcmdRetry x1 => Sys2Proof.Machine.execLkcmdRetry x1 s
  | .lkcmdAssign x1 => Sys2Proof.Machine.execLkcmdAssign x1 s
  | .lkcmdResume x1 => Sys2Proof.Machine.execLkcmdResume x1 s
  | .lkcmdReplan x1 => Sys2Proof.Machine.execLkcmdReplan x1 s
  | .lkcmdDispatch x1 => Sys2Proof.Machine.execLkcmdDispatch x1 s
  | .lkcmdGenaddr x1 => Sys2Proof.Machine.execLkcmdGenaddr x1 s
  | .lkcmdGenrelease x1 => Sys2Proof.Machine.execLkcmdGenrelease x1 s
  | .lkcmdGenrestore x1 => Sys2Proof.Machine.execLkcmdGenrestore x1 s
  | .lkcmdUnassigned x1 => Sys2Proof.Machine.execLkcmdUnassigned x1 s
  | .trappolWrite x1 => Sys2Proof.Machine.execTrappolWrite x1 s
  | .trapqRead => Sys2Proof.Machine.execTrapqRead s
  | .plcmdDeviceReset x1 => Sys2Proof.Machine.execPlcmdDeviceReset x1 s
  | .registerWrite x1 x2 x3 => Sys2Proof.Machine.execRegisterWrite x1 x2 x3 s
  | .deviceReset => Sys2Proof.Machine.execDeviceReset s
  | .temperatureSample x1 => Sys2Proof.Machine.execTemperatureSample x1 s
  | .throttleStep x1 x2 => Sys2Proof.Machine.execThrottleStep x1 x2 s
  | .supplyDroop => Sys2Proof.Machine.execSupplyDroop s
  | .watchdogExpiry x1 => Sys2Proof.Machine.execWatchdogExpiry x1 s
  | .controlMemoryError => Sys2Proof.Machine.execControlMemoryError s
  | .budgetPeriod => Sys2Proof.Machine.execBudgetPeriod s
  | .supplyRecovery => Sys2Proof.Machine.execSupplyRecovery s
  | .lossOfLock x1 => Sys2Proof.Machine.execLossOfLock x1 s
  | .genrestoreComplete x1 x2 => Sys2Proof.Machine.execGenrestoreComplete x1 x2 s
  | .shareSetting x1 x2 => Sys2Proof.Machine.execShareSetting x1 x2 s
  | .firmwareSlotWrite x1 x2 => Sys2Proof.Machine.execFirmwareSlotWrite x1 x2 s
  | .jobCreation x1 x2 x3 x4 => Sys2Proof.Machine.execJobCreation x1 x2 x3 x4 s
  | .partitionAllocation x1 x2 x3 x4 => Sys2Proof.Machine.execPartitionAllocation x1 x2 x3 x4 s
  | .tensorFree x1 x2 => Sys2Proof.Machine.execTensorFree x1 x2 s

end Sys2Proof.Machine
end

