-- ==== Sys2Proof/Machine/Bundle.lean ====
section
/-! DEFINITION. Issuing one bundle: decode, re-planning points, the checks of Table 3.8, and the words in slot order (R55 to R57, R79 to R82). -/

namespace Sys2Proof.Machine

/-- The instructions of a decoded bundle. -/
def decoded (ds : List (Slot × Except Reject Instr)) : List Instr :=
  ds.filterMap fun d => match d.2 with
    | .ok i => some i
    | .error _ => none

/-- The illegal words of a decoded bundle (Table 15.2). -/
def illegalWords (ds : List (Slot × Except Reject Instr)) : List IssueFault :=
  ds.filterMap fun d => match d.2 with
    | .ok _ => none
    | .error _ => some { order := 1, cause := 1, detail := 0, slot := d.1.num }

/-! ### Parity (R295) -/

/-- The scalar registers that a word reads beside its `scalars`: the destination whose low half `LIH` keeps (R380). -/
def alsoReadsScalar : Instr → List (BitVec 6)
  | .lih d _ _ => [d]
  | _ => []

/-- The vector registers that a word reads beside its `vectors`: the destination that `VFMA` and `VSEL` also read, and the counts that
`SCNT` adds to. -/
def alsoReads : Instr → List (BitVec 6)
  | .vfma _ _ _ d _ _ _ => [d]
  | .vsel _ _ d _ _ _ => [d]
  | .scnt _ _ v c _ => if c = 1 then [v] else []
  | _ => []

/-- The columns of a beat of input format `f`; with no depth it reads none. -/
def beatCols (s : State) (f : Nat) (k : BitVec 3) : Nat := if maskDepth s k = 0 then 0 else min (maskCols s k) (beatN f)

/-- The latch columns that a word reads, as 64·latch + column. -/
def readsColumns (s : State) : Instr → List Nat
  | .maccF64 l _ _ k _ _ _ => (List.range (beatCols s 0 k)).map fun j => 64 * l.toNat + j
  | .maccaF64 l _ _ _ k _ _ _ => (List.range (beatCols s 0 k)).map fun j => 64 * l.toNat + j
  | .maccF32 l _ _ k _ _ _ => (List.range (beatCols s 1 k)).map fun j => 64 * l.toNat + j
  | .maccaF32 l _ _ _ k _ _ _ => (List.range (beatCols s 1 k)).map fun j => 64 * l.toNat + j
  | .maccF16 l _ _ k _ _ _ => (List.range (beatCols s 2 k)).map fun j => 64 * l.toNat + j
  | .maccaF16 l _ _ _ k _ _ _ => (List.range (beatCols s 2 k)).map fun j => 64 * l.toNat + j
  | .maccB16 l _ _ k _ _ _ => (List.range (beatCols s 3 k)).map fun j => 64 * l.toNat + j
  | .maccaB16 l _ _ _ k _ _ _ => (List.range (beatCols s 3 k)).map fun j => 64 * l.toNat + j
  | .maccF8e4 l _ _ k _ _ _ => (List.range (beatCols s 4 k)).map fun j => 64 * l.toNat + j
  | .maccaF8e4 l _ _ _ k _ _ _ => (List.range (beatCols s 4 k)).map fun j => 64 * l.toNat + j
  | .maccF8e5 l _ _ k _ _ _ => (List.range (beatCols s 5 k)).map fun j => 64 * l.toNat + j
  | .maccaF8e5 l _ _ _ k _ _ _ => (List.range (beatCols s 5 k)).map fun j => 64 * l.toNat + j
  | .maccI8 l _ _ k _ _ => (List.range (beatCols s 6 k)).map fun j => 64 * l.toNat + j
  | .maccaI8 l _ _ _ k _ _ => (List.range (beatCols s 6 k)).map fun j => 64 * l.toNat + j
  | .maccN8 l _ _ k _ _ => (List.range (beatCols s 7 k)).map fun j => 64 * l.toNat + j
  | .maccaN8 l _ _ _ k _ _ => (List.range (beatCols s 7 k)).map fun j => 64 * l.toNat + j
  | _ => []

/-- Tag the registers of a list whose parity fails. -/
def meetParity (bad poison : Table Bool) (ns : List Nat) : Table Bool :=
  ns.foldl (fun p n => if tget false bad n then tset false p n true else p) poison

/-- The registers read are met: their parity errors are tags now. -/
def metParity (bad : Table Bool) (ns : List Nat) : Table Bool := ns.foldl (fun b n => tset false b n false) bad

/-- A word with a true predicate reads its sources: parity that fails sets the poison tag of the register or column (R295). -/
def readSources (s : State) (i : Instr) : State :=
  match useOf i with
  | none => s
  | some u =>
    if readPred s u.pr then
      let ss := ((u.scalars ++ alsoReadsScalar i).map BitVec.toNat).filter fun n => decide (n < 56)
      let vs := (((u.vectors ++ alsoReads i).map BitVec.toNat).filter fun n => decide (n < 48)).map (physV s.core.ctl.rrb)
      let ms := readsColumns s i
      s.mapRegs fun r => { r with
        sPoison := meetParity r.sBad r.sPoison ss, sBad := metParity r.sBad ss,
        vPoison := meetParity r.vBad r.vPoison vs, vBad := metParity r.vBad vs,
        mPoison := meetParity r.mBad r.mPoison ms, mBad := metParity r.mBad ms }
    else s

/-- The words of a bundle read their sources. -/
def readBundle (s : State) (ws : List Instr) : State := ws.foldl readSources s

/-! ### Re-planning points -/

/-- Is the word a true-predicate `SEG` with the re-plan mark? -/
def replanPoint (s : State) : Instr → Bool
  | .seg _ _ m p => m == 1 && readPred s p
  | _ => false

/-- Is a re-plan of the gang's job pending for the bundle at PC: the phase counts the gang, or the job's phase counter is nonzero, and the task
has not just been let go on from this very bundle (R42, R43, R152, R408)? -/
def replanPending (s : State) : Bool :=
  let g := s.gang s.core.task.gid
  g.counted || (decide ((s.job g.pasid).phaseLeft ≠ 0) && decide (s.core.ctl.passes ≠ some s.core.ctl.cyc))

/-- Does the gang stop at this bundle: a re-planning point with a re-plan pending, or with a phase cancel (R43, R152, Tables 2.2 and
2.3)? A `SEG` inside a segment is no such point, but a schedule fault (R28, R408). -/
def stopsHere (s : State) (ws : List Instr) : Bool :=
  !s.core.ctl.inseg && ws.any (replanPoint s) && (replanPending s || (s.gang s.core.task.gid).stopAt)

/-- The bundle does not issue: the gang is held there (R152), or ends there, its launch cancelled (Table 2.3). -/
def stopHere (s : State) : State :=
  let gid := s.core.task.gid
  let g := s.gang gid
  if g.stopAt then requestEnd (s.mapNode g.node fun x => { x with canceled := true }) gid (allTasks g)
  else s.requestHold gid .replan

/-! ### The words of a bundle -/

/-- Run the words of a vetted bundle in slot order. -/
def runWords : List Instr → State → Out
  | [], s => .next s
  | i :: is, s =>
    match exec i s with
    | .next t => runWords is t
    | .fault f => .fault f
    | .refused r => .refused r

/-- The state in which the words of a bundle run. -/
def openBundle (s : State) : State := { s.mapCtl (fun c => { c with npc := c.pc + 1 }) with vetted := true }

/-- The end of an issued bundle: it counts in SGSC and SGSH when a segment is open (R79), and in CYC (R27). -/
def closeBundle (s : State) : State :=
  { s.mapCtl (fun c => { c with
      sgsc := if c.inseg then c.sgsc + 1 else c.sgsc, sgsh := if c.inseg then c.sgsh + bundleCrc c.ir else c.sgsh,
      pc := c.npc, cyc := c.cyc + 1 }) with vetted := false }

/-- Run a bundle that has passed every check. -/
def runBundle (s : State) (ws : List Instr) : Out :=
  match runWords ws (openBundle (readBundle s ws)) with
  | .next t => .next (closeBundle t)
  | .fault f => .fault f
  | .refused r => .refused r

/-- A bundle that a cause suppresses (R81, R242). -/
def suppress (s : State) (f : IssueFault) : State := discardConflicts (takeTrap s f)

/-- The route image of a bundle that holds a true-predicate `CROUTE` is read at issue, before its checks (R244, R371). -/
def takeImage (s : State) : List Instr → State
  | [] => s
  | .croute c p :: ws =>
    if readPred s p then
      let r := readImage s c
      r.2.mapCanal fun x => { x with image := some r.1 }
    else takeImage s ws
  | _ :: ws => takeImage s ws

/-- A fetched bundle issues, is held at a re-planning point, or is suppressed. At a re-planning point the bundle's own words raise nothing;
a row that conflicts or overruns at the tile still does (R242, R247, R408). -/
def issueDecoded (s : State) (ds : List (Slot × Except Reject Instr)) : Out :=
  let ws := decoded ds
  if stopsHere s ws then
    .next <| match firstFault (canalFaults s []) with
      | some f => suppress s f
      | none => stopHere s
  else
    let t := takeImage s ws
    match firstFault (illegalWords ds ++ bundleFaults t ws) with
    | some f => .next (suppress s f)
    | none => runBundle t ws

/-- The tile checked out issues its next bundle. -/
def issueBundle (s : State) : Out :=
  let f := fetch s
  let s := f.2.mapCtl fun c => { c with ir := f.1.2 }
  match f.1.1 with
  | some d => .next (suppress s { order := 1, cause := 1, detail := d, slot := 15 })
  | none => issueDecoded s (decodeBundle f.1.2)

end Sys2Proof.Machine
end

