-- ==== Sys2Proof/Machine/Due.lean ====
section
/-! DEFINITION. Which event or which tile the next step takes: an entry of the agenda, an event that the clock fixes, a bundle, or
the next clock cycle (log entry 2). -/

namespace Sys2Proof.Machine

/-! ### The agenda -/

/-- Is the instruction a slot word? -/
def isWord (i : Instr) : Bool := (useOf i).isSome || i == .nop

/-- Take the first entry of the agenda whose clock has come. -/
def popAgenda (clock : Nat) : List (Nat × Instr) → Option (Instr × List (Nat × Instr))
  | [] => none
  | x :: xs =>
    if x.1 ≤ clock then some (x.2, xs)
    else (popAgenda clock xs).map fun r => (r.1, x :: r.2)

/-! ### Events that the clock fixes -/

/-- The gangs, by identifier. -/
def gangIds (s : State) : List Nat := s.gangs.map Prod.fst

/-- Tiles of the gangs that have started, in increasing number. -/
def startedTiles (s : State) : List Nat :=
  (List.range Config.tiles).filter fun n => s.gangs.any fun g => decide (g.2.life = .started) && g.2.tiles.contains n

/-- The first tile, started, for which a predicate of the tile checked out holds. -/
def tileWhere (s : State) (f : State → Bool) : Option Nat := (startedTiles s).find? fun n => f (s.select n)

/-- A gang event: a hold takes effect, a gang resumes. -/
def gangWhere (s : State) (f : Gang → Bool) : Option Nat := (gangIds s).find? fun g => f (s.gang g)

/-- The jobs whose cut is due: requested once allowed, at its instant, or at the end of its hold. -/
def cutDue (s : State) : Option Instr :=
  (s.jobs.map Prod.fst).findSome? fun p =>
    match (s.job p).cut with
    | some (.pending dev) => if cutReady s dev p then some (.cutRequest dev p) else none
    | some (.running _ t _) | some (.closing _ t) => if t ≤ s.clock then some (.cutInstant p) else none
    | none => none

/-- Does a cut take its instant now? -/
def instantDue (s : State) : Bool :=
  !booting s && s.jobs.any fun j => match j.2.cut with
    | some (.running _ t _) => decide (t ≤ s.clock)
    | _ => false

/-- A barrier phase whose release clock has come. -/
def barrierDue (s : State) : Option Instr :=
  (gangIds s).findSome? fun g =>
    ((s.gang g).releases.find? (releaseDue s (s.gang g))).map fun r => .barrierRelease g r.1

/-- A refresh that falls due on a tile. -/
def refreshDueAt (s : State) (n : Nat) : Option Instr :=
  ((List.range 64).find? (bankDue (s.select n))).map fun b => .refreshDue n b

/-- A receive latch of a waiting tile that overruns. -/
def overrunAt (s : State) (n : Nat) : Option Instr :=
  ((List.range 4).find? (overrunDue (s.select n))).map fun l => .receiveOverrun n l

/-- The event that the state itself brings now: results of the tile checked out land before anything else happens. -/
def dueEvent (s : State) : Option Instr :=
  if resultDue s then some (.resultLand s.cur)
  else (gangWhere s (holdDue s)).map Instr.holdTakeEffect
    <|> cutDue s
    <|> (gangWhere s (resumeDue s)).map Instr.gangResume
    <|> barrierDue s
    <|> (if sampleDue s then some (.temperatureSample s.platform.sensors) else none)
    <|> (startedTiles s).findSome? (refreshDueAt s)
    <|> (tileWhere s fun t => guardEnds t || guardStarts t || guardMoot t).map Instr.refreshGuard
    <|> (tileWhere s spareOverdue).map Instr.spareExhaustionDrain
    <|> (gangWhere s (swapOverdue s)).map Instr.variantSwap
    <|> ((gangIds s).find? (drawBackDue s)).map Instr.preemptionSave
    <|> ((List.range Config.tiles).find? (repairDue s)).map Instr.bondLaneRepair
    <|> (tileWhere s waitOver).map Instr.waitEnd
    <|> (tileWhere s routerDue).map Instr.canalRowArrive
    <|> (startedTiles s).findSome? (overrunAt s)
    <|> (tileWhere s taskDue).map Instr.taskComplete
    <|> (if controlRuns s then (s.lk.order.find? (agingDue s)).map Instr.priorityAging else none)
    <|> (watchdogDue s).map Instr.watchdogExpiry

/-! ### Issue and the clock -/

/-- May a tile issue a bundle: its task runs, and its gang has started and is not held? -/
def canIssue (s : State) (n : Nat) : Bool :=
  let t := s.tile n
  let g := s.gang t.task.gid
  decide (t.ctl.status = .running) && decide (g.life = .started) && !g.held

/-- The next tile that issues on this clock cycle: tiles issue in increasing number. -/
def nextTile (s : State) : Option Nat :=
  (List.range Config.tiles).find? fun n => decide (s.turn ≤ n) && canIssue s n

/-- The next clock cycle begins: the one that ends counts in STRCNT when it was stretched, and time goes on (R307, Table 14.3). -/
def tick (s : State) : State :=
  let k := stretchOf s s.clock
  { s with
    clock := s.clock + 1, turn := 0,
    platform := { s.platform with
      stretched := s.platform.stretched + (if k = 0 then 0 else 1), halves := s.platform.halves + cycleHalves k } }

/-- Check tile `n` out to issue on this clock cycle. -/
def openTurn (s : State) (n : Nat) : State := { s.select n with turn := n + 1 }

/-- A step that takes no entry of the agenda: a step of the reset sequence (R300), an event that is due, a bundle, or the next clock
cycle. -/
def advance (s : State) : Out :=
  if booting s then .next (bootStep s)
  else
    match dueEvent s with
    | some i => exec i s
    | none =>
      match nextTile s with
      | some n => issueBundle (openTurn s n)
      | none => .next (tick s)

/-- One step. A cut takes its instant before anything else of its clock cycle, what the agenda brings included (R228, R229). A slot word
in the agenda is dropped. -/
def stepState (s : State) : Out :=
  if instantDue s then advance s
  else
    match popAgenda s.clock s.agenda with
    | some (i, rest) => if isWord i then .next { s with agenda := rest } else exec i { s with agenda := rest }
    | none => advance s

end Sys2Proof.Machine
end

