-- ==== Sys2Proof/Machine/Step.lean ====
section
/-! DEFINITION. One step of the machine, and the placing of one word where the next step fetches it. -/

namespace Sys2Proof.Machine

/-- One step: an entry of the agenda, an event that is due, one bundle of one tile, or the next clock cycle (log entry 2). -/
def step (s : State) : Host.Outcome State Fault Refusal := stepState s

/-- The bundle that holds a word alone, in the first slot in which it is an instruction (log entry 1). -/
def wordBundle (nbits w : Nat) : Bundle :=
  if nbits = 0 ∨ 2 ^ 32 ≤ w then 0
  else
    match loneSlot (BitVec.ofNat 32 w) with
    | some x => loneBundle x.1 (BitVec.ofNat 32 w)
    | none => loneBundle .c (BitVec.ofNat 32 w)

/-- A state in which one task has just been started on tile 0, its image the one word: what queue, dispatcher, loader and gang start
do for a program, on a device that has booted (log entry 1). Nothing else is due. -/
def State.withFetchWord (s : State) (nbits w : Nat) : State :=
  { s with
    turn := 0, cur := 0, vetted := false, agenda := [], flights := [], saved := [], tiles := [],
    core := {
      ctl := { status := .running }, task := { pasid := 1, gid := 1, node := 1, vpl := 32768, ctx := 0x10000000000 },
      isram := { bundles := tset 0 [] 0 (wordBundle nbits w) } },
    gangs := [(1, { life := .started, pasid := 1, node := 1, w := 1, h := 1, startAt := s.clock })],
    jobs := [(1, { live := true, snap := true, parts := [(0, (0, 32768))] })],
    lk := { s.lk with nodes := [(1, { owner := some 1, life := .running, gid := 1, tasksLeft := 1, untriggered := 1 })], order := [] },
    platform := { s.platform with phase := 5, sampleAt := s.clock + 65536 } }

end Sys2Proof.Machine
end

