-- ==== Sys2Proof/Safety.lean ====
section
/-! DEFINITION. What counts as a safe run: the tables of the state keep their canonical form. -/

namespace Sys2Proof.Machine

/-- Every memory outside the tiles is in canonical form: addresses strictly rising, no entry equal to what an unlisted one reads as. -/
def Memory.wf (m : Mem) : Bool :=
  twf 0 m.res && twf .good m.marks && twf [] m.host && m.host.all (fun p => twf 0 p.2) && twf 0 m.qsram && twf [] m.peers &&
    m.peers.all (fun p => twf 0 p.2) && twf (0, 0) m.frames

end Sys2Proof.Machine

namespace Sys2Proof.Safety

open Sys2Proof.Machine

/-- The register files of a tile, with the lanes of its streams, are in canonical form. -/
def regsWf (r : Regs) : Bool :=
  twf 0 r.s && twf false r.sPoison && twf false r.sBad && twf false r.p && twf 0 r.v && twf false r.vPoison && twf false r.vBad &&
    twf {} r.latches && twf 0 r.acc && twf false r.accPoison && twf .good r.accMark && twf 0 r.m && twf false r.mPoison &&
    twf false r.mBad && twf {} r.q && r.q.all (fun x => twf 0 x.2.lanes) && twf 0x00400060#32 r.mks

/-- The occupied slots of a task are in canonical form. -/
def ctlWf (c : Ctl) : Bool := twf 0 c.busy && twf 0 c.mhadAt

/-- Staging is in canonical form. -/
def stagingWf (t : Staging) : Bool := twf 0 t.cells && twf false t.poison && twf .good t.marks

/-- Instruction SRAM is in canonical form. -/
def isramWf (r : Isram) : Bool := twf 0 r.bundles && twf .good r.marks

/-- A vault is in canonical form. -/
def vaultWf (v : Vault) : Bool :=
  twf 0 v.cells && twf .good v.marks && twf {} v.banks && twf {} v.channels && twf {} v.rows && twf 0 v.spares &&
    twf .good v.spareMarks && twf 0 v.drained && twf false v.lanes

/-- The canal side of a tile is in canonical form. -/
def canalWf (c : Canal) : Bool := twf 0 c.routes && twf [] c.latches && c.old.all fun o => twf 0 o.2

/-- A stream in flight is in canonical form. -/
def resultWf (r : Result) : Bool :=
  match r.eff with
  | .stream _ x => twf 0 x.lanes
  | _ => true

/-- The completion words of a tile and the order of its commands are in canonical form. -/
def bargeWf (b : Barge) : Bool := twf 0 b.words && twf 0 b.issuedBy && twf [] b.past

/-- Everything a tile holds is in canonical form. -/
def tileWf (t : Tile) : Bool :=
  ctlWf t.ctl && regsWf t.regs && t.results.all resultWf && stagingWf t.staging && isramWf t.isram && vaultWf t.vault && canalWf t.canal && bargeWf t.barge

/-- The fabric and the platform controller are in canonical form. -/
def platformWf (f : Fabric) (p : Platform) : Bool :=
  twf {} f.crossings && twf 0 f.replays && twf false f.down && twf [] f.shares && twf false p.droops && twf 0 p.grades &&
    twf 0 p.hottest && twf 0 p.coolSamples && twf 0 p.coreServed

/-- A table of tensor descriptors is in canonical form. -/
def descsWf (t : Table Desc) : Bool := twf {} t && t.all fun x => twf 0 x.2.moved

/-- What a closed generation names is in canonical form. -/
def genWf (g : Gen) : Bool := twf {} g.images && descsWf g.descs

/-- The partitions, tensors, peers and generations of a job are in canonical form. -/
def jobWf (j : Job) : Bool := twf (0, 0) j.parts && descsWf j.tensors && twf 0 j.peers && j.gens.all genWf

/-- The state is in canonical form: every memory, every register file and every table of the tiles, gangs, jobs, nodes, threads, links
and sensors. -/
def wf (s : State) : Bool :=
  Memory.wf s.mem && tileWf s.core && twf {} s.tiles && s.tiles.all (fun t => tileWf t.2) &&
    twf {} s.saved && s.saved.all (fun t => tileWf t.2) && twf {} s.gangs && s.gangs.all (fun g => twf {} g.2.barriers) &&
    twf {} s.jobs && s.jobs.all (fun j => jobWf j.2) && twf {} s.lk.nodes && s.lk.nodes.all (fun n => twf none n.2.last) &&
    twf {} s.lk.threads && platformWf s.fabric s.platform

/-- A run is safe while each step answers a next state. -/
def runsSafely : Nat → State → Prop
  | 0, _ => True
  | k + 1, s => ∃ t, step s = .next t ∧ runsSafely k t

end Sys2Proof.Safety
end

