-- ==== Sys2Proof/Certificates/Slice0/Obligations.lean ====
section
/-! DEFINITION. The statements for the provers, and the vocabulary they share: what it means that a word executes, what it queues,
and what it leaves alone. -/

namespace Sys2Proof.Claims

open Sys2Proof Sys2Proof.Machine

/-! ### When a slot word takes its full effect, and what it queues -/

/-- A slot word with predicate field `p` takes its full effect: it stands in a bundle that has passed every check of Table 3.8, or it
stands alone and no cause applies to it; and its predicate reads 1 (R57, R81). -/
def Runs (i : Instr) (p : BitVec 3) (s : State) : Prop :=
  (s.vetted = true ∨ bundleFaults s [i] = []) ∧ readPred s p = true

/-- The word, alone in a bundle, raises a cause with a DETAIL (Table 3.8, R283). -/
abbrev Raises (s : State) (i : Instr) (cause detail : Nat) : Prop := ∃ f ∈ bundleFaults s [i], f.cause = cause ∧ f.detail = detail

/-- The state that differs from `s` in nothing but results added behind those in flight. -/
def queued (s : State) (rs : List Result) : State := { s with core := { s.core with results := s.core.results ++ rs } }

/-- A result readable `lat` cycles after the bundle now issuing (R58). -/
def due (s : State) (lat : Nat) (e : Effect) : Result := { ready := s.core.ctl.cyc + lat, eff := e }

/-- A scalar result of slot `n`: its register, unless the code is 0, and its latch (R63 to R65). -/
def scalarOut (s : State) (n lat : Nat) (d : BitVec 6) (x : Scalar) (bad : Bool) : List Result :=
  (if d = 0 then [] else [due s lat (.scalar d.toNat x bad)]) ++ [due s lat (.latch n false true (x.zeroExtend 768) bad)]

/-- A vector result of slot `n`: its register as renamed at issue, unless the code is 63, and its latch (R60, R63 to R65). -/
def vectorOut (s : State) (n lat : Nat) (d : BitVec 6) (x : Row) (bad : Bool) : List Result :=
  (if d = 63 then [] else [due s lat (.vector (physV s.core.ctl.rrb d.toNat) x bad)]) ++ [due s lat (.latch n true true x bad)]

/-- The flags of a result, if it raises any (R74). -/
def flagsOut (s : State) (lat : Nat) (f : Flags) : List Result := if f = 0 then [] else [due s lat (.flags f)]

/-- A predicate result: p0 discards it (R68). -/
def predOut (s : State) (d : BitVec 3) (b : Bool) : List Result :=
  if d = 0 then [] else [due s 1 (.pred (physP s.core.ctl.rrb d.toNat) b)]

/-- The slot is occupied for the beats of a multi-beat word (R61). -/
def busyFor (s : State) (slot beats : Nat) : State :=
  { s with core := { s.core with ctl := { s.core.ctl with
      busy := if 1 < beats then tset 0 s.core.ctl.busy slot (s.core.ctl.cyc + beats) else s.core.ctl.busy } } }

/-- The next bundle to issue is the one named (R56). -/
def goTo (s : State) (t : Nat) : State := { s with core := { s.core with ctl := { s.core.ctl with npc := t } } }

/-- The verdict of the task rises to tainted when `b` holds; nothing else changes (R293). -/
def tainted (s : State) (b : Bool) : State :=
  { s with core := { s.core with ctl := { s.core.ctl with
      verdict := if b then s.core.ctl.verdict.worst .tainted else s.core.ctl.verdict } } }

/-! ### Rows by element -/

/-- Element `j` of `w` bytes of a row (R69). -/
def lane (w : Nat) (x : Row) (j : Nat) : Nat := elemAt w x.toNat j

/-- Every element of a row is the one that `f` names, taken modulo its width. -/
def Lanes (w : Nat) (row : Row) (f : Nat → Nat) : Prop := ∀ j, j < 96 / w → lane w row j = f j % 2 ^ (8 * w)

/-- The union of the flags that the elements below `n` raise. -/
def lanesFlags (n : Nat) (f : Nat → Flags) : Flags := (List.range n).foldl (fun a j => a ||| f j) 0

/-- A V-slot word is done: it queues a row that meets a condition together with its flags, poisoned as `bad` says, and occupies its
slot for its beats. -/
def VecDone (i : Instr) (s : State) (u : VSlot) (d : BitVec 6) (lat beats : Nat) (bad : Bool) (ok : Row → Flags → Prop) : Prop :=
  ∃ row fl, ok row fl ∧
    exec i s = .next (queued (busyFor s (vslot u).num beats) (vectorOut s (vslot u).num lat d row bad ++ flagsOut s lat fl))

/-- The two ways to narrow an exact integer to an element of width code `w` (R96). -/
def narrowed (w : BitVec 3) (sat : Bool) (x : Int) : Nat := narrow sat (signedOf w) (bitsOf w) x

/-- The integer that element `j` of a row spells under width code `w` (R438). -/
def intLane (w : BitVec 3) (x : Row) (j : Nat) : Int := readInt (signedOf w) (bitsOf w) (lane (widthOf w) x j)

/-! ### Staging -/

/-- The staging address that a base register and an offset name, on a boundary of `align` bytes (R177, R320). -/
def stageAt (s : State) (a : BitVec 6) (off align : Nat) : Nat :=
  ((readScalar s a).1.toNat % 2 ^ 20 + off) % 2 ^ 20 / align * align

/-- The state after a core read of `n` bytes at `a`, and what it returned (R177, R213). -/
def loaded (s : State) (b : BitVec 6) (a n : Nat) : (Nat × Bool) × State := stageLoad (tainted s (readScalar s b).2) a n

/-- No unit of `n` bytes at `a` holds an error or an unordered landing of a barge. -/
def Plain (s : State) (a n : Nat) : Prop :=
  ∀ u ∈ unitsOf a n, tget .good s.core.staging.marks u = .good ∧ ∀ x ∈ s.core.staging.unseen, x.unit ≠ u

/-! ### Waits and barriers -/

/-- The arrivals of a barrier's phase after one more, with the count that the first arrival fixed: the phase goes on, or it is
complete and its release is set 24 cycles later, plus the padded latency of a gang that spans packages (R31, R32). -/
def arrived (s : State) (b c : Nat) : State :=
  let g := s.gang s.core.task.gid
  let x := tget {} g.barriers b
  let need := if x.need = 0 then c else x.need
  s.mapGang s.core.task.gid fun _ =>
    if x.arrived + 1 < need then { g with barriers := tset {} g.barriers b { x with need := need, arrived := x.arrived + 1 } }
    else { g with barriers := tset {} g.barriers b { need := 0, arrived := 0, phase := x.phase + 1 },
                  releases := g.releases ++ [(b, x.phase, s.clock + 24 + g.pad)] }

/-- The task waits at the bundle now issuing (R29). -/
def waits (s : State) (w : WaitFor) (met : Option Nat) : State :=
  { s with core := { s.core with ctl := { s.core.ctl with
      status := .waiting, wait := some { on := w, pc := s.core.ctl.pc, met := met } } } }

/-- The command that most recently produced a token, and its completion word (R75). -/
def tokenCmd (s : State) (k : BitVec 6) : Nat := tget 0 s.core.barge.issuedBy k.toNat - 1

/-- See `tokenCmd`. -/
def cmdWord (s : State) (id : Nat) : Nat := (tget 0 s.core.barge.words id).toNat

/-! ### Float rows -/

/-- The width in bytes of the elements of float format `f` (Table 4.1). -/
def fw (f : BitVec 2) : Nat := (fmtOf f.toNat).bytes

/-- Every element and the flags of a float row are those of an element function. -/
def FloatRow (f : BitVec 2) (g : Nat → Nat × Flags) (row : Row) (fl : Flags) : Prop :=
  Lanes (fw f) row (fun j => (g j).1) ∧ fl = lanesFlags (96 / fw f) fun j => (g j).2

/-- A converted row: as many elements as both formats hold, the rest of the destination zero (R436). -/
def Converted (ws wd : Nat) (x : Row) (g : Nat → Nat × Flags) (row : Row) (fl : Flags) : Prop :=
  (∀ j, j < 96 / wd → lane wd row j = if j < 96 / ws then (g (lane ws x j)).1 % 2 ^ (8 * wd) else 0) ∧
  fl = lanesFlags (min (96 / ws) (96 / wd)) fun j => (g (lane ws x j)).2

/-! ### Float formats, apart from the model's own functions -/

/-- Exponent bits, fraction bits and bias of a float format by its code (Tables 4.1 and 4.2). -/
def expBits (c : Nat) : Nat := [11, 8, 5, 8, 4, 5].getD c 0
/-- See `expBits`. -/
def fracBits (c : Nat) : Nat := [52, 23, 10, 7, 3, 2].getD c 0
/-- See `expBits`. -/
def expBias (c : Nat) : Nat := [1023, 127, 15, 127, 8, 15].getD c 0

/-- The largest exponent field, that of infinities and NaNs. -/
def expTop (c : Nat) : Nat := 2 ^ expBits c - 1
/-- The exponent field of a pattern. -/
def expField (c x : Nat) : Nat := x / 2 ^ fracBits c % 2 ^ expBits c
/-- The fraction field of a pattern. -/
def fracField (c x : Nat) : Nat := x % 2 ^ fracBits c
/-- The sign bit of a pattern. -/
def negAt (c x : Nat) : Bool := x.testBit (expBits c + fracBits c)
/-- The pattern of a sign, an exponent field and a fraction field. -/
def floatBits (c : Nat) (s : Bool) (ex fr : Nat) : Nat := s.toNat * 2 ^ (expBits c + fracBits c) + ex * 2 ^ fracBits c + fr

/-- NaNs, signalling NaNs and infinities (R86). -/
def nanAt (c x : Nat) : Bool := expField c x == expTop c && fracField c x != 0
/-- See `nanAt`. -/
def signalAt (c x : Nat) : Bool := nanAt c x && decide (fracField c x < 2 ^ (fracBits c - 1))
/-- See `nanAt`. -/
def infAt (c x : Nat) : Bool := expField c x == expTop c && fracField c x == 0
/-- The default NaN (R90). -/
def defaultNan (c : Nat) : Nat := floatBits c false (expTop c) (2 ^ (fracBits c - 1))

/-- The exponent of the least subnormal. -/
def unitExp (c : Nat) : Int := 1 - (expBias c : Int) - (fracBits c : Int)
/-- The magnitude of a pattern in units of the least subnormal (R86); an infinity lies above every finite value. -/
def magAt (c x : Nat) : Nat := if expField c x = 0 then fracField c x else (2 ^ fracBits c + fracField c x) * 2 ^ (expField c x - 1)
/-- A signed count of the same units: patterns that are no NaN compare as these do (R433). -/
def unitsAt (c x : Nat) : Int := if negAt c x then -(magAt c x : Int) else magAt c x
/-- A finite pattern of the format. -/
def finiteAt (c x : Nat) : Prop := x < 2 ^ (1 + expBits c + fracBits c) ∧ expField c x ≠ expTop c

/-- Rounding codes that round a value of sign `s` towards zero, and away from it (Table 4.4). -/
def inward (rm : Nat) (s : Bool) : Bool := rm == 1 || (rm == 2 && !s) || (rm == 3 && s)
/-- See `inward`. -/
def outward (rm : Nat) (s : Bool) : Bool := (rm == 2 && s) || (rm == 3 && !s)

/-- The distance of two numbers. -/
def apartBy (a b : Nat) : Nat := (a - b) + (b - a)

/-- A pattern and its flags are ±m·2^e rounded into format `c` by code `rm` (R93 to R95, R98): the infinity or the largest finite value
of Table 4.5 with OFL and INX beyond the range; otherwise the finite value on the side that the code names, or the nearest one, that
no other finite value comes closer than, a tie going to the even pattern or away from zero; INX when it differs from the value, with
UFL when the value is tiny. -/
def Rounded (c rm : Nat) (sat s : Bool) (m : Nat) (e : Int) (r : Nat × Flags) : Prop :=
  let u := min e (unitExp c)
  let x := m * 2 ^ (e - u).toNat
  let k := 2 ^ (unitExp c - u).toNat
  let big := (2 ^ (fracBits c + 1) - 1) * 2 ^ (expTop c - 2)
  let above := 2 ^ (fracBits c + 1) * 2 ^ (expTop c - 2)
  let beyond : Prop := if inward rm s then above * k ≤ x else if outward rm s then big * k < x else (big + above) * k ≤ 2 * x
  let y := magAt c r.1
  (beyond → r = (if sat || inward rm s then floatBits c s (expTop c - 1) (2 ^ fracBits c - 1) else floatBits c s (expTop c) 0, 20)) ∧
  (¬ beyond → finiteAt c r.1 ∧ negAt c r.1 = s ∧
    (inward rm s = true → y * k ≤ x ∧ ∀ z, finiteAt c z → magAt c z * k ≤ x → magAt c z ≤ y) ∧
    (outward rm s = true → x ≤ y * k ∧ ∀ z, finiteAt c z → x ≤ magAt c z * k → y ≤ magAt c z) ∧
    (inward rm s = false → outward rm s = false → ∀ z, finiteAt c z → apartBy x (y * k) ≤ apartBy x (magAt c z * k) ∧
      (apartBy x (y * k) = apartBy x (magAt c z * k) → magAt c z ≠ y → if rm = 4 then magAt c z < y else r.1 % 2 = 0)) ∧
    r.2 = if y * k = x then 0 else if x < 2 ^ fracBits c * k then 24 else 16)

/-- The real number that a finite pattern spells (R86). -/
def Spells (c x : Nat) (v : ℝ) : Prop := v = (if negAt c x then -1 else 1) * (magAt c x : ℝ) * (2 : ℝ) ^ unitExp c

/-- As `Rounded`, of a number of sign `s` and size `y` that need not be dyadic (R93 to R95, R107). -/
def RoundedReal (c rm : Nat) (s : Bool) (y : ℝ) (r : Nat × Flags) : Prop :=
  let w := (2 : ℝ) ^ unitExp c
  let at_ (z : Nat) : ℝ := (magAt c z : ℝ) * w
  let big : ℝ := ((2 ^ (fracBits c + 1) - 1) * 2 ^ (expTop c - 2) : Nat) * w
  let above : ℝ := (2 ^ (fracBits c + 1) * 2 ^ (expTop c - 2) : Nat) * w
  let beyond : Prop := if inward rm s then above ≤ y else if outward rm s then big < y else big + above ≤ 2 * y
  (beyond → r = (if inward rm s then floatBits c s (expTop c - 1) (2 ^ fracBits c - 1) else floatBits c s (expTop c) 0, 20)) ∧
  (¬ beyond → finiteAt c r.1 ∧ negAt c r.1 = s ∧
    (inward rm s = true → at_ r.1 ≤ y ∧ ∀ z, finiteAt c z → at_ z ≤ y → magAt c z ≤ magAt c r.1) ∧
    (outward rm s = true → y ≤ at_ r.1 ∧ ∀ z, finiteAt c z → y ≤ at_ z → magAt c r.1 ≤ magAt c z) ∧
    (inward rm s = false → outward rm s = false → ∀ z, finiteAt c z → |y - at_ r.1| ≤ |y - at_ z| ∧
      (|y - at_ r.1| = |y - at_ z| → magAt c z ≠ magAt c r.1 → if rm = 4 then magAt c z < magAt c r.1 else r.1 % 2 = 0)) ∧
    (at_ r.1 = y → r.2 = 0) ∧ (at_ r.1 ≠ y → y < (2 ^ fracBits c : Nat) * w → r.2 = 24) ∧
    (at_ r.1 ≠ y → (2 ^ fracBits c : Nat) * w ≤ y → r.2 = 16))

/-- A positive finite pattern within one ulp of a positive number, at or below it when rounding towards zero or down, at or above it when
rounding up, exact when the number is representable, with INX otherwise (R106, R108). -/
def WithinUlp (c rm : Nat) (y : ℝ) (r : Nat × Flags) : Prop :=
  ∃ v : ℝ, finiteAt c r.1 ∧ negAt c r.1 = false ∧ Spells c r.1 v ∧
    (∀ q : ℤ, (2 : ℝ) ^ q ≤ y → y < (2 : ℝ) ^ (q + 1) → |v - y| ≤ (2 : ℝ) ^ (max q (1 - expBias c) - fracBits c)) ∧
    (rm = 1 ∨ rm = 2 → v ≤ y) ∧ (rm = 3 → y ≤ v) ∧ ((∃ z, finiteAt c z ∧ Spells c z y) → v = y) ∧
    (v = y → r.2 = 0) ∧ (v ≠ y → r.2 = 16)

/-- A finite result spells a number within `h` ulps of `y`, at most as large when rounding towards zero, at or below it when rounding down and at or above it
when rounding up (R106, R108): each apart from a part in 2^100 of `y`, and from `e`. -/
def NearUlps (c rm : Nat) (h e y : ℝ) (r : Nat × Flags) : Prop :=
  let d := |y| * (2 : ℝ) ^ (-100 : ℤ) + e
  ∃ (v : ℝ) (q : ℤ), finiteAt c r.1 ∧ Spells c r.1 v ∧ (2 : ℝ) ^ q ≤ |y| + d ∧
    |v - y| ≤ h * (2 : ℝ) ^ (max q (1 - expBias c) - fracBits c) + d ∧
    (rm = 1 → |v| ≤ |y| + d) ∧ (rm = 2 → v ≤ y + d) ∧ (rm = 3 → y ≤ v + d)

/-- A NaN of format `c`, quiet, in format `d`: sign kept, payload aligned at the top (R91, R97). -/
def carried (c d x : Nat) : Nat :=
  let fr := if fracBits c ≤ fracBits d then fracField c x * 2 ^ (fracBits d - fracBits c)
    else fracField c x / 2 ^ (fracBits c - fracBits d)
  floatBits d (negAt c x) (expTop d) (fr % 2 ^ (fracBits d - 1) + 2 ^ (fracBits d - 1))

/-- INV when it is set. -/
def invIf (b : Bool) : Flags := if b then 1 else 0

/-- A term of an exact sum, one operand or the product of two, in units of 2^-2148: its exact value, its sign, whether it is infinite,
and whether it is 0 × ∞ (R103). An operand is a format code with a pattern. -/
def termUnits : List (Nat × Nat) → Int
  | [a] => unitsAt a.1 a.2 * (2 ^ (unitExp a.1 + 2148).toNat : Nat)
  | [a, b] => unitsAt a.1 a.2 * unitsAt b.1 b.2 * (2 ^ (unitExp a.1 + unitExp b.1 + 2148).toNat : Nat)
  | _ => 0
/-- See `termUnits`. -/
def termNeg (t : List (Nat × Nat)) : Bool := t.foldl (fun s o => s != negAt o.1 o.2) false
/-- See `termUnits`. -/
def termInf (t : List (Nat × Nat)) : Bool := t.any fun o => infAt o.1 o.2
/-- See `termUnits`. -/
def termBad (t : List (Nat × Nat)) : Bool := termInf t && t.any fun o => magAt o.1 o.2 == 0

/-- A pattern and its flags are the exact sum of terms, rounded once into format `c`, with the special cases in the order of R103. -/
def SumIs (c rm : Nat) (terms : List (List (Nat × Nat))) (r : Nat × Flags) : Prop :=
  let ops := terms.flatten
  let infs := terms.filter termInf
  let sum := (terms.map termUnits).sum
  match ops.find? fun o => nanAt o.1 o.2 with
  | some o => r = (carried o.1 c o.2, invIf (ops.any fun q => signalAt q.1 q.2))
  | none =>
    if terms.any termBad || (infs.any termNeg && infs.any fun t => !termNeg t) then r = (defaultNan c, 1)
    else if infs ≠ [] then r = (floatBits c (infs.any termNeg) (expTop c) 0, 0)
    else if terms = [] then r = (0, 0)
    else if sum = 0 then r = (floatBits c ((terms.all fun t => termUnits t == 0 && termNeg t) || rm == 2) 0 0, 0)
    else Rounded c rm false (decide (sum < 0)) sum.natAbs (-2148) r

/-- A pattern and its flags are pattern `x` of format `c`, times 2^k, converted into format `d` (R97, R98, R113, R126). -/
def ConvertIs (c d rm : Nat) (sat : Bool) (k : Int) (x : Nat) (r : Nat × Flags) : Prop :=
  if nanAt c x then r = (carried c d x, invIf (signalAt c x))
  else if infAt c x then r = (floatBits d (negAt c x) (expTop d) 0, 0)
  else Rounded d rm sat (negAt c x) (magAt c x) (unitExp c + k) r

/-- `n` is x / d rounded to an integer by code `rm`, `s` the sign of the value (`round_int`, R93). -/
def IntRounded (rm : Nat) (s : Bool) (x d n : Nat) : Prop :=
  (inward rm s = true → n * d ≤ x ∧ x < (n + 1) * d) ∧
  (outward rm s = true → x ≤ n * d ∧ n * d < x + d) ∧
  (inward rm s = false → outward rm s = false → 2 * apartBy x (n * d) ≤ d ∧
    (2 * apartBy x (n * d) = d → if rm = 4 then x < n * d else n % 2 = 0))

/-- Two's complement of `n` bits (R96). -/
def wrapped (n : Nat) (v : Int) : Nat := (v % (2 ^ n : Nat)).toNat

/-! ### The matrix array -/

/-- K of an input format by its place in Table 5.1. -/
def tableK (f : Nat) : Nat := [12, 24, 48, 48, 96, 96, 96, 96].getD f 0

/-- N of an input format by its place in Table 5.1. -/
def tableN (f : Nat) : Nat := [32, 64, 64, 64, 64, 64, 64, 64].getD f 0

/-- Bytes of an input element, and of an accumulator element, by the place of the format in Table 5.1. -/
def inBytes (f : Nat) : Nat := [8, 4, 2, 2, 1, 1, 1, 1].getD f 0

/-- See `inBytes`. -/
def accBytes (f : Nat) : Nat := [8, 4, 4, 4, 4, 4, 4, 4].getD f 0

/-- DEPTH in [6:0] and COLS in [22:16] of a mask pair (Table 3.4), each cut to the format's K or N. -/
def depthOf (s : State) (k : BitVec 3) (f : Nat) : Nat :=
  min ((tget 0x00400060#32 s.core.regs.mks k.toNat).toNat % 128) (tableK f)

/-- See `depthOf`. -/
def colsOf (s : State) (k : BitVec 3) (f : Nat) : Nat :=
  min ((tget 0x00400060#32 s.core.regs.mks k.toNat).toNat / 2 ^ 16 % 128) (tableN f)

/-- The beat that a word captures at issue: its A row, the columns of its latch, its window row, and their poison (R119, R120). -/
def beatAt (s : State) (f : Nat) (l : BitVec 2) (w : BitVec 8) (k rm : BitVec 3) (fresh : BitVec 1) (a : Row × Bool) (fl : Flags) : Beat :=
  let cols := (List.range (colsOf s k f)).map fun j =>
    (tget 0 s.core.regs.m (64 * l.toNat + j), tget false s.core.regs.mPoison (64 * l.toNat + j))
  { fmt := f, rm := rm, fresh := fresh == 1, row := (s.core.ctl.awb.toNat + w.toNat) % 2048, depth := depthOf s k f,
    cols := colsOf s k f, a := a.1, latch := cols.map Prod.fst, poison := a.2 || cols.any Prod.snd, flags := fl }

/-- The verdict of the task rises to corrected when `b` holds; nothing else changes (R293). -/
def corrected (s : State) (b : Bool) : State :=
  { s with core := { s.core with ctl := { s.core.ctl with
      verdict := if b then s.core.ctl.verdict.worst .corrected else s.core.ctl.verdict } } }

/-- The window row that an offset names (R71). -/
def windowRow (s : State) (o : Nat) : Nat := (s.core.ctl.awb.toNat + o) % 2048

/-- The state after a read of an accumulator row: an error that can be corrected raises the verdict to corrected, one that cannot
sets the row's poison tag (R293, R295). -/
def metAcc (s : State) (r : Nat) : State :=
  match tget .good s.core.regs.accMark r with
  | .good => s
  | .correctable => corrected s true
  | _ => { s with core := { s.core with regs := { s.core.regs with accPoison := tset false s.core.regs.accPoison r true } } }

/-- What a read of an accumulator row says of its poison: its tag, or an error that cannot be corrected. -/
def accBad (s : State) (r : Nat) : Bool :=
  tget false s.core.regs.accPoison r || (tget .good s.core.regs.accMark r != .good && tget .good s.core.regs.accMark r != .correctable)

/-- The special registers by number (Table 3.5): what a read at issue gives, zero-extended. A token that the task has not produced
reads as pending, all zero. -/
def specialValue (s : State) (n : Nat) : Scalar :=
  let c := s.core.ctl
  let t := s.core.task
  match n with
  | 0x00 => BitVec.ofNat 64 c.cyc
  | 0x01 => BitVec.ofNat 64 (s.cur % 16)
  | 0x02 => BitVec.ofNat 64 (s.cur / 16)
  | 0x03 => BitVec.ofNat 64 t.gid
  | 0x04 => BitVec.ofNat 64 t.tix
  | 0x08 => c.lc.zeroExtend 64
  | 0x09 => c.rrb.zeroExtend 64
  | 0x0A => c.awb.zeroExtend 64
  | 0x0C => BitVec.ofNat 64 t.vpb
  | 0x0D => BitVec.ofNat 64 t.vpl
  | 0x0E => BitVec.ofNat 64 (tget 0 s.platform.grades (2 * (s.cur / 128) + s.cur % 16 / 8))
  | 0x0F => BitVec.ofNat 64 (s.job t.pasid).gen
  | 0x10 => c.fflg.zeroExtend 64
  | 0x11 => c.sgsc.zeroExtend 64
  | 0x12 => c.sgsh.zeroExtend 64
  | n =>
    let made := tget 0 s.core.barge.issuedBy (n - 0x40)
    if n < 0x28 then (tget 0x00400060#32 s.core.regs.mks (n - 0x20)).zeroExtend 64
    else if made = 0 then 0 else tget 0 s.core.barge.words (made - 1)

/-- A `MACC` word of input format `f` is done. -/
def MaccDone (i : Instr) (s : State) (f : Nat) (l : BitVec 2) (w : BitVec 8) (v : BitVec 6) (k rm : BitVec 3) (fresh : BitVec 1)
    (p : BitVec 3) : Prop :=
  Runs i p s → exec i s = .next (queued s [due s 6 (.beat (beatAt s f l w k rm fresh (readVector s v) 0))])

/-- A `MACCA` word of input format `f` is done: its A row is group `g` of an accumulator row, converted where an element enters a
term; a beat without depth or columns reads no element (R121, R125). -/
def MaccaDone (i : Instr) (s : State) (f : Nat) (l : BitVec 2) (w : BitVec 8) (o : BitVec 4) (g : BitVec 2) (k rm : BitVec 3)
    (fresh : BitVec 1) (p : BitVec 3) : Prop :=
  let r := windowRow s o.toNat
  let count := 256 / accBytes f
  let none_ := depthOf s k f == 0 || colsOf s k f == 0
  let used := if colsOf s k f = 0 then 0 else min (depthOf s k f) (count - g.toNat * tableK f)
  let el (j : Nat) : Nat × Flags := chainElem f rm.toNat (elemAt (accBytes f) (tget 0 s.core.regs.acc r).toNat (g.toNat * tableK f + j))
  Runs i p s → ∃ a : Row,
    (∀ j, j < tableK f → lane (inBytes f) a j = if j < used then (el j).1 % 2 ^ (8 * inBytes f) else 0) ∧
    exec i s = .next (queued (if none_ then s else metAcc s r)
      [due s 6 (.beat (beatAt s f l w k rm fresh (a, if none_ then tget false s.core.regs.accPoison r else accBad s r)
        (lanesFlags used fun j => (el j).2)))])

/-- A drain is done: destination element `j` of `wd` bytes is element g·(96 / wd) + j of the accumulator row, of `w` bytes,
converted; elements past the row are zero (R126, R385). -/
def DrainDone (i : Instr) (s : State) (o : BitVec 8) (d : BitVec 6) (w wd g : Nat) (cv : Nat → Nat × Flags) (p : BitVec 3) : Prop :=
  let r := windowRow s o.toNat
  let used := min (96 / wd) (256 / w - g * (96 / wd))
  let el (j : Nat) : Nat × Flags := cv (elemAt w (tget 0 s.core.regs.acc r).toNat (g * (96 / wd) + j))
  Runs i p s → ∃ row : Row,
    (∀ j, j < 96 / wd → lane wd row j = if j < used then (el j).1 % 2 ^ (8 * wd) else 0) ∧
    exec i s = .next (queued (metAcc s r)
      (vectorOut s 4 5 d row (accBad s r) ++ flagsOut s 5 (lanesFlags used fun j => (el j).2)))

/-- The value of a beat's column: the accumulator element unless the beat is fresh, plus the products, rounded once or wrapped
(R102 to R104, R119). -/
def columnValue (f rm : Nat) (fresh : Bool) (old depth : Nat) (a c : Row) : Nat × Flags :=
  let acc := if f = 0 then fmtOf 0 else fmtOf 1
  let x (k : Nat) : Nat := lane (inBytes f) a k
  let y (k : Nat) : Nat := lane (inBytes f) c k
  if 6 ≤ f then
    (wrapInt 32 ((if fresh then 0 else toSigned 32 old) +
      ((List.range depth).map fun k => readInt (f == 6) 8 (x k) * readInt (f == 6) 8 (y k)).sum), 0)
  else if fresh && depth == 0 then (0, 0)
  else exactRound acc rm ((if fresh then [] else [[(acc, old)]]) ++
    (List.range depth).map fun k => [(fmtOf f, x k), (fmtOf f, y k)])

/-! ### Vaults -/

/-- The number of a bank of the tile: 16 · channel + bank. -/
def bankNum (c : BitVec 2) (b : BitVec 4) : Nat := 16 * c.toNat + b.toNat

/-- The key of a column of a row of a bank, sixteen to a row and 32,768 rows to a bank (R131). -/
def colKey (n row col : Nat) : Nat := 16 * (n * 32768 + row) + col

/-- A bank as it stands. -/
def bankAt (s : State) (n : Nat) : Bank := tget {} s.core.vault.banks n

/-- A channel as it stands. -/
def chanAt (s : State) (n : Nat) : Channel := tget {} s.core.vault.channels n

/-- The channel with the lowest-numbered free FAW slot taken for 32 cycles, and RRD 4 (Table 6.3, R135). -/
def activated (s : State) (c : Channel) : Channel :=
  if c.faw0 ≤ s.clock then { c with faw0 := s.clock + 32, rrdAt := s.clock + 4 }
  else if c.faw1 ≤ s.clock then { c with faw1 := s.clock + 32, rrdAt := s.clock + 4 }
  else if c.faw2 ≤ s.clock then { c with faw2 := s.clock + 32, rrdAt := s.clock + 4 }
  else { c with faw3 := s.clock + 32, rrdAt := s.clock + 4 }

/-- A bank reads Idle with ACTRDY 0: it is not Active, and a refresh of it is over (Tables 6.2 and 6.3). -/
abbrev idleBank (s : State) (n : Nat) : Prop := (bankAt s n).mode ≠ .active ∧ (bankAt s n).actAt ≤ s.clock

/-- A bank may be precharged: Active with PRERDY 0, or Idle (Table 6.3). -/
abbrev closable (s : State) (n : Nat) : Prop :=
  let x := bankAt s n
  (x.mode = .active ∧ x.preAt ≤ s.clock) ∨ x.mode = .idle ∨ (x.mode = .refreshing ∧ x.actAt ≤ s.clock)

/-- A D word is done that writes no column: one change of each bank and of each channel, the vault's bytes, the registers, results
in flight, staging and the memories as they were. -/
def VaultDone (i : Instr) (s : State) (bank : Nat → Bank) (chan : Nat → Channel) (more : State → Prop) : Prop :=
  ∃ t, exec i s = .next t ∧ (∀ n, n < 64 → bankAt t n = bank n) ∧ (∀ n, n < 4 → chanAt t n = chan n) ∧
    t.core.vault.cells = s.core.vault.cells ∧ t.core.vault.marks = s.core.vault.marks ∧ t.core.regs = s.core.regs ∧
    t.core.results = s.core.results ∧ t.core.staging = s.core.staging ∧ t.mem = s.mem ∧ t.core.ctl.fflg = s.core.ctl.fflg ∧ more t

/-! ### Streams -/

/-- The length of a length code (Table 7.1). -/
def streamLen (l : BitVec 2) : Nat := 2 ^ (10 + l.toNat)

/-- The words by the one thing that they alone may change: the next bundle to issue. -/
def isBranch : Instr → Bool
  | .br _ _ | .brp _ _ _ | .call _ _ | .ret _ | .loop _ _ | .loopr _ _ _ _ => true
  | _ => false

/-- See `isBranch`: the opening of a segment. -/
def isSeg : Instr → Bool
  | .seg _ _ _ _ => true
  | _ => false

/-- See `isBranch`: a wait. -/
def isWait : Instr → Bool
  | .waitb _ _ _ | .waitt _ _ | .waitp _ _ _ => true
  | _ => false

/-- See `isBranch`: the barge. -/
def isCommand : Instr → Bool
  | .bcopy _ _ _ _ _ _ | .bgath _ _ _ _ | .bscat _ _ _ | .breda _ _ _ _ _ _ | .batom _ _ _ _ _ | .bfence _ _ _ _ | .bmark _ _ _
  | .bseal _ _ _ | .bopen _ _ _ => true
  | _ => false

/-- See `isBranch`: the gang, by a barrier or by a hold that they request. -/
def meetsGang : Instr → Bool
  | .arrb _ _ _ | .waitb _ _ _ | .brk _ _ | .trap _ _ | .actw _ _ _ _ => true
  | _ => false

/-- The 48 lanes of a stream, and no other. -/
def StreamIs (q : Stream) (l : BitVec 2) (mask : BitVec 32) (poison : Bool) (f : Nat → BitVec 8192) : Prop :=
  (∀ j, tget 0 q.lanes j = if j < 48 then f j else 0) ∧ q.len = l.toNat ∧ q.mask = mask ∧ q.poison = poison ∧ q.mark = .good

/-- The state after a read of the lanes of stream register `n`: an error that can be corrected raises the verdict, one that cannot sets
the stream's poison tag (R293, R295). -/
def metStream (s : State) (n : Nat) : State :=
  let q := tget {} s.core.regs.q n
  match q.mark with
  | .good => s
  | .correctable => corrected s true
  | _ => { s with core := { s.core with regs := { s.core.regs with q := tset {} s.core.regs.q n { q with poison := true } } } }

/-- What a read of a stream says of its poison: its tag, or an error that cannot be corrected. -/
def streamBad (s : State) (n : Nat) : Bool :=
  (tget {} s.core.regs.q n).poison || ((tget {} s.core.regs.q n).mark != .good && (tget {} s.core.regs.q n).mark != .correctable)

/-- An F word that writes a stream register is done: the stream is due `lat` cycles on, the F slot is occupied for its beats. -/
def StreamDone (i : Instr) (s s1 : State) (d : BitVec 3) (l : BitVec 2) (lat : Nat) (mask : BitVec 32) (poison : Bool)
    (f : Nat → BitVec 8192) : Prop :=
  ∃ q, StreamIs q l mask poison f ∧ exec i s = .next (queued s1 [due s lat (.stream d.toNat q)])

/-- The 16-bit element of a row. -/
def half (x : Row) (j : Nat) : Nat := lane 2 x j

/-- The lane of class `c` that holds `count`: bit k is 1 when gen(c, n, k) lies below the count (R158). -/
def GenLane (c : BitVec 4) (l : BitVec 2) (count : Nat) (x : BitVec 8192) : Prop :=
  ∀ k, k < 8192 → x.getLsbD k = (decide (k < streamLen l) && decide (gen c.toNat (10 + l.toNat) k < count))

/-! ### Barge commands -/

/-- A barge word is done: the command stands last in the queue, under the next number, with its word, token, view address and
consumed commands, not started; its token reads pending (R75, R183 to R185). A poisoned scalar taints the task when the word uses it as an
address, as `addressed` says (R293, R347, R354). -/
def BargeQueued (i : Instr) (addressed : Bool) (s : State) (k a : BitVec 6) (p : BitVec 3) : Prop :=
  Runs i p s → ∃ t c, exec i s = .next t ∧ t.core.barge.queue = s.core.barge.queue ++ [c] ∧
    c.id = s.core.barge.nextId ∧ encode i = some c.word ∧ c.token = k.toNat ∧
    c.base = (readScalar s a).1.toNat % 2 ^ 20 / 256 * 256 ∧
    c.consume = ([20, 27, 34].filterMap fun lo => if (readScalar s a).1.getLsbD (lo + 6)
      then some (tget 0 s.core.barge.issuedBy (bits (readScalar s a).1.toNat (lo + 5) lo) - 1) else none) ∧
    c.started = false ∧ c.done = 0 ∧ c.wp = 0 ∧ t.core.barge.nextId = s.core.barge.nextId + 1 ∧
    tget 0 t.core.barge.issuedBy k.toNat = s.core.barge.nextId + 1 ∧
    (∀ j, j ≠ k.toNat → tget 0 t.core.barge.issuedBy j = tget 0 s.core.barge.issuedBy j) ∧
    { t with core := { t.core with barge := s.core.barge } } = tainted s ((readScalar s a).2 && addressed)

/-! ### Events -/

/-- An event answers a next state of which `R` holds. -/
def Done (i : Instr) (s : State) (R : State → Prop) : Prop := ∃ t, exec i s = .next t ∧ R t

/-- An event of tile `n` is done: `R` relates the state with the tile checked out before it and after it; then the former tile is
checked out again. -/
def AtTile (i : Instr) (n : Nat) (s : State) (R : State → State → Prop) : Prop :=
  ∃ u, exec i s = .next (u.select s.cur) ∧ R (s.select n) u

/-- What the results of a list leave in a place, `f` reading each effect on it: the last one stands. -/
def lastEffect {α : Type} (rs : List Result) (f : Effect → Option α) (old : α) : α := rs.foldl (fun a r => (f r.eff).getD a) old

/-- The rectangle of a gang lies on the grid. -/
def onGrid (g : Gang) : Prop := g.ox + g.w ≤ 16 ∧ g.oy + g.h ≤ 16

/-- Each task of a gang stands on its tile, in the order of task numbers, which go on from package to package (R24, R25). -/
def inPlace (s : State) (g : Nat) : Prop :=
  ∀ i n, (s.gang g).tiles[i]? = some n → (s.tile n).task.gid = g ∧ (s.tile n).task.tix = (s.gang g).firstTix + i

/-- No register, stream or unit of staging of a tile holds an error that no read has met yet. -/
def errorFree (t : Tile) : Prop :=
  t.regs.sBad = [] ∧ t.regs.vBad = [] ∧ t.regs.mBad = [] ∧ t.regs.accMark = [] ∧ (∀ k, (tget {} t.regs.q k).mark = .good) ∧
    t.staging.marks = []

/-- The key of the tile that a save keeps of task `i` of a gang. -/
def keptKey (s : State) (g i : Nat) : Nat := 65536 * g + (s.gang g).firstTix + i

/-- The words of a list of special results before the others, each group in the order of issue (R62, R74). -/
def landOrder (rs : List Result) : List Result := rs.filter Result.isSpecial ++ rs.filter fun r => !r.isSpecial

/-- Every bank counter but RDUE, and every channel counter, reads 0; the listed banks are open as listed, the others Idle. -/
def Settled (x u : State) (saved : List (Nat × Nat × Bool)) : Prop :=
  (∀ m, m < 4 → chanAt u m = {}) ∧
  ∀ n, n < 64 → (bankAt u n).actAt = 0 ∧ (bankAt u n).preAt = 0 ∧ (bankAt u n).colAt = 0 ∧ (bankAt u n).due = (bankAt x n).due ∧
    match saved.find? fun y => y.1 == n with
    | some y => (bankAt u n).mode = .active ∧ (bankAt u n).row = y.2.1 ∧ (bankAt u n).intent = y.2.2
    | none => (bankAt u n).mode = .idle

/-- A task stopped by a cause and DETAIL that its record names: its gang has the trap cause. -/
def Trapped (t : Tile) (g : Gang) (cause detail : Nat) : Prop :=
  t.ctl.status = .stopped ∧ .trap ∈ g.causes ∧ ∃ r, t.ctl.trap = some r ∧ r.cause = cause ∧ r.detail = detail ∧ r.final = true

/-- The code of the first condition of a list that holds, 0 when none does. -/
def FirstOf : List (Prop × Nat) → Nat → Prop
  | [], e => e = 0
  | (q, k) :: qs, e => (q → e = k) ∧ (¬ q → FirstOf qs e)

/-- The bytes of an element of a tensor, by format code (Table 4.2; codes 6 and 7 name no type). -/
def elemBytes (f : BitVec 4) : Nat := [8, 4, 2, 2, 1, 1, 1, 1, 1, 1, 2, 2, 4, 4, 8, 8].getD f.toNat 0

/-- A field of a word of a command's view block (Table 8.3). -/
def viewField (c : Cmd) (i hi lo : Nat) : Nat := bits (c.view.getD i 0).toNat hi lo

/-- The descriptor of the tensor number that a command's handle names. -/
def tensorOf (j : Job) (c : Cmd) : Desc := tget {} j.tensors (viewField c 0 23 0)

/-- The start checks of a command with its view block, in order, each with its error code (R186, R187, R194, R196, R197, R201, R361,
R472): the block's own fields, the handle, the rank, element type and size, the coordinates. A `.code` copy whose handle names no tensor fails the
first check when its bytes do at every element size: the model's reading (log entry 14). -/
def startChecks (j : Job) (c : Cmd) : List (Prop × Nat) :=
  let f := viewField c
  let d := tensorOf j c
  let rank := f 0 35 32
  let moves : Prop := c.kind.moves = true
  let indexed : Prop := c.kind = .gather ∨ c.kind = .scatter
  let given (k : Nat) : Prop := indexed ∧ k = f 12 39 36
  let ext (k : Nat) : Nat := if c.kind.indexed && k == f 12 39 36 then f 12 35 20 else f (2 + k) 63 32
  let last (k : Nat) : Nat := if c.kind.indexed && k == f 12 39 36 then 0 else f (2 + k) 31 0 + ext k - 1
  let atomic : Prop := ∃ op scope, c.kind = .atomic op scope
  let named : Prop := d.live = true ∧ d.count = f 0 31 24
  let count := ((List.range rank).map ext).prod
  let tiles (k : Nat) : Nat := (d.shape.getD k 0 + d.tile.getD k 1 - 1) / d.tile.getD k 1
  let frame := ((List.range rank).map fun k => last k / d.tile.getD k 1 * ((List.range k).map tiles).prod).sum
  [(f 0 63 36 ≠ 0 ∨
      (moves ∧ (rank < 1 ∨ 10 < rank ∨ f 1 63 20 ≠ 0 ∨ ∃ k, k < rank ∧ ¬ given k ∧ ext k = 0)) ∨
      (indexed ∧ (f 12 63 40 ≠ 0 ∨ f 12 35 20 = 0 ∨ rank ≤ f 12 39 36)) ∨ (atomic ∧ f 15 63 20 ≠ 0) ∨
      (c.kind = .code ∧ (f 1 19 0 % 32 ≠ 0 ∨ 0x18000 ≤ f 1 19 0 ∨ ∀ size ∈ [1, 2, 4, 8], (named → size = elemBytes d.fmt) →
        count * size % 32 ≠ 0 ∨ 0x18000 < f 1 19 0 + count * size)), 5),
    (¬ named, 1), (moves ∧ rank ≠ d.shape.length, 5),
    (moves ∧ ((c.transpose ≠ 0 ∧ (rank < 2 ∨ elemBytes d.fmt ≠ c.transpose)) ∨
      (∃ rm sat g, c.kind = .reduce rm sat g ∧ g ≠ d.fmt) ∨
      (atomic ∧ ((∃ k, k < rank ∧ ext k ≠ 1) ∨ (elemBytes d.fmt ≠ 4 ∧ elemBytes d.fmt ≠ 8)))), 8),
    (moves ∧ ((∃ k, k < rank ∧ ¬ given k ∧ d.shape.getD k 0 < f (2 + k) 31 0 + ext k) ∨ 2 ^ 28 ≤ frame), 6)]

/-- The completion word of a finished command (Table 8.4). -/
def doneWord (state err frames wp : Nat) : BitVec 64 :=
  BitVec.ofNat 64 (state * 2 ^ 61 + err * 2 ^ 56 + frames % 2 ^ 21 * 2 ^ 32 + wp % 2 ^ 21)

/-- A command is no longer outstanding, and its completion word is the one named. -/
def Ended (u : State) (id : Nat) (w : BitVec 64) : Prop := tget 0 u.core.barge.words id = w ∧ ∀ c ∈ u.core.barge.queue, c.id ≠ id

/-- A command of the tile, the only one of its number. -/
def Outstanding (x : State) (c : Cmd) : Prop := c ∈ x.core.barge.queue ∧ ∀ d ∈ x.core.barge.queue, d.id = c.id → d = c

/-- The command `c` has become `d`; every other command stands. -/
def Becomes (x u : State) (c d : Cmd) : Prop := u.core.barge.queue = x.core.barge.queue.map fun e => if e.id = c.id then d else e

/-- `n` bytes of a memory space. -/
def bytesAt (s : State) (sp : MemSpace) (a n : Nat) : List Byte := (List.range n).map fun i => tget 0 (s.mem.space sp) (a + i)

/-- A 64-bit word of a memory space. -/
def wordAt (s : State) (sp : MemSpace) (a : Nat) : BitVec 64 := BitVec.ofNat 64 (ofBytes (bytesAt s sp a 8))

/-- A run of bytes lies in memory that is there: in the fitted frames, when it is one of the reservoir (R2). -/
abbrev there (s : State) (sp : MemSpace) (a n : Nat) : Prop := sp = .reservoir → a + n ≤ s.mem.capacity * 65536

/-- The image of a variant word is there (R2). -/
abbrev imageThere (s : State) (w : Nat) : Prop := there s .reservoir (bits w 47 0) (32 * bits w 61 50)

/-- A value of the watched word meets a watch (R259, R272). -/
def met (w : Watch) (x : Nat) : Prop := if w.isKick then w.value < x else if w.geq then w.value ≤ x else x = w.value

/-- The reports of a queue and a kind of watch (R259). -/
def reportsOf (s : State) (w : Watch) : List Report :=
  s.lk.reports.filter fun r => r.pasid == w.pasid && r.qnum == w.qnum && r.isKick == w.isKick

/-- The device stops at an access to a frame that is not there (R2, log entry 28). -/
def Stops (i : Instr) (s : State) : Prop := exec i s = .fault .noSuchFrame

/-- A thread as it stands. -/
def threadAt (s : State) (n : Nat) : Thread := tget {} s.lk.threads n

/-- Word `i` of a packet. -/
def packetWord (p : List Scalar) (i : Nat) : Nat := (p.getD i 0).toNat

/-- Every byte of a run of the reservoir lies in a frame of the job. -/
def ownedRun (s : State) (p a n : Nat) : Prop := ∀ k, k < n → (tget (0, 0) s.mem.frames ((a + k) / 65536)).1 = p + 1

/-- A run of bytes of a space by its code in RSP lies outside the job's frames, or outside queue SRAM. -/
def outside (s : State) (p code a n : Nat) : Prop := (code = 1 ∧ ¬ ownedRun s p a n) ∨ (code = 3 ∧ 0x1000000 < a + n)

/-- The causes for which a launch packet is rejected, in increasing code (Table 12.7, R47, R150, R268, R273, R275). -/
def launchChecks (s : State) (y : Thread) : List (Prop × Nat) :=
  let w := packetWord y.packet
  let f (i hi lo : Nat) : Nat := bits (w i) hi lo
  let p := qPasid s y.qcb
  let x := s.node (f 0 43 32)
  let nvar := f 0 28 27
  let nin := f 0 47 44
  let edgeBad (q : Nat) : Prop := ¬ ((s.node q).owner = some p ∧ ((s.node q).life ≠ .free ∨ (tget none (s.node q).last p).isSome = true))
  [(w 0 % 16 ≠ 1, 1),
    (f 0 63 48 ≠ 0 ∨ f 0 31 29 ≠ 0 ∨
      (∃ i, i < 3 ∧ if i < nvar then f (1 + i) 63 62 ≠ 0 ∨ w (1 + i) % 32 ≠ 0 else w (1 + i) ≠ 0) ∨ f 4 63 54 ≠ 0 ∨ w 4 % 8 ≠ 0 ∨
      f 5 63 50 ≠ 0 ∨ w 5 % 32 ≠ 0 ∨ f 6 63 48 ≠ 0 ∨ (f 0 26 24 = 0 ∧ w 6 ≠ 0) ∨
      (∃ i, i < 4 ∧ if i < nin then f (7 + i) 63 14 ≠ 0 else w (7 + i) ≠ 0) ∨ ∃ i, i < 4 ∧ w (11 + i) ≠ 0, 2),
    (qPlim s y.qcb < f 0 5 4, 3),
    (if f 0 6 6 = 1 then 16 < f 0 19 16 + (f 0 11 8 + 1) ∨ 16 < f 0 23 20 + (f 0 15 12 + 1)
      else ∀ ox oy, ox % 8 = f 0 19 16 % 8 → oy % 8 = f 0 23 20 % 8 → 16 < ox + (f 0 11 8 + 1) ∨ 16 < oy + (f 0 15 12 + 1), 4),
    (nvar = 0 ∨ ∃ k, 1 ≤ k ∧ k ≤ nvar ∧
      (f k 49 48 = 3 ∨ f k 61 50 = 0 ∨ 3072 < f k 61 50 ∨
        (imageThere s (w k) ∧ imageThere s (w 1) ∧ imageSegments s (w k) ≠ imageSegments s (w 1))), 5),
    (40 < f 4 53 48, 6), (x.owner ≠ some p ∨ (s.job p).live = false ∨ x.life ≠ .free, 7),
    (∃ i, i < min nin 4 ∧ edgeBad (w (7 + i) % 4096), 8),
    ((∃ k, 1 ≤ k ∧ k ≤ nvar ∧ ¬ ownedRun s p (f k 47 0) (32 * f k 61 50)) ∨
      (0 < f 4 53 48 ∧ outside s p (if qKind s y.qcb = 0 then 3 else 1) (f 4 47 0) (8 * f 4 53 48)) ∨
      outside s p (f 5 49 48) (f 5 47 0) 32, 9),
    (4 < nin, 10)]

/-- The causes for which a wait packet is rejected (R272). -/
def waitChecks (s : State) (y : Thread) : List (Prop × Nat) :=
  let w := packetWord y.packet
  let f (i hi lo : Nat) : Nat := bits (w i) hi lo
  let p := qPasid s y.qcb
  [(f 0 63 8 ≠ 0 ∨ f 1 63 48 ≠ 0 ∨ w 1 % 8 ≠ 0 ∨ f 5 63 50 ≠ 0 ∨ w 5 % 32 ≠ 0 ∨ w 3 ≠ 0 ∨ w 4 ≠ 0 ∨
      ∃ i, 6 ≤ i ∧ i < 15 ∧ w i ≠ 0, 2),
    (f 0 7 6 = 2 ∨ outside s p (f 0 7 6) (f 1 47 0) 8 ∨ outside s p (f 5 49 48) (f 5 47 0) 32, 9),
    (2 ≤ f 0 5 4 ∨ f 0 7 6 = 0, 10)]

/-- The selection rule of R152: the variant of the lowest grade at or above `g`, or else one of the highest grade. -/
def Picked (p : List Scalar) (g k : Nat) : Prop :=
  let grade (i : Nat) : Nat := bits (packetWord p i) 49 48
  let has (i : Nat) : Prop := 1 ≤ i ∧ i ≤ bits (packetWord p 0) 28 27
  has k ∧ ((∃ i, has i ∧ g ≤ grade i) → g ≤ grade k ∧ ∀ i, has i → g ≤ grade i → grade k ≤ grade i) ∧
    ((∀ i, has i → grade i < g) → ∀ i, has i → grade i ≤ grade k)

/-- An origin that R47 allows a launch. -/
def originFits (p : List Scalar) (o : Nat × Nat) : Prop :=
  let f (hi lo : Nat) : Nat := bits (packetWord p 0) hi lo
  (f 6 6 = 1 → o = (f 19 16, f 23 20)) ∧ o.1 % 8 = f 19 16 % 8 ∧ o.2 % 8 = f 23 20 % 8 ∧ o.1 + (f 11 8 + 1) ≤ 16 ∧
    o.2 + (f 15 12 + 1) ≤ 16

/-- The edges that leave node `k` towards launches of its job, and are not final, have changed as `f` says, and a waiting launch that has one of them is ready
when each of its edges is satisfied, and waits on when one is not (R35, R274). -/
def EdgesMove (s t : State) (k : Nat) (f : Edge → Edge) : Prop :=
  ∀ m, m ≠ k → (s.node m).life ≠ .free → (s.node m).owner = (s.node k).owner →
    let from_ (e : Edge) : Bool := e.src == k && !e.final
    (t.node m).edges = (s.node m).edges.map (fun e => if from_ e then f e else e) ∧
    ((s.node m).life = .waiting → (s.node m).edges.any from_ = true →
      if (t.node m).edges.all Edge.satisfied then (t.node m).life = .ready ∧ m ∈ t.lk.order else (t.node m).life = .waiting)

/-- LKCMD accepts a command of code `op`: the control complex runs, no command runs, the LEVEL is one of those listed, the ID has no
bit outside its layout from bit `top` on, and the job exists (R278, R279). -/
def Accepted (op : Nat) (levels : List Nat) (top : Nat) (w : BitVec 64) (s : State) : Prop :=
  controlRuns s = true ∧ s.lk.cmdBusy = false ∧ bits w.toNat 63 56 = op ∧ bits w.toNat 55 52 ∈ levels ∧ bits w.toNat 31 top = 0 ∧
  (s.job (bits w.toNat 51 32)).live = true

/-- LKRES with DONE, STATUS and VALUE (R278). -/
def lkres (status value : Nat) : BitVec 64 := BitVec.ofNat 64 (2 ^ 63 + status * 2 ^ 56 + value)

/-- Only LKRES differs. -/
def answered (s : State) (status value : Nat) : State := { s with lk := { s.lk with res := lkres status value } }

end Sys2Proof.Claims

section Statements

open Sys2Proof Sys2Proof.Machine Sys2Proof.Claims

/-! ### Operands -/

/-- What a source code names: s0 reads 0; s1 to s55, v0 to v31, p1 to p3 name themselves; v32 to v47 and p4 to p7 are renamed by RRB
(R67, R76); the fixed rows of Table 3.3; latch x`n`, a scalar source taking its first 8 bytes (R64). A result of slot `n` under a true
predicate, once it has landed in its latch, is what both kinds of source then read. A word that names a latch without a valid mark or of
the other kind, or that stands in an occupied slot, raises a schedule fault whatever its predicate (R61, R66). -/
def Obligations.OperandReads : Prop :=
  ∀ (s : State) (c : BitVec 6) (q : BitVec 3),
    let r := s.core.regs
    let rrb := s.core.ctl.rrb.toNat
    let n := c.toNat
    let x := (readVector s c).1
    (n = 0 → readScalar s c = (0, false)) ∧
    (0 < n → n < 56 → readScalar s c = (tget 0 r.s n, tget false r.sPoison n)) ∧
    (n < 32 → readVector s c = (tget 0 r.v n, tget false r.vPoison n)) ∧
    (32 ≤ n → n < 48 → readVector s c = (tget 0 r.v (32 + (n - 32 + rrb) % 16), tget false r.vPoison (32 + (n - 32 + rrb) % 16))) ∧
    (48 ≤ n → n < 56 → (readVector s c).2 = false) ∧
    (n = 48 → ∀ j, j < 96 → lane 1 x j = 0) ∧ (n = 49 → ∀ j, j < 96 → lane 1 x j = 0xFF) ∧
    (n = 50 → ∀ j, j < 96 → lane 1 x j = j) ∧ (n = 51 → ∀ j, j < 48 → lane 2 x j = j) ∧ (n = 52 → ∀ j, j < 24 → lane 4 x j = j) ∧
    (n = 53 → ∀ j, j < 12 → lane 8 x j = 0x3FF0000000000000) ∧ (n = 54 → ∀ j, j < 24 → lane 4 x j = 0x3F800000) ∧
    (n = 55 → ∀ j, j < 48 → lane 2 x j = 0x3C00) ∧
    (56 ≤ n → let l := tget {} r.latches (n - 56)
      (readScalar s c).1.toNat = lane 8 l.bytes 0 ∧ (readScalar s c).2 = l.poison ∧ readVector s c = (l.bytes, l.poison)) ∧
    readPred s q = (if q = 0 then true else tget false r.p (if q.toNat < 4 then q.toNat else 4 + (q.toNat - 4 + rrb) % 4)) ∧
    (56 ≤ n → ∀ vec y bad, let t := landEffect s (.latch (n - 56) vec true y bad)
      (readScalar t c).1.toNat = lane 8 y 0 ∧ (readScalar t c).2 = bad ∧ readVector t c = (y, bad) ∧
      (tget {} t.core.regs.latches (n - 56)).valid = true ∧ (tget {} t.core.regs.latches (n - 56)).vec = vec) ∧
    (∀ i u, useOf i = some u →
      let empty (k : BitVec 6) (vec : Bool) : Prop := 56 ≤ k.toNat ∧
        ((tget {} r.latches (k.toNat - 56)).valid = false ∨ (tget {} r.latches (k.toNat - 56)).vec ≠ vec)
      (∃ k ∈ u.scalars, empty k false) ∨ (∃ k ∈ u.vectors, empty k true) ∨ s.core.ctl.cyc < tget 0 s.core.ctl.busy u.slot.num →
        Raises s i 2 0)

/-! ### The A slot -/

/-- The three-operand integer operations of the A slot: the values of R350, R391, R394, R414, R425 and R450, computed apart from
the model's own functions, in the destination and in x1 after the latency of Table 3.9; nothing else changes. -/
def Obligations.ScalarTwoSource : Prop :=
  ∀ (s : State) (d a b : BitVec 6) (p : BitVec 3),
    let x := (readScalar s a).1
    let y := (readScalar s b).1
    let bad := (readScalar s a).2 || (readScalar s b).2
    (Runs (.add d a b p) p s → exec (.add d a b p) s = .next (queued s (scalarOut s 1 1 d (x + y) bad))) ∧
    (Runs (.sub d a b p) p s → exec (.sub d a b p) s = .next (queued s (scalarOut s 1 1 d (x - y) bad))) ∧
    (Runs (.andS d a b p) p s → exec (.andS d a b p) s = .next (queued s (scalarOut s 1 1 d (x &&& y) bad))) ∧
    (Runs (.orS d a b p) p s → exec (.orS d a b p) s = .next (queued s (scalarOut s 1 1 d (x ||| y) bad))) ∧
    (Runs (.xorS d a b p) p s → exec (.xorS d a b p) s = .next (queued s (scalarOut s 1 1 d (x ^^^ y) bad))) ∧
    (Runs (.shl d a b p) p s → exec (.shl d a b p) s = .next (queued s (scalarOut s 1 1 d (x <<< y.toNat) bad))) ∧
    (Runs (.shr d a b p) p s → exec (.shr d a b p) s = .next (queued s (scalarOut s 1 1 d (x >>> y.toNat) bad))) ∧
    (Runs (.sra d a b p) p s → exec (.sra d a b p) s = .next (queued s (scalarOut s 1 1 d (x.sshiftRight y.toNat) bad))) ∧
    (Runs (.mul d a b p) p s → exec (.mul d a b p) s = .next (queued s (scalarOut s 1 3 d (x * y) bad))) ∧
    (Runs (.mulh d a b p) p s → exec (.mulh d a b p) s =
      .next (queued s (scalarOut s 1 3 d ((x.signExtend 128 * y.signExtend 128).extractLsb' 64 64) bad))) ∧
    (Runs (.mulhu d a b p) p s → exec (.mulhu d a b p) s =
      .next (queued s (scalarOut s 1 3 d ((x.zeroExtend 128 * y.zeroExtend 128).extractLsb' 64 64) bad)))

/-- `MAX` and `MIN` in both orders, `SEL`, and the immediates: value, tag, destination and x1 (R351, R380, R384, R411). -/
def Obligations.ScalarSelectAndImmediate : Prop :=
  ∀ (s : State) (d a b : BitVec 6) (p t : BitVec 3) (i : BitVec 11) (l : BitVec 17),
    let x := (readScalar s a).1
    let y := (readScalar s b).1
    let bad := (readScalar s a).2 || (readScalar s b).2
    (Runs (.maxS d a b 0 p) p s → exec (.maxS d a b 0 p) s =
      .next (queued s (scalarOut s 1 1 d (if x.ult y then y else x) bad))) ∧
    (Runs (.maxS d a b 1 p) p s → exec (.maxS d a b 1 p) s =
      .next (queued s (scalarOut s 1 1 d (if x.slt y then y else x) bad))) ∧
    (Runs (.minS d a b 0 p) p s → exec (.minS d a b 0 p) s =
      .next (queued s (scalarOut s 1 1 d (if x.ult y then x else y) bad))) ∧
    (Runs (.minS d a b 1 p) p s → exec (.minS d a b 1 p) s =
      .next (queued s (scalarOut s 1 1 d (if x.slt y then x else y) bad))) ∧
    (Runs (.sel d a b t p) p s → exec (.sel d a b t p) s =
      .next (queued s (scalarOut s 1 1 d (if readPred s t then x else y)
        (if readPred s t then (readScalar s a).2 else (readScalar s b).2)))) ∧
    (Runs (.addi d a i p) p s → exec (.addi d a i p) s =
      .next (queued s (scalarOut s 1 1 d (x + i.signExtend 64) (readScalar s a).2))) ∧
    (Runs (.li d l p) p s → exec (.li d l p) s = .next (queued s (scalarOut s 1 1 d (l.signExtend 64) false))) ∧
    (Runs (.lih d l p) p s → exec (.lih d l p) s =
      .next (queued s (scalarOut s 1 1 d ((readScalar s d).1 <<< 17 + l.zeroExtend 64) (readScalar s d).2)))

/-- `CLZ`, `FFS` and `POPC`: each result is the count or index that R369, R374 and R396 describe, 64, 64 and 0 for a zero operand. -/
def Obligations.ScalarBitCounts : Prop :=
  ∀ (s : State) (d a : BitVec 6) (p : BitVec 3),
    let x := (readScalar s a).1
    let bad := (readScalar s a).2
    (Runs (.clz d a p) p s → ∃ n : Nat, n ≤ 64 ∧ (∀ k, k < 64 → 64 - n ≤ k → x.getLsbD k = false) ∧
      (n < 64 → x.getLsbD (63 - n) = true) ∧
      exec (.clz d a p) s = .next (queued s (scalarOut s 1 1 d (BitVec.ofNat 64 n) bad))) ∧
    (Runs (.ffs d a p) p s → ∃ n : Nat, n ≤ 64 ∧ (∀ k, k < n → x.getLsbD k = false) ∧ (n < 64 → x.getLsbD n = true) ∧
      exec (.ffs d a p) s = .next (queued s (scalarOut s 1 1 d (BitVec.ofNat 64 n) bad))) ∧
    (Runs (.popc d a p) p s → exec (.popc d a p) s =
      .next (queued s (scalarOut s 1 1 d (BitVec.ofNat 64 ((List.range 64).countP fun k => x.getLsbD k)) bad)))

/-- `CMP` with each condition of Table 15.5 and the predicate operations: one predicate, renamed, on the next cycle; p0 discards it;
`CMP` with a poisoned operand taints the task (R68, R76, R370, R395). -/
def Obligations.PredicateWords : Prop :=
  ∀ (s : State) (d x y p : BitVec 3) (a b : BitVec 6) (c : BitVec 5),
    let va := (readScalar s a).1
    let vb := (readScalar s b).1
    let bad := (readScalar s a).2 || (readScalar s b).2
    (c.toNat < 6 → Runs (.cmp d a b c p) p s → exec (.cmp d a b c p) s =
      .next (queued (tainted s bad) (predOut s d
        (match c.toNat with
         | 0 => va == vb
         | 1 => va != vb
         | 2 => va.slt vb
         | 3 => vb.sle va
         | 4 => va.ult vb
         | _ => vb.ule va)))) ∧
    (Runs (.pand d x y p) p s → exec (.pand d x y p) s = .next (queued s (predOut s d (readPred s x && readPred s y)))) ∧
    (Runs (.por d x y p) p s → exec (.por d x y p) s = .next (queued s (predOut s d (readPred s x || readPred s y)))) ∧
    (Runs (.pxor d x y p) p s → exec (.pxor d x y p) s = .next (queued s (predOut s d (xor (readPred s x) (readPred s y))))) ∧
    (Runs (.pnot d x p) p s → exec (.pnot d x p) s = .next (queued s (predOut s d (!readPred s x))))

/-- `LDS` reads the 8 bytes of the unit at (sa[19:0] + 8·off) mod 2^20, low bits taken as zero, and gives them to sd and x1 after
three cycles; `LDV` reads the 96 bytes of the row address (sa[19:0] + 32·off) mod 2^20 for vd and x6 after four. Units without error or
unordered landing give exactly their bytes, with the poison of their lines; a poisoned base taints the task; an error that cannot be
corrected in a unit read marks the result poisoned and tags the line. `STS` and `STV` queue their bytes for the cycle two later, at the address their
operands name, and change nothing else but the verdict that storing poison, or a poisoned base, taints (R177, R295, R320, R326, R378, R379, R422,
R423). -/
def Obligations.CoreLoadsAndStores : Prop :=
  ∀ (s : State) (d a : BitVec 6) (i : BitVec 11) (p : BitVec 3),
    (let at_ := stageAt s a (8 * i.toNat) 8
     let x := loaded s a at_ 8
     Runs (.lds d a i p) p s →
      exec (.lds d a i p) s = .next (queued x.2 (scalarOut s 1 3 d (BitVec.ofNat 64 x.1.1) x.1.2)) ∧
      (Plain s at_ 8 →
        x.1 = (ofBytes (s.core.staging.bytes at_ 8), tget false s.core.staging.poison (at_ / 32)) ∧
        x.2 = tainted s (readScalar s a).2) ∧
      (tget .good s.core.staging.marks (at_ / 8) = .uncorrectable →
        x.1.2 = true ∧ tget false x.2.core.staging.poison (at_ / 32) = true)) ∧
    (let at_ := stageAt s a (32 * i.toNat) 32
     let x := loaded s a at_ 96
     Runs (.ldv d a i p) p s →
      exec (.ldv d a i p) s = .next (queued x.2 (vectorOut x.2 6 4 d (BitVec.ofNat 768 x.1.1) x.1.2)) ∧
      (Plain s at_ 96 → x.1.1 = ofBytes (s.core.staging.bytes at_ 96) ∧
        x.1.2 = ((List.range 3).any fun k => tget false s.core.staging.poison ((at_ / 32 + k) % 32768)) ∧
        x.2 = tainted s (readScalar s a).2)) ∧
    (Runs (.sts d a i p) p s → exec (.sts d a i p) s =
      .next (queued (tainted s ((readScalar s d).2 || (readScalar s a).2))
        [due s 2 (.store (stageAt s a (8 * i.toNat) 8) (bytesOf 8 (readScalar s d).1.toNat) (readScalar s d).2)])) ∧
    (Runs (.stv d a i p) p s → exec (.stv d a i p) s =
      .next (queued (tainted s ((readVector s d).2 || (readScalar s a).2))
        [due s 2 (.store (stageAt s a (32 * i.toNat) 32) (bytesOf 96 (readVector s d).1.toNat) (readVector s d).2)]))

/-! ### The C slot -/

/-- The branches, the return stack and the loops (R56, R77, R362, R364, R367, R381, R382, R401); `NOP` changes nothing (R393). -/
def Obligations.FlowOfControl : Prop :=
  ∀ (s : State) (t : BitVec 12) (q p : BitVec 3) (n : BitVec 2) (w : BitVec 9),
    let c := s.core.ctl
    exec .nop s = .next s ∧
    (Runs (.br t p) p s → exec (.br t p) s = .next (goTo s t.toNat)) ∧
    (Runs (.brp t q p) p s → exec (.brp t q p) s = .next (if readPred s q then goTo s t.toNat else s)) ∧
    (Runs (.call t p) p s → exec (.call t p) s =
      .next (goTo { s with core := { s.core with ctl := { c with ret := (c.pc + 1) :: c.ret } } } t.toNat)) ∧
    (∀ r rs, c.ret = r :: rs → Runs (.ret p) p s →
      exec (.ret p) s = .next (goTo { s with core := { s.core with ctl := { c with ret := rs } } } r)) ∧
    (Runs (.loop t p) p s → exec (.loop t p) s = .next
      (if c.lc = 0 then s
       else queued (if c.lc = 1 then s else goTo s t.toNat) [due s 1 (.special 0x08 ((c.lc - 1).zeroExtend 64))])) ∧
    (Runs (.loopr t n w p) p s → exec (.loopr t n w p) s = .next
      (if c.lc = 0 then s
       else queued (if c.lc = 1 then s else goTo s t.toNat)
         [due s 1 (.special 0x08 ((c.lc - 1).zeroExtend 64)), due s 1 (.special 0x09 ((c.rrb - 1).zeroExtend 64)),
          due s 1 (.special 0x0A ((c.awb + w.signExtend 11).zeroExtend 64)),
          due s 1 (.pred (physP (c.rrb - 1) 4) (decide (n.toNat + 1 ≤ (c.lc - 1).toNat)))]))

/-- `ARRB`, `WAITB`, `WAITT` and `WAITP`: one arrival is counted, the phase that completes is released 24 cycles later, and the
waits stop issue at their bundle until their condition holds (R29, R31, R32, R445 to R448). -/
def Obligations.BarriersAndWaits : Prop :=
  ∀ (s : State) (b : BitVec 11) (c : BitVec 12) (k a : BitVec 6) (p : BitVec 3),
    (Runs (.arrb b c p) p s → exec (.arrb b c p) s = .next (arrived s b.toNat c.toNat)) ∧
    (Runs (.waitb b c p) p s → exec (.waitb b c p) s = .next (waits (arrived s b.toNat c.toNat)
      (.barrier b.toNat (tget {} (s.gang s.core.task.gid).barriers b.toNat).phase) none)) ∧
    (Runs (.waitt k p) p s → exec (.waitt k p) s = .next (waits s (.token (tokenCmd s k))
      (if bits (cmdWord s (tokenCmd s k)) 63 61 ≠ 0 then some s.clock else none))) ∧
    (Runs (.waitp k a p) p s → exec (.waitp k a p) s =
      .next (waits (tainted s (readScalar s a).2) (.pointer (tokenCmd s k) (readScalar s a).1.toNat)
        (if bits (cmdWord s (tokenCmd s k)) 63 61 ≠ 0 ∨ (readScalar s a).1.toNat ≤ bits (cmdWord s (tokenCmd s k)) 20 0
         then some s.clock else none)))

/-- `SEG`, `SEGE`, `TRIG`, `END` and `IFENCE` at issue, with what the marks of `SEGE`, `TRIG` and `END` do as they land one cycle
later. `SEG` opens a segment, loses the latches and changes nothing else, its re-plan bit included: a marked `SEG` outside a segment stops
the gang there while a re-plan of the job is pending, unless the task has just been let go on from it, and the bundle does not issue. `SEGE`
raises the segment fault exactly when the count or the signature, its own bundle among them, differs from the expected one: DETAIL bit 0 says the
count, bit 1 the signature (R34, R42, R43, R66, R79, R152, R283, R372, R376, R408, R410, R427). That the three marks take effect between bundles, as results of latency 1, is the model's reading (log entry 21), and so is which gangs an open
phase holds (log entry 35). -/
def Obligations.SegmentsAndTaskMarks : Prop :=
  ∀ (s : State) (e g : BitVec 6) (m : BitVec 1) (p : BitVec 3),
    (Runs (.seg e g m p) p s →
      let t := tainted s ((readScalar s e).2 || (readScalar s g).2)
      exec (.seg e g m p) s = .next { t with core := { t.core with
        regs := { s.core.regs with latches := [] },
        ctl := { t.core.ctl with
          inseg := true, sgsc := 0, sgsh := 0, ecnt := (readScalar s e).1.truncate 32, esig := (readScalar s g).1.truncate 32 } } }) ∧
    (∀ ds, let ws := ds.filterMap fun (d : Slot × Except Reject Instr) => d.2.toOption
      .seg e g 1 p ∈ ws → readPred s p = true → s.core.ctl.inseg = false →
      ((s.gang s.core.task.gid).counted = true ∨
        ((s.job (s.gang s.core.task.gid).pasid).phaseLeft ≠ 0 ∧ s.core.ctl.passes ≠ some s.core.ctl.cyc)) →
      (s.gang s.core.task.gid).stopAt = false → canalFaults s [] = [] → ∃ t, issueDecoded s ds = .next t ∧
        t.core = s.core ∧ t.tiles = s.tiles ∧ t.mem = s.mem ∧ t.jobs = s.jobs ∧ t.lk = s.lk ∧
        .replan ∈ (t.gang s.core.task.gid).causes) ∧
    (∀ r : State, landEffect r (.special 0x100 0) = { r with core := { r.core with ctl := { r.core.ctl with inseg := false } } } ∧
      landEffect r (.special 0x101 0) = (if r.core.task.trig then r
        else { r with core := { r.core with task := { r.core.task with trig := true, trigBound := r.core.barge.nextId } } }) ∧
      landEffect r (.special 0x102 0) = { r with core := { r.core with ctl := { r.core.ctl with status := .ended } } }) ∧
    (Runs (.sege p) p s → exec (.sege p) s = .next (queued
      (tainted s (s.core.regs.vPoison.any (·.2) || s.core.regs.sPoison.any (·.2) || s.core.regs.mPoison.any (·.2) ||
        s.core.regs.accPoison.any (·.2) || s.core.regs.q.any fun x => x.2.poison)) [due s 1 (.special 0x100 0)])) ∧
    (let c := s.core.ctl
     let counts : Prop := c.sgsc + 1 = c.ecnt
     let signs : Prop := c.sgsh + bundleCrc c.ir = c.esig
     ∀ d, Raises s (.sege p) 5 d ↔ readPred s p = true ∧ ¬ (counts ∧ signs) ∧ d = (if counts then 0 else 1) + (if signs then 0 else 2)) ∧
    (Runs (.trig p) p s → exec (.trig p) s = .next (queued s [due s 1 (.special 0x101 0)])) ∧
    (Runs (.endTask p) p s → exec (.endTask p) s = .next (queued s [due s 1 (.special 0x102 0)])) ∧
    (Runs (.ifence p) p s → ∃ t, exec (.ifence p) s = .next t ∧
      t.core.isram.bundles = s.core.isram.bundles ∧ (∀ x ∈ t.core.isram.unseen, x ∈ s.core.isram.unseen) ∧
      (∀ x ∈ t.core.isram.unseen, ¬ s.core.barge.observed.contains x.2.1) ∧
      { t with core := { t.core with isram := s.core.isram } } = s)

/-- `SNAP.job` leaves a cut pending, merged into one that stands; `GENQ` gives state, undrained rows and number (R225, R226, R238,
R375, R419). That a released generation with no retained one at or below it reads 6, and that one of a job that retains none reads
Released, is the model's reading (log entry 29). -/
def Obligations.CutWords : Prop :=
  ∀ (s : State) (d a : BitVec 6) (p : BitVec 3),
    (Runs (.snap p) p s → exec (.snap p) s = .next (s.mapJob s.core.task.pasid fun j =>
      { j with cut := if j.cut.isSome then j.cut else some (.pending false) })) ∧
    (Runs (.genq d a p) p s →
      let g := (readScalar s a).1.toNat % 2 ^ 32
      let j := s.job s.core.task.pasid
      ∃ st rows, exec (.genq d a p) s =
          .next (queued s (scalarOut s 0 2 d (BitVec.ofNat 64 (st * 2 ^ 61 + rows * 2 ^ 32 + g)) (readScalar s a).2)) ∧
        (j.gen < g → st = 6 ∧ rows = 0) ∧ (j.gen = g → rows = 0 ∧ st = match j.cut with
          | some (.pending _) | some (.running _ _ _) => 1
          | _ => 0) ∧
        (g < j.gen → (∀ y ∈ j.gens, y.num ≠ g) → st = 6 ∧ rows = 0) ∧
        (∀ x, g < j.gen → j.gens.find? (fun y => y.num == g) = some x →
          let known : Prop := x.state ≠ .released ∨ (∀ y ∈ j.gens, y.state = .released) ∨ ∃ y ∈ j.gens, y.state ≠ .released ∧ y.num ≤ g
          (¬ known → st = 6 ∧ rows = 0) ∧
          (known → rows = (tget {} x.images s.cur).rowsLeft ∧
            st = match x.state with
              | .draining => 2
              | .drained => 3
              | .released => 4
              | .failed => 5)))

/-- `BRK` and `TRAP` take effect and open a trap record with CAUSE 9 or 10 and the code as DETAIL; the trap hold of the gang is
requested, 16 + P cycles ahead when the gang was neither held nor being held; issue goes on (R38, R284, R285, R363, R426). -/
def Obligations.SoftwareTraps : Prop :=
  ∀ (s : State) (c : BitVec 8) (p : BitVec 3),
    let opens (cause : Nat) (t : State) : Prop :=
      (∃ r, t.core.ctl.trap = some r ∧ r.cause = cause ∧ r.detail = c.toNat ∧ r.slot = 0 ∧ r.pc = s.core.ctl.pc ∧
        r.tcyc = s.core.ctl.cyc ∧ r.tclk = s.clock ∧ r.bundle = s.core.ctl.ir ∧ r.late = false ∧ r.final = false) ∧
      HoldCause.trap ∈ (t.gang s.core.task.gid).causes ∧
      ((s.gang s.core.task.gid).held = false → (s.gang s.core.task.gid).effectAt = none →
        (t.gang s.core.task.gid).effectAt = some (s.clock + 16 + (s.gang s.core.task.gid).pad)) ∧
      t.core.ctl.status = s.core.ctl.status ∧ t.core.regs = s.core.regs ∧ t.core.results = s.core.results ∧ t.mem = s.mem
    s.core.ctl.trap = none →
      (Runs (.brk c p) p s → ∃ t, exec (.brk c p) s = .next t ∧ opens 9 t) ∧
      (Runs (.trap c p) p s → ∃ t, exec (.trap c p) s = .next t ∧ opens 10 t)

/-! ### The V slots -/

/-- Float arithmetic: each element is the exact value of R103 rounded once by the word's rounding code, the flags are the union over
the elements, and poison passes on (R101 to R103, R324, R429 to R431, R434). -/
def Obligations.VectorFloatArithmetic : Prop :=
  ∀ (s : State) (u : VSlot) (f : BitVec 2) (r : BitVec 3) (d a b : BitVec 6) (p : BitVec 3),
    let g := fmtOf f.toNat
    let x := lane (fw f) (readVector s a).1
    let y := lane (fw f) (readVector s b).1
    let z := lane (fw f) (readV s d.toNat).1
    let bad := (readVector s a).2 || (readVector s b).2
    (Runs (.vaddF u f r d a b p) p s → VecDone (.vaddF u f r d a b p) s u d 3 1 bad
      (FloatRow f fun j => exactRound g r.toNat [[(g, x j)], [(g, y j)]])) ∧
    (Runs (.vsubF u f r d a b p) p s → VecDone (.vsubF u f r d a b p) s u d 3 1 bad
      (FloatRow f fun j => exactRound g r.toNat [[(g, x j)], [(g, negF g (y j))]])) ∧
    (Runs (.vmulF u f r d a b p) p s → VecDone (.vmulF u f r d a b p) s u d 3 1 bad
      (FloatRow f fun j => exactRound g r.toNat [[(g, x j), (g, y j)]])) ∧
    (Runs (.vfma u f r d a b p) p s → VecDone (.vfma u f r d a b p) s u d 4 1 (bad || (readV s d.toNat).2)
      (FloatRow f fun j => exactRound g r.toNat [[(g, x j), (g, y j)], [(g, z j)]])) ∧
    (Runs (.vrint u f r d a p) p s → VecDone (.vrint u f r d a p) s u d 3 1 (readVector s a).2
      (FloatRow f fun j => rintF g r.toNat (x j))) ∧
    (Runs (.vscale u f r d a b p) p s → VecDone (.vscale u f r d a b p) s u d 3 1 bad
      (FloatRow f fun j => scaleF g r.toNat (x j) (toSigned (8 * fw f) (y j)))) ∧
    (Runs (.vredF u f r d a p) p s → VecDone (.vredF u f r d a p) s u d 6 1 (readVector s a).2 fun row fl =>
      let e := exactRound g r.toNat ((List.range (96 / fw f)).map fun j => [(g, x j)])
      row = BitVec.ofNat 768 e.1 ∧ fl = e.2)

/-- Float sign operations, maxima and compares: the sign bit of R432 written out in arithmetic, all-ones masks for compares (R432,
R433). -/
def Obligations.VectorFloatSignsAndCompares : Prop :=
  ∀ (s : State) (u : VSlot) (f : BitVec 2) (d a b : BitVec 6) (p : BitVec 3),
    let g := fmtOf f.toNat
    let top := 2 ^ (8 * fw f - 1)
    let x := lane (fw f) (readVector s a).1
    let y := lane (fw f) (readVector s b).1
    let bad := (readVector s a).2 || (readVector s b).2
    let mask (c : Nat) (j : Nat) : Nat × Flags :=
      (if (compareF g c (x j) (y j)).1 then 2 ^ (8 * fw f) - 1 else 0, (compareF g c (x j) (y j)).2)
    (Runs (.vabsF u f d a p) p s → VecDone (.vabsF u f d a p) s u d 3 1 (readVector s a).2
      (FloatRow f fun j => (x j % top, 0))) ∧
    (Runs (.vnegF u f d a p) p s → VecDone (.vnegF u f d a p) s u d 3 1 (readVector s a).2
      (FloatRow f fun j => ((x j + top) % (2 * top), 0))) ∧
    (Runs (.vcpys u f d a b p) p s → VecDone (.vcpys u f d a b p) s u d 3 1 bad
      (FloatRow f fun j => (x j % top + y j / top * top, 0))) ∧
    (Runs (.vmaxF u f d a b p) p s → VecDone (.vmaxF u f d a b p) s u d 3 1 bad
      (FloatRow f fun j => maxMinF g true (x j) (y j))) ∧
    (Runs (.vminF u f d a b p) p s → VecDone (.vminF u f d a b p) s u d 3 1 bad
      (FloatRow f fun j => maxMinF g false (x j) (y j))) ∧
    (Runs (.vcmpEqF u f d a b p) p s → VecDone (.vcmpEqF u f d a b p) s u d 3 1 bad (FloatRow f (mask 0))) ∧
    (Runs (.vcmpLtF u f d a b p) p s → VecDone (.vcmpLtF u f d a b p) s u d 3 1 bad (FloatRow f (mask 1))) ∧
    (Runs (.vcmpLeF u f d a b p) p s → VecDone (.vcmpLeF u f d a b p) s u d 3 1 bad (FloatRow f (mask 2)))

/-- Rounding, apart from the model's own function: the rounded value of every exact ±m·2^e in each of the six formats and five modes is
the one that R93 to R95 and Table 4.5 describe, with and without saturation. -/
def Obligations.FloatRounding : Prop :=
  ∀ (c rm : Nat) (s : Bool) (m : Nat) (e : Int), c < 6 → rm < 5 →
    Rounded c rm false s m e (roundTo (fmtOf c) rm s m e) ∧ ∀ sat, Rounded c rm sat s m e (roundSat (fmtOf c) rm sat s m e)

/-- The element functions of the float words, apart from the model's own: exact sums with their special cases, conversions between
formats, to and from integers, rounding to an integral value, scaling, exponent and fraction, compares, maximum and minimum, and the
elements of a chained beat (R91, R97 to R103, R111, R113, R125, R431 to R433). That `saturate` of an n8 element of a chained beat is
unsigned is the model's reading (log entry 32). -/
def Obligations.FloatOperations : Prop :=
  ∀ (c rm x : Nat), c < 6 → rm < 5 → x < 2 ^ (1 + expBits c + fracBits c) →
    (∀ terms : List (List (Nat × Nat)), (∀ t ∈ terms, (t.length = 1 ∨ t.length = 2) ∧ ∀ o ∈ t, o.1 < 6) →
      SumIs c rm terms (exactRound (fmtOf c) rm (terms.map fun t => t.map fun o => (fmtOf o.1, o.2)))) ∧
    (∀ d sat, d < 6 → ConvertIs c d rm sat 0 x (convertF (fmtOf c) (fmtOf d) rm sat x)) ∧
    (∀ d sat k, d < 6 → ConvertIs c d rm sat k x (convertScaled (fmtOf c) (fmtOf d) rm sat k x)) ∧
    (∀ n, ConvertIs c c rm false n x (scaleF (fmtOf c) rm x n)) ∧
    (∀ sat (v : Int), Rounded c rm sat (decide (v < 0)) v.natAbs 0 (intToFloat (fmtOf c) rm sat v)) ∧
    (∀ signed n, n ∈ [8, 16, 32, 64] →
      let lo : Int := if signed then -(2 ^ (n - 1) : Nat) else 0
      let hi : Int := if signed then (2 ^ (n - 1) : Nat) - 1 else (2 ^ n : Nat) - 1
      let d := 2 ^ (-unitExp c).toNat
      let r := floatToInt (fmtOf c) signed n rm x
      (nanAt c x = true → r = (0, 1)) ∧ (infAt c x = true → r = (wrapped n (if negAt c x then lo else hi), 1)) ∧
      (finiteAt c x → ∃ q, IntRounded rm (negAt c x) (magAt c x) d q ∧
        let v : Int := if negAt c x then -(q : Int) else q
        r = if v < lo then (wrapped n lo, 1) else if hi < v then (wrapped n hi, 1) else (wrapped n v, if q * d = magAt c x then 0 else 16))) ∧
    (let d := 2 ^ (-unitExp c).toNat
     let r := rintF (fmtOf c) rm x
     (nanAt c x = true → r = (carried c c x, invIf (signalAt c x))) ∧ (infAt c x = true ∨ magAt c x = 0 → r = (x, 0)) ∧
     (finiteAt c x → finiteAt c r.1 ∧ negAt c r.1 = negAt c x ∧ ∃ q, IntRounded rm (negAt c x) (magAt c x) d q ∧ magAt c r.1 = q * d ∧
       r.2 = if q * d = magAt c x then 0 else 16)) ∧
    (let w := 1 + expBits c + fracBits c
     let e := expSplit (fmtOf c) false x
     let g := expSplit (fmtOf c) true x
     (nanAt c x = true → e = (2 ^ (w - 1) - 1, invIf (signalAt c x)) ∧ g = (carried c c x, invIf (signalAt c x))) ∧
     (infAt c x = true → e = (2 ^ (w - 1) - 1, 0) ∧ g = (x, 0)) ∧ (magAt c x = 0 → e = (2 ^ (w - 1), 0) ∧ g = (x, 0)) ∧
     (finiteAt c x → magAt c x ≠ 0 → ∃ q : Nat, 2 ^ q ≤ magAt c x ∧ magAt c x < 2 ^ (q + 1) ∧ e = (wrapped w ((q : Int) + unitExp c), 0) ∧
       finiteAt c g.1 ∧ negAt c g.1 = negAt c x ∧ magAt c g.1 * 2 ^ q = magAt c x * 2 ^ (-unitExp c).toNat ∧ g.2 = 0)) ∧
    (∀ y, y < 2 ^ (1 + expBits c + fracBits c) →
      let nan := nanAt c x || nanAt c y
      let snan := signalAt c x || signalAt c y
      let a := unitsAt c x
      let b := unitsAt c y
      let below : Prop := a < b ∨ (a = b ∧ negAt c x = true ∧ negAt c y = false)
      let above : Prop := b < a ∨ (a = b ∧ negAt c x = false ∧ negAt c y = true)
      compareF (fmtOf c) 0 x y = (!nan && a == b, invIf snan) ∧ compareF (fmtOf c) 1 x y = (!nan && decide (a < b), invIf nan) ∧
      compareF (fmtOf c) 2 x y = (!nan && decide (a ≤ b), invIf nan) ∧
      ∀ top, let r := maxMinF (fmtOf c) top x y
        r.2 = invIf snan ∧ (nanAt c x = true → nanAt c y = true → r.1 = carried c c x) ∧
        (nanAt c x = true → nanAt c y = false → r.1 = y) ∧ (nanAt c x = false → nanAt c y = true → r.1 = x) ∧
        (nan = false → (if top then below else above) → r.1 = y) ∧ (nan = false → ¬ (if top then below else above) → r.1 = x)) ∧
    (∀ f, f < 6 → c = (if f = 0 then 0 else 1) → ConvertIs c f rm false 0 x (chainElem f rm x)) ∧
    (∀ z, chainElem 6 rm z = (wrapped 8 (max (-128) (min 127 (toSigned 32 z))), 0) ∧
      chainElem 7 rm z = (wrapped 8 (max 0 (min 255 (toSigned 32 z))), 0)) ∧
    (∀ neg, unitsAt c (unitElem c neg) = (if neg then -1 else 1) * (2 ^ (-unitExp c).toNat : Nat))

/-- The class T functions: the special operands of Table 4.7 and the range of R110 give the results stated there; 1/x and √x are correctly
rounded in every format, and so is 1/√x in the two 16-bit formats; in f64 and f32 1/√x is within 1.0 ulp, on the side that the rounding
code asks for, and exact when it is representable; 2 to an integer and the logarithm of a power of two are exact. Every other element is the
value that the device gives for the operation, format, rounding code and operand, 20 cycles and four beats in f64, 8 cycles and one beat
otherwise (R61, R106 to R110, R435); `TranscendentalBounds` states how close it lies. Which allowed value it is rests on no number of the model (log entry 10). -/
def Obligations.VectorTranscendentals : Prop :=
  ∀ (s : State) (u : VSlot) (f : BitVec 2) (r : BitVec 3) (d a : BitVec 6) (p : BitVec 3), r.toNat < 5 →
    let x := lane (fw f) (readVector s a).1
    let lat := if f = 0 then 20 else 8
    let beats := if f = 0 then 4 else 1
    let done (i : Instr) (o : TOp) : Prop := Runs i p s → VecDone i s u d lat beats (readVector s a).2
      (FloatRow f fun j => transF o f.toNat r.toNat (x j))
    let c := f.toNat
    let one (neg : Bool) : Nat := floatBits c neg (expBias c) 0
    let inf (neg : Bool) : Nat := floatBits c neg (expTop c) 0
    let nan : Nat × Flags := (defaultNan c, 1)
    (∀ y, y < 2 ^ (8 * fw f) → let t := fun o => transF o c r.toNat y
      (nanAt c y = true → ∀ o, t o = (carried c c y, invIf (signalAt c y))) ∧
      (magAt c y = 0 → t .exp2 = (one false, 0) ∧ t .log2 = (inf true, 2) ∧ t .rcp = (inf (negAt c y), 2) ∧ t .sqrt = (y, 0) ∧
        t .rsq = (inf (negAt c y), 2) ∧ t .sin = (y, 0) ∧ t .cos = (one false, 0) ∧ t .tanh = (y, 0)) ∧
      (y = inf false → t .exp2 = (y, 0) ∧ t .log2 = (y, 0) ∧ t .rcp = (0, 0) ∧ t .sqrt = (y, 0) ∧ t .rsq = (0, 0) ∧ t .sin = nan ∧
        t .cos = nan ∧ t .tanh = (one false, 0)) ∧
      (y = inf true → t .exp2 = (0, 0) ∧ t .log2 = nan ∧ t .rcp = (floatBits c true 0 0, 0) ∧ t .sqrt = nan ∧ t .rsq = nan ∧
        t .sin = nan ∧ t .cos = nan ∧ t .tanh = (one true, 0)) ∧
      (finiteAt c y → negAt c y = true → magAt c y ≠ 0 → t .log2 = nan ∧ t .sqrt = nan ∧ t .rsq = nan) ∧
      (c < 2 → finiteAt c y → 2 ^ ((if c = 1 then 20 else 30) - unitExp c).toNat ≤ magAt c y →
        t .sin = (defaultNan c + 0x2A, 32) ∧ t .cos = (defaultNan c + 0x2A, 32)) ∧
      (∀ v : ℝ, finiteAt c y → magAt c y ≠ 0 → Spells c y v →
        RoundedReal c r.toNat (negAt c y) |1 / v| (t .rcp) ∧
        (negAt c y = false → RoundedReal c r.toNat false (Real.sqrt v) (t .sqrt) ∧
          if c < 2 then WithinUlp c r.toNat (1 / Real.sqrt v) (t .rsq) else RoundedReal c r.toNat false (1 / Real.sqrt v) (t .rsq)) ∧
        (∀ (k : ℤ) z, finiteAt c z → v = k → negAt c z = false → Spells c z ((2 : ℝ) ^ k) → t .exp2 = (z, 0)) ∧
        (∀ (k : ℤ) z, finiteAt c z → v = (2 : ℝ) ^ k → Spells c z k → (k = 0 → negAt c z = false) → t .log2 = (z, 0)))) ∧
    done (.vrcp u f r d a p) .rcp ∧ done (.vsqrt u f r d a p) .sqrt ∧ done (.vrsq u f r d a p) .rsq ∧
    done (.vexp2 u f r d a p) .exp2 ∧ done (.vlog2 u f r d a p) .log2 ∧ done (.vsin u f r d a p) .sin ∧
    done (.vcos u f r d a p) .cos ∧ done (.vtanh u f r d a p) .tanh

/-- The bounds of Table 4.6 for 2^x, log₂ x, sin, cos and tanh, at every finite operand whose function value is not zero and lies in the finite range: 1.0 ulp, 1.5 ulp
below the range limit and 2.0 ulp in f32 and f64, the distance of a correct rounding in f16 and b16, and the side that the rounding code asks for (R106 to R108,
R110). That each holds apart from a part in 2^100 of the value, and for sin and cos of an operand above 1 from 2^-300, is the statement's own slack: no such
function value is known to keep so far from every number of the format. -/
def Obligations.TranscendentalBounds : Prop :=
  ∀ (c rm x : Nat) (v : ℝ), c < 4 → rm < 5 → x < 2 ^ (8 * (fmtOf c).bytes) → finiteAt c x → magAt c x ≠ 0 → Spells c x v →
    let ulps (h : ℝ) : ℝ := if c < 2 then h else if rm = 0 ∨ rm = 4 then 1 / 2 else 1
    let largest : ℝ := ((2 ^ (fracBits c + 1) - 1) * 2 ^ (expTop c - 2) : Nat) * (2 : ℝ) ^ unitExp c
    let limit : ℝ := if c = 1 then 2 ^ 20 else 2 ^ 30
    let far : ℝ := if |v| ≤ 1 then 0 else (2 : ℝ) ^ (-300 : ℤ)
    let near (h e y : ℝ) (o : TOp) : Prop := y ≠ 0 → |y| * (1 + (2 : ℝ) ^ (-90 : ℤ)) ≤ largest → NearUlps c rm (ulps h) e y (transF o c rm x)
    near 1 0 ((2 : ℝ) ^ v) .exp2 ∧ (0 < v → near 1 0 (Real.logb 2 v) .log2) ∧
    (c < 2 → limit ≤ |v| ∨ near (3 / 2) far (Real.sin v) .sin ∧ near (3 / 2) far (Real.cos v) .cos) ∧
    (2 ≤ c → near (3 / 2) far (Real.sin v) .sin ∧ near (3 / 2) far (Real.cos v) .cos) ∧ near 2 0 (Real.tanh v) .tanh

/-- Integer arithmetic by element: exact, then wrapped or saturated; no flag is raised (R96, R438, R442). -/
def Obligations.VectorIntegerArithmetic : Prop :=
  ∀ (s : State) (u : VSlot) (w : BitVec 3) (sat : BitVec 1) (d a b : BitVec 6) (p : BitVec 3),
    let x := intLane w (readVector s a).1
    let y := intLane w (readVector s b).1
    let bad := (readVector s a).2 || (readVector s b).2
    let row (v : Nat → Nat) (r : Row) (fl : Flags) : Prop := fl = 0 ∧ Lanes (widthOf w) r v
    (Runs (.vaddI u w sat d a b p) p s → VecDone (.vaddI u w sat d a b p) s u d 2 1 bad
      (row fun j => narrowed w (sat == 1) (x j + y j))) ∧
    (Runs (.vsubI u w sat d a b p) p s → VecDone (.vsubI u w sat d a b p) s u d 2 1 bad
      (row fun j => narrowed w (sat == 1) (x j - y j))) ∧
    (Runs (.vmulI u w sat d a b p) p s → VecDone (.vmulI u w sat d a b p) s u d 2 1 bad
      (row fun j => narrowed w (sat == 1) (x j * y j))) ∧
    (Runs (.vmulh u w d a b p) p s → VecDone (.vmulh u w d a b p) s u d 2 1 bad
      (row fun j => narrowed w false ((x j * y j) / (2 ^ bitsOf w : Nat)))) ∧
    (Runs (.vmaxI u w d a b p) p s → VecDone (.vmaxI u w d a b p) s u d 2 1 bad (row fun j => narrowed w false (max (x j) (y j)))) ∧
    (Runs (.vminI u w d a b p) p s → VecDone (.vminI u w d a b p) s u d 2 1 bad (row fun j => narrowed w false (min (x j) (y j)))) ∧
    (Runs (.vmaxe u w d a b p) p s → VecDone (.vmaxe u w d a b p) s u d 2 1 bad (row fun j => narrowed w false (max (x j) (y j)))) ∧
    (Runs (.vabsI u w sat d a p) p s → VecDone (.vabsI u w sat d a p) s u d 2 1 (readVector s a).2
      (row fun j => narrowed w (sat == 1) ((x j).natAbs : Int))) ∧
    (Runs (.vnegI u w sat d a p) p s → VecDone (.vnegI u w sat d a p) s u d 2 1 (readVector s a).2
      (row fun j => narrowed w (sat == 1) (-(x j)))) ∧
    (Runs (.vredI u w sat d a p) p s → VecDone (.vredI u w sat d a p) s u d 6 1 (readVector s a).2
      (row fun j => if j = 0 then narrowed w (sat == 1) (((List.range (96 / widthOf w)).map x).sum) else 0))

/-- Bitwise operations, shifts, bit counts and integer compares by element (R433, R439, R440). -/
def Obligations.VectorBits : Prop :=
  ∀ (s : State) (u : VSlot) (w : BitVec 3) (d a b : BitVec 6) (p : BitVec 3),
    let x := lane (widthOf w) (readVector s a).1
    let y := lane (widthOf w) (readVector s b).1
    let xi := intLane w (readVector s a).1
    let yi := intLane w (readVector s b).1
    let bad := (readVector s a).2 || (readVector s b).2
    let row (v : Nat → Nat) (r : Row) (fl : Flags) : Prop := fl = 0 ∧ Lanes (widthOf w) r v
    let ones : Nat := 2 ^ bitsOf w - 1
    (Runs (.vand u w d a b p) p s → VecDone (.vand u w d a b p) s u d 2 1 bad (row fun j => x j &&& y j)) ∧
    (Runs (.vor u w d a b p) p s → VecDone (.vor u w d a b p) s u d 2 1 bad (row fun j => x j ||| y j)) ∧
    (Runs (.vxor u w d a b p) p s → VecDone (.vxor u w d a b p) s u d 2 1 bad (row fun j => x j ^^^ y j)) ∧
    (Runs (.vshl u w d a b p) p s → VecDone (.vshl u w d a b p) s u d 2 1 bad
      (row fun j => if bitsOf w ≤ y j then 0 else x j * 2 ^ y j)) ∧
    (Runs (.vshr u w d a b p) p s → VecDone (.vshr u w d a b p) s u d 2 1 bad
      (row fun j => wrapInt (bitsOf w) (xi j / (2 ^ (min (y j) (bitsOf w)) : Nat)))) ∧
    (Runs (.vclz u w d a p) p s → VecDone (.vclz u w d a p) s u d 2 1 (readVector s a).2
      (row fun j => leadingZeros (bitsOf w) (x j))) ∧
    (Runs (.vffs u w d a p) p s → VecDone (.vffs u w d a p) s u d 2 1 (readVector s a).2
      (row fun j => firstSet (bitsOf w) (x j))) ∧
    (Runs (.vpopc u w d a p) p s → VecDone (.vpopc u w d a p) s u d 2 1 (readVector s a).2
      (row fun j => (List.range (bitsOf w)).countP fun k => (x j).testBit k)) ∧
    (Runs (.vcmpEqI u w d a b p) p s → VecDone (.vcmpEqI u w d a b p) s u d 2 1 bad
      (row fun j => if xi j = yi j then ones else 0)) ∧
    (Runs (.vcmpLtI u w d a b p) p s → VecDone (.vcmpLtI u w d a b p) s u d 2 1 bad
      (row fun j => if xi j < yi j then ones else 0)) ∧
    (Runs (.vcmpLeI u w d a b p) p s → VecDone (.vcmpLeI u w d a b p) s u d 2 1 bad
      (row fun j => if xi j ≤ yi j then ones else 0))

/-- Selection, permutation, broadcast, exponent splitting and conversion by element (R436, R437, R441, R444). -/
def Obligations.VectorMovesAndConversions : Prop :=
  ∀ (s : State) (u : VSlot) (w : BitVec 3) (f : BitVec 2) (r : BitVec 3) (d a b : BitVec 6) (g4 h4 : BitVec 4) (g3 : BitVec 3)
    (sat y x1 : BitVec 1) (p : BitVec 3),
    let va := (readVector s a).1
    let vb := (readVector s b).1
    let m := (readV s d.toNat).1
    let bad := (readVector s a).2 || (readVector s b).2
    let n := 96 / widthOf w
    let c : BitVec 2 := if w = 2 then 2 else if w = 3 then 3 else if w = 4 then 1 else 0
    let row (v : Nat → Nat) (r : Row) (fl : Flags) : Prop := fl = 0 ∧ Lanes (widthOf w) r v
    (Runs (.vsel u w d a b p) p s → VecDone (.vsel u w d a b p) s u d 2 1 (bad || (readV s d.toNat).2)
      (row fun j => if lane (widthOf w) m j ≠ 0 then lane (widthOf w) va j else lane (widthOf w) vb j)) ∧
    (Runs (.vshuf u w d a b p) p s → VecDone (.vshuf u w d a b p) s u d 2 1 bad
      (row fun j => if lane (widthOf w) vb j < n then lane (widthOf w) va (lane (widthOf w) vb j) else 0)) ∧
    (Runs (.vdup u w d a b p) p s → VecDone (.vdup u w d a b p) s u d 2 1 bad
      (row fun _ => if lane (widthOf w) vb 0 < n then lane (widthOf w) va (lane (widthOf w) vb 0) else 0)) ∧
    (Runs (.vexps u w x1 d a p) p s → VecDone (.vexps u w x1 d a p) s u d 2 1 (readVector s a).2
      (FloatRow c fun j => expSplit (fmtOf c.toNat) (x1 == 1) (lane (fw c) va j))) ∧
    (Runs (.vcvtFromFloat u f r d a g4 sat p) p s → VecDone (.vcvtFromFloat u f r d a g4 sat p) s u d 3 1 (readVector s a).2
      (Converted (fw f) (codeWidth g4.toNat) va (fromFloat f.toNat r.toNat g4.toNat (sat == 1)))) ∧
    (Runs (.vcvtFromInt u w sat y d a r g3 p) p s → VecDone (.vcvtFromInt u w sat y d a r g3 p) s u d 3 1 (readVector s a).2
      (Converted (widthOf w) (if y = 1 then widthOf g3 else (fmtOf g3.toNat).bytes) va
        (fromInt w r.toNat (y == 1) g3.toNat (sat == 1)))) ∧
    (Runs (.vcvtWidenF8 u h4 d a g4 p) p s → VecDone (.vcvtWidenF8 u h4 d a g4 p) s u d 3 1 (readVector s a).2
      (Converted 1 (codeWidth g4.toNat) va (fromFloat h4.toNat 0 g4.toNat false)))

/-! ### The M slot -/

/-- `MPUSH`, `MZERO`, `MFS` of every register of Table 3.5, `MTS` and `MSTA`; `MHAD`, with 64 columns of a block-diagonal Hadamard matrix, readable 66
cycles after issue, the M slot occupied for 64 (R74, R118, R127 to R129, R386 to R390, R392). -/
def Obligations.MatrixMoves : Prop :=
  ∀ (s : State) (l n w : BitVec 2) (c v d a : BitVec 6) (o n8 : BitVec 8) (k p : BitVec 3),
    let width := if w = 0 then 4 else 8
    let count := min ((tget 0x00400060#32 s.core.regs.mks k.toNat).toNat / 2 ^ 16 % 128) (if w = 0 then 64 else 32)
    let r := windowRow s o.toNat
    let bad := accBad s r
    let s1 := tainted s (readScalar s a).2
    (Runs (.mpush l c v p) p s → exec (.mpush l c v p) s =
      .next (queued s [due s 2 (.column l.toNat c.toNat (readVector s v).1 (readVector s v).2)])) ∧
    (Runs (.mzero n o p) p s → exec (.mzero n o p) s =
      .next (queued s ((List.range (2 ^ n.toNat)).map fun i => due s 6 (.zeroRow (windowRow s (o.toNat + i)))))) ∧
    (Runs (.mfs n8 d p) p s → exec (.mfs n8 d p) s = .next (queued s (scalarOut s 4 2 d (specialValue s n8.toNat) false))) ∧
    (Runs (.mts n8 a p) p s → exec (.mts n8 a p) s =
      .next (queued (tainted s (readScalar s a).2) [due s 1 (.special n8.toNat (readScalar s a).1)])) ∧
    (Runs (.msta w o a k p) p s → exec (.msta w o a k p) s = .next
      (if count = 0 then s1
       else queued (tainted (metAcc s1 r) bad) [due s 2 (.store (stageAt s a 0 width)
         (bytesOf (width * count) (tget 0 s.core.regs.acc r).toNat) bad)])) ∧
    ∀ (o : BitVec 2) (f : BitVec 4),
    let g := if f = 8 then 6 else f.toNat
    let n := 16 * 2 ^ o.toNat
    hadamardPair f o = true → Runs (.mhad l o f p) p s → ∃ cols : List Row, cols.length = 64 ∧
      (∀ j k, j < 64 → k < tableK g → lane (inBytes g) (cols.getD j 0) k =
        if k / n = j / n ∧ (k / n + 1) * n ≤ min (tableK g) (tableN g) then
          unitElem g (decide (popCount 8 ((k % n) &&& (j % n)) % 2 = 1)) % 2 ^ (8 * inBytes g)
        else 0) ∧
      exec (.mhad l o f p) s = .next (queued
        { busyFor s 4 64 with core := { (busyFor s 4 64).core with ctl := { (busyFor s 4 64).core.ctl with
            mhadAt := tset 0 s.core.ctl.mhadAt l.toNat (s.core.ctl.cyc + 1) } } }
        [due s 66 (.hadamard l.toNat cols)])

/-- The beats of the eight input formats, and the chained beats, whose A row is a group of an accumulator row (R119, R120, R121, R125).
That `saturate` of an n8 element of a chained beat is unsigned is the model's reading (log entry 32). -/
def Obligations.MatrixBeats : Prop :=
  ∀ (s : State) (l : BitVec 2) (w : BitVec 8) (k r : BitVec 3) (f : BitVec 1) (p : BitVec 3),
    (∀ v : BitVec 6,
      MaccDone (.maccF64 l w v k r f p) s 0 l w v k r f p ∧ MaccDone (.maccF32 l w v k r f p) s 1 l w v k r f p ∧
      MaccDone (.maccF16 l w v k r f p) s 2 l w v k r f p ∧ MaccDone (.maccB16 l w v k r f p) s 3 l w v k r f p ∧
      MaccDone (.maccF8e4 l w v k r f p) s 4 l w v k r f p ∧ MaccDone (.maccF8e5 l w v k r f p) s 5 l w v k r f p ∧
      MaccDone (.maccI8 l w v k f p) s 6 l w v k 0 f p ∧ MaccDone (.maccN8 l w v k f p) s 7 l w v k 0 f p) ∧
    ∀ (o : BitVec 4) (g : BitVec 2),
      MaccaDone (.maccaF64 l w o g k r f p) s 0 l w o g k r f p ∧ MaccaDone (.maccaF32 l w o g k r f p) s 1 l w o g k r f p ∧
      MaccaDone (.maccaF16 l w o g k r f p) s 2 l w o g k r f p ∧ MaccaDone (.maccaB16 l w o g k r f p) s 3 l w o g k r f p ∧
      MaccaDone (.maccaF8e4 l w o g k r f p) s 4 l w o g k r f p ∧ MaccaDone (.maccaF8e5 l w o g k r f p) s 5 l w o g k r f p ∧
      MaccaDone (.maccaI8 l w o g k f p) s 6 l w o g k 0 f p ∧ MaccaDone (.maccaN8 l w o g k f p) s 7 l w o g k 0 f p

/-- The drains of the ten format pairs, each element scaled, converted or narrowed as R126 and R385 say. -/
def Obligations.AccumulatorDrains : Prop :=
  ∀ (s : State) (c : BitVec 2) (w : BitVec 8) (d : BitVec 6) (g r : BitVec 3) (f : BitVec 1) (p : BitVec 3),
    let e : Int := if c = 0 then 0 else if c = 1 then -2 else -3
    let fl (src dst : Nat) : Nat → Nat × Flags := convertScaled (fmtOf src) (fmtOf dst) r.toNat (f == 1) e
    let int (n : Nat) (x : Nat) : Nat × Flags := (narrow (f == 1) true n (toSigned 32 x), 0)
    DrainDone (.mdrainF32F32 c w d g r f p) s w d 4 4 g.toNat (fl 1 1) p ∧
    DrainDone (.mdrainF32F16 c w d g r f p) s w d 4 2 g.toNat (fl 1 2) p ∧
    DrainDone (.mdrainF32B16 c w d g r f p) s w d 4 2 g.toNat (fl 1 3) p ∧
    DrainDone (.mdrainF32F8e4 c w d g r f p) s w d 4 1 g.toNat (fl 1 4) p ∧
    DrainDone (.mdrainF32F8e5 c w d g r f p) s w d 4 1 g.toNat (fl 1 5) p ∧
    DrainDone (.mdrainF64F64 c w d g r f p) s w d 8 8 g.toNat (fl 0 0) p ∧
    DrainDone (.mdrainF64F32 c w d g r f p) s w d 8 4 g.toNat (fl 0 1) p ∧
    DrainDone (.mdrainI32I32 w d g f p) s w d 4 4 g.toNat (int 32) p ∧
    DrainDone (.mdrainI32I16 w d g f p) s w d 4 2 g.toNat (int 16) p ∧
    DrainDone (.mdrainI32I8 w d g f p) s w d 4 1 g.toNat (int 8) p

/-- A beat on its readable cycle: the columns below COLS take their new values, every other element of the row and every other row
stand; with COLS 0 the row stands. The flags of the columns and of the conversions are set. A poisoned operand that entered a product
poisons the row, a fresh beat over every column clears its tag, and an error that a read of the row cannot correct sets it; the tags of
the other rows, and every other register with its tag, stand (R101, R119, R120, R122, R293, R295). -/
def Obligations.BeatLands : Prop :=
  ∀ (s : State) (b : Beat), Safety.wf s = true → b.fmt < 8 → b.latch.length = b.cols → b.cols ≤ tableN b.fmt → b.depth ≤ tableK b.fmt →
    let t := landEffect s (.beat b)
    let old := tget 0 s.core.regs.acc b.row
    let r := s.core.regs
    let reads := !b.fresh && decide (0 < b.cols)
    let tag := if reads then accBad s b.row else tget false r.accPoison b.row
    let new (j : Nat) := columnValue b.fmt b.rm.toNat b.fresh (elemAt (accBytes b.fmt) old.toNat j) b.depth b.a (b.latch.getD j 0)
    (∀ j, j < tableN b.fmt → elemAt (accBytes b.fmt) (tget 0 t.core.regs.acc b.row).toNat j =
      if j < b.cols then (new j).1 % 2 ^ (8 * accBytes b.fmt) else elemAt (accBytes b.fmt) old.toNat j) ∧
    (b.cols = 0 → tget 0 t.core.regs.acc b.row = old) ∧
    (∀ k, k ≠ b.row → tget 0 t.core.regs.acc k = tget 0 r.acc k ∧ tget false t.core.regs.accPoison k = tget false r.accPoison k ∧
      tget .good t.core.regs.accMark k = tget .good r.accMark k) ∧
    tget false t.core.regs.accPoison b.row = (if 0 < b.depth ∧ 0 < b.cols ∧ b.poison = true then true
      else if b.fresh = true ∧ b.cols = tableN b.fmt ∧ b.poison = false then false else tag) ∧
    tget .good t.core.regs.accMark b.row = (if b.cols = tableN b.fmt then .good else tget .good r.accMark b.row) ∧
    t.core.ctl = { s.core.ctl with
      fflg := s.core.ctl.fflg ||| lanesFlags b.cols (fun j => (new j).2) ||| b.flags,
      verdict := if reads = true ∧ tget .good r.accMark b.row = .correctable then s.core.ctl.verdict.worst .corrected
        else s.core.ctl.verdict } ∧
    t.core.regs = { r with acc := t.core.regs.acc, accPoison := t.core.regs.accPoison, accMark := t.core.regs.accMark } ∧
    t.core.staging = s.core.staging ∧ t.mem = s.mem

/-! ### The D slot -/

/-- `ACT`, `ACTW`, `PRE`, `PREA`, `REF` and `REFB`: each counter and bank as Table 6.3 gives it, DEBT one less with a refresh unless
it is 0; under a true predicate a timing fault exactly when a condition of Table 6.3 fails, and a partition fault exactly when the row of an
activate lies outside the partition (R134 to R136, R140, R146, R348, R397, R400). -/
def Obligations.BankCommands : Prop :=
  ∀ (s : State) (c : BitVec 2) (b : BitVec 4) (a : BitVec 6) (p : BitVec 3),
    let n := bankNum c b
    let row := (readScalar s a).1.toNat
    let x := bankAt s n
    let opened (intent : Bool) : Bank := { x with
      mode := .active, row := row, intent := intent, colAt := s.clock + (if intent then 72 else 30),
      preAt := s.clock + (if intent then 110 else 68) }
    let closed (y : Bank) : Bank := if y.mode = .active then { y with mode := .idle, actAt := s.clock + 30 } else y
    let refreshed (y : Bank) (time : Nat) : Bank := { y with mode := .refreshing, actAt := s.clock + time, debt := y.debt - 1 }
    let one (y : Bank) (m : Nat) : Bank := if m = n then y else bankAt s m
    let chan (m : Nat) : Channel := if m = c.toNat then activated s (chanAt s m) else chanAt s m
    (Runs (.act c b a p) p s → VaultDone (.act c b a p) s (one (opened false)) chan fun t =>
      t.core.vault.rows = s.core.vault.rows) ∧
    (Runs (.actw c b a p) p s → VaultDone (.actw c b a p) s (one (opened true)) chan fun _ => True) ∧
    (Runs (.pre c b p) p s → VaultDone (.pre c b p) s (one (closed x)) (chanAt s) fun t => t.core.vault.rows = s.core.vault.rows) ∧
    (Runs (.prea c p) p s → VaultDone (.prea c p) s (fun m => if m / 16 = c.toNat then closed (bankAt s m) else bankAt s m)
      (chanAt s) fun t => t.core.vault.rows = s.core.vault.rows) ∧
    (Runs (.ref c p) p s → VaultDone (.ref c p) s
      (fun m => if m / 16 = c.toNat then refreshed (bankAt s m) 420 else bankAt s m) (chanAt s) fun t =>
      t.core.vault.rows = s.core.vault.rows) ∧
    (Runs (.refb c b p) p s → VaultDone (.refb c b p) s (one (refreshed x 240)) chan fun t =>
      t.core.vault.rows = s.core.vault.rows) ∧
    (readPred s p = true →
      let y := chanAt s c.toNat
      let opens : Prop := idleBank s n ∧ y.rrdAt ≤ s.clock ∧
        (y.faw0 ≤ s.clock ∨ y.faw1 ≤ s.clock ∨ y.faw2 ≤ s.clock ∨ y.faw3 ≤ s.clock)
      (∀ i ∈ [.act c b a p, .actw c b a p, .refb c b p], Raises s i 4 0 ↔ ¬ opens) ∧
      (∀ i ∈ [.act c b a p, .actw c b a p], Raises s i 3 0 ↔ ¬ (s.core.task.vpb ≤ row ∧ row < s.core.task.vpl)) ∧
      (Raises s (.pre c b p) 4 0 ↔ ¬ closable s n) ∧
      (Raises s (.prea c p) 4 0 ↔ ∃ m, m / 16 = c.toNat ∧ ¬ closable s m) ∧
      (Raises s (.ref c p) 4 0 ↔ ¬ ((∀ m, m / 16 = c.toNat → idleBank s m) ∧ y.ccdAt ≤ s.clock)))

/-- `ACTW` of a row that is undrained and has no clone leaves the row cloned into a spare row that was free, with the bytes and marks of
its sixteen columns; every other spare row stands, and with fewer free spares left than the threshold the bank joins the exhausted ones and
the spare-exhaustion hold is requested; otherwise the row generation map stands (R231 to R233). -/
def Obligations.CloneRule : Prop :=
  ∀ (s : State) (c : BitVec 2) (b : BitVec 4) (a : BitVec 6) (p : BitVec 3),
    let n := bankNum c b
    let row := (readScalar s a).1.toNat
    let e := tget {} s.core.vault.rows (n * 32768 + row)
    let gid := s.core.task.gid
    Safety.wf s = true → Runs (.actw c b a p) p s → ∃ t, exec (.actw c b a p) s = .next t ∧
      ((drainedRow s n row || e.cloned) = true → t.core.vault.rows = s.core.vault.rows ∧ t.core.vault.spares = s.core.vault.spares) ∧
      ((drainedRow s n row || e.cloned) = false →
        let k := (tget {} t.core.vault.rows (n * 32768 + row)).spare
        let used := (t.core.vault.rows.filter fun q => q.1 / 32768 == n && q.2.cloned).length
        (tget {} t.core.vault.rows (n * 32768 + row)).cloned = true ∧
        (∀ q, q ≠ n * 32768 + row → tget {} t.core.vault.rows q = tget {} s.core.vault.rows q) ∧
        (∀ q ∈ s.core.vault.rows, q.1 / 32768 = n → q.2.cloned = true → q.2.spare ≠ k) ∧
        (∀ q, q ≠ 4096 * n + k → tget 0 t.core.vault.spares q = tget 0 s.core.vault.spares q) ∧
        (∀ j, j < 16 → elemAt 96 (tget 0 t.core.vault.spares (4096 * n + k)).toNat j =
            ofBytes (readBytes s.core.vault.cells (96 * colKey n row j) 96) ∧
          tget .good t.core.vault.spareMarks (16 * (4096 * n + k) + j) = tget .good s.core.vault.marks (colKey n row j)) ∧
        (4096 - used < 2 + (15 + (s.gang gid).pad) / 140 →
          n ∈ t.core.vault.exhausted ∧ .spare ∈ (t.gang gid).causes))

/-- `RD` delivers a row to vd and x5 at tRL: the column of the open row, with a correction counted and in the verdict; poisoned, and with no
stated bytes, when its error cannot be corrected or it was stored poisoned. `WR` stores the row in the column of the open row with fresh check
bytes and leaves every other byte of the vault. Bank and channel counters follow Table 6.3, and under a true predicate a timing fault is
raised exactly when a condition of that table fails (R135 to R137, R145, R153, R398, R449). What a
failing lane does to a read is the model's choice (log entry 30). -/
def Obligations.ColumnAccess : Prop :=
  ∀ (s : State) (c : BitVec 2) (b l : BitVec 4) (v : BitVec 6) (p : BitVec 3),
    let n := bankNum c b
    let k := colKey n (bankAt s n).row l.toNat
    let mark := tget .good s.core.vault.marks k
    let x : Row := BitVec.ofNat 768 (ofBytes (readBytes s.core.vault.cells (96 * k) 96))
    let y := readVector s v
    let others (t : State) : Prop := (∀ m, m ≠ n → bankAt t m = bankAt s m) ∧ (∀ m, m ≠ c.toNat → chanAt t m = chanAt s m)
    (Runs (.rd c b l v p) p s → ∃ t z bad, exec (.rd c b l v p) s = .next t ∧
      t.core.results = s.core.results ++
        (if v = 63 then [] else [{ due s 24 (.vector (physV s.core.ctl.rrb v.toNat) z bad) with vault := true }]) ++
        [{ due s 24 (.latch 5 true true z bad) with vault := true }] ∧
      (s.core.vault.lanes = [] → mark = .good → z = x ∧ bad = false ∧ t.core.ctl.verdict = s.core.ctl.verdict ∧
        t.core.vault.corrections = s.core.vault.corrections) ∧
      (s.core.vault.lanes = [] → mark = .correctable → z = x ∧ bad = false ∧
        t.core.ctl.verdict = s.core.ctl.verdict.worst .corrected ∧ t.core.vault.corrections = s.core.vault.corrections + 1) ∧
      (mark = .uncorrectable ∨ mark = .poisoned → bad = true) ∧
      bankAt t n = { bankAt s n with preAt := max (bankAt s n).preAt (s.clock + 8) } ∧
      chanAt t c.toNat = { chanAt s c.toNat with ccdAt := s.clock + 2, rtwAt := s.clock + 12 } ∧ others t ∧
      t.core.vault.cells = s.core.vault.cells ∧ t.core.vault.marks = s.core.vault.marks ∧ t.core.regs = s.core.regs ∧ t.mem = s.mem) ∧
    (Safety.wf s = true → Runs (.wr c b l v p) p s → ∃ t, exec (.wr c b l v p) s = .next t ∧
      (∀ j, j < 96 → tget 0 t.core.vault.cells (96 * k + j) = BitVec.ofNat 8 (elemAt 1 y.1.toNat j)) ∧
      (∀ q, q < 96 * k ∨ 96 * k + 96 ≤ q → tget 0 t.core.vault.cells q = tget 0 s.core.vault.cells q) ∧
      tget .good t.core.vault.marks k = (if y.2 then .poisoned else .good) ∧
      (∀ q, q ≠ k → tget .good t.core.vault.marks q = tget .good s.core.vault.marks q) ∧
      bankAt t n = { bankAt s n with preAt := max (bankAt s n).preAt (s.clock + 32) } ∧
      chanAt t c.toNat = { chanAt s c.toNat with ccdAt := s.clock + 2, wtrAt := s.clock + 16 } ∧ others t ∧
      t.core.ctl.verdict = (tainted s y.2).core.ctl.verdict ∧
      t.core.results = s.core.results ∧ t.core.regs = s.core.regs ∧ t.core.staging = s.core.staging ∧ t.mem = s.mem) ∧
    (readPred s p = true →
      let z := chanAt s c.toNat
      let opened : Prop := (bankAt s n).mode = .active ∧ (bankAt s n).colAt ≤ s.clock ∧ z.ccdAt ≤ s.clock
      (Raises s (.rd c b l v p) 4 0 ↔ ¬ (opened ∧ z.wtrAt ≤ s.clock)) ∧
      (Raises s (.wr c b l v p) 4 0 ↔ ¬ (opened ∧ (bankAt s n).intent = true ∧ z.rtwAt ≤ s.clock)))

/-! ### The F slot -/

/-- The generators: lane j holds the count that element j, or lane j of the source, stands for, in the order of its class (R158,
R167, R168, R413, R421). -/
def Obligations.StreamGenerators : Prop :=
  ∀ (s : State) (d a : BitVec 3) (l : BitVec 2) (c : BitVec 4) (v : BitVec 6) (p : BitVec 3),
    let n := 2 ^ l.toNat
    let x := (readVector s v).1
    let q := tget {} s.core.regs.q a.toNat
    let mask := BitVec.ofNat 32 (2 ^ c.toNat)
    let done (i : Instr) (s1 : State) (lat : Nat) (bad : Bool) (count : Nat → Nat) : Prop :=
      ∃ f : Nat → BitVec 8192, (∀ j, j < 48 → GenLane c l (count j) (f j)) ∧ StreamDone i s s1 d l lat mask bad f
    (Runs (.sgen d l c v p) p s → done (.sgen d l c v p) (busyFor s 7 n) (n + 2) (readVector s v).2
      fun j => min (half x j) (streamLen l)) ∧
    (Runs (.sgenb d l c v p) p s → done (.sgenb d l c v p) (busyFor s 7 n) (n + 2) (readVector s v).2
      fun j => (max 0 (min (streamLen l : Int) (toSigned 16 (half x j) + (streamLen l / 2 : Nat)))).toNat) ∧
    (Runs (.sregen d a l c p) p s → done (.sregen d a l c p) (metStream (busyFor s 7 (2 * n)) a.toNat) (2 * n + 2) (streamBad s a.toNat)
      fun j => (List.range 8192).countP fun k => (tget 0 q.lanes j).getLsbD k)

/-- The gates and the moves, lane by lane: AND, OR, XOR, XNOR, the multiplexer, NOT, the copy, and the rotation whose mask moves to
the delayed classes. Under a true predicate a correlation fault is raised exactly when the masks break the rule of the word, and a stream
operand of another length raises a schedule fault (R161, R165, R169 to R171, R403, R407, R417, R418). -/
def Obligations.StreamGates : Prop :=
  ∀ (s : State) (d a b e : BitVec 3) (l : BitVec 2) (c : BitVec 1) (y : BitVec 4) (p : BitVec 3),
    let n := 2 ^ l.toNat
    let ones : BitVec 8192 := BitVec.ofNat 8192 (2 ^ streamLen l - 1)
    let qa := tget {} s.core.regs.q a.toNat
    let qb := tget {} s.core.regs.q b.toNat
    let qe := tget {} s.core.regs.q e.toNat
    let x := fun j => tget 0 qa.lanes j
    let z := fun j => tget 0 qb.lanes j
    let w := fun j => tget 0 qe.lanes j
    let s1 := metStream (busyFor s 7 n) a.toNat
    let s2 := metStream s1 b.toNat
    let s3 := metStream s2 e.toNat
    let pa := streamBad s a.toNat
    let pb := streamBad s b.toNat
    let two (i : Instr) (f : Nat → BitVec 8192) : Prop :=
      Runs i p s → StreamDone i s s2 d l (n + 2) (qa.mask ||| qb.mask) (pa || pb) f
    two (.sand d a b l c p) (fun j => x j &&& z j) ∧ two (.sor d a b l c p) (fun j => x j ||| z j) ∧
    two (.sxor d a b l c p) (fun j => x j ^^^ z j) ∧ two (.sxnor d a b l c p) (fun j => x j ^^^ z j ^^^ ones) ∧
    (Runs (.smux d a b l c e p) p s → StreamDone (.smux d a b l c e p) s s3 d l (n + 2) (qa.mask ||| qb.mask ||| qe.mask)
      (pa || pb || streamBad s e.toNat) fun j => (w j &&& z j) ||| (~~~(w j) &&& x j)) ∧
    (Runs (.snot d a l p) p s → StreamDone (.snot d a l p) s s1 d l (n + 2) qa.mask pa fun j => x j ^^^ ones) ∧
    (Runs (.smov d a l p) p s → StreamDone (.smov d a l p) s s1 d l (n + 2) qa.mask pa x) ∧
    (Runs (.sdly d a l y p) p s → ∃ f : Nat → BitVec 8192,
      (∀ j k, j < 48 → k < 8192 → (f j).getLsbD k =
        (decide (k < streamLen l) && (x j).getLsbD ((k + streamLen l - y.toNat) % streamLen l))) ∧
      StreamDone (.sdly d a l y p) s s1 d l (n + 2) ((qa.mask &&& 0xFFFF#32) <<< 16) pa f) ∧
    (readPred s p = true →
      let clash (ma mb : BitVec 32) : Prop := (c = 0 ∧ ma &&& mb ≠ 0) ∨ (c = 1 ∧ ma ≠ mb)
      (∀ i ∈ [.sand d a b l c p, .sor d a b l c p, .sxor d a b l c p, .sxnor d a b l c p],
        (Raises s i 6 0 ↔ clash qa.mask qb.mask) ∧ (qa.len ≠ l.toNat ∨ qb.len ≠ l.toNat → Raises s i 2 0)) ∧
      (Raises s (.smux d a b l c e p) 6 0 ↔ clash qa.mask qb.mask ∨ qa.mask &&& qe.mask ≠ 0 ∨ qb.mask &&& qe.mask ≠ 0) ∧
      (qa.len ≠ l.toNat ∨ qb.len ≠ l.toNat ∨ qe.len ≠ l.toNat → Raises s (.smux d a b l c e p) 2 0) ∧
      (Raises s (.sdly d a l y p) 6 0 ↔ ∃ k, 16 ≤ k ∧ k < 32 ∧ qa.mask.getLsbD k = true) ∧
      (qa.len ≠ l.toNat → ∀ i ∈ [.snot d a l p, .smov d a l p, .sdly d a l y p], Raises s i 2 0))

/-- `SCNT`, `SCLS`, `SLD` and `SST`: counts into elements, the class row, and the image with its trailer in both directions (R172 to
R175, R405, R406, R415, R416). -/
def Obligations.StreamTransfers : Prop :=
  ∀ (s : State) (d a : BitVec 3) (l : BitVec 2) (v b : BitVec 6) (c : BitVec 1) (p : BitVec 3),
    let n := 2 ^ l.toNat
    let q := tget {} s.core.regs.q a.toNat
    let old := (readV s v.toNat).1
    let at_ := stageAt s b 0 8
    let s1 := metStream (busyFor s 7 n) a.toNat
    let bad := streamBad s a.toNat
    let x := loaded (busyFor s 7 n) b at_ (6 * streamLen l + 8)
    let count (j : Nat) : Nat := (List.range 8192).countP fun k => (tget 0 q.lanes j).getLsbD k
    (Runs (.scnt a l v c p) p s → ∃ row : Row,
      (∀ j, j < 48 → half row j = (if c = 1 then min 65535 (half old j + count j) else count j)) ∧
      exec (.scnt a l v c p) s = .next (queued s1
        (vectorOut s 7 (n + 4) v row (bad || (decide (c = 1) && (readV s v.toNat).2))))) ∧
    (Runs (.scls a v p) p s → ∃ row : Row, lane 4 row 0 = q.mask.toNat ∧ lane 4 row 1 = q.len % 4 + (if q.poison then 4 else 0) ∧
      (∀ j, 2 ≤ j → j < 24 → lane 4 row j = 0) ∧
      exec (.scls a v p) s = .next (if v = 63 then s else queued s [due s 2 (.vector (physV s.core.ctl.rrb v.toNat) row false)])) ∧
    (Runs (.sld d l b p) p s → StreamDone (.sld d l b p) s x.2 d l (n + 2)
      (BitVec.ofNat 32 (x.1.1 / 2 ^ (48 * streamLen l))) (x.1.2 || (x.1.1 / 2 ^ (48 * streamLen l)).testBit 34)
      fun j => BitVec.ofNat 8192 (x.1.1 / 2 ^ (streamLen l * j) % 2 ^ streamLen l)) ∧
    (Runs (.sst a l b p) p s → exec (.sst a l b p) s = .next (queued (tainted s1 (bad || (readScalar s b).2))
      [{ due s (n + 2) (.store at_ (((List.range 48).flatMap fun j => bytesOf (streamLen l / 8) (tget 0 q.lanes j).toNat) ++
          bytesOf 8 (q.mask.toNat + l.toNat * 2 ^ 32 + (if bad then 2 ^ 34 else 0))) bad) with sst := true }]))

/-! ### The X slot -/

/-- `SEND`, `RECV` and `CROUTE`: the row enters the router on the next cycle, the oldest row of the latch is taken and readable on the
next cycle, and an empty latch raises a schedule fault; the 64 entries of the image are the route table, unless a line of it is poisoned or
a unit holds an error that cannot be corrected, which taints the task and leaves the table, or a valid entry is malformed, which raises a
schedule fault (R244 to R246, R371, R399, R412). That a unit of the image which a barge landed and no wait has ordered is read old or new by
choice is the model's reading (log entry 12). -/
def Obligations.CanalWords : Prop :=
  ∀ (s : State) (r v d a : BitVec 6) (l : BitVec 2) (p : BitVec 3),
    let held := tget [] s.core.canal.latches l.toNat
    let at_ := stageAt s a 0 512
    let entry (k : Nat) : BitVec 64 := BitVec.ofNat 64 (ofBytes (s.core.staging.bytes (at_ + 8 * k) 8))
    let clean : Prop := ∀ k, k < 16 → tget false s.core.staging.poison (at_ / 32 + k) = false
    (Runs (.send r v p) p s → exec (.send r v p) s = .next
      { tainted s (readVector s v).2 with flights := s.flights ++
        [{ route := r.toNat, row := (readVector s v).1, poison := (readVector s v).2, corrected := false, mark := .good, tile := s.cur, input := 0,
           enters := s.clock + 1, gid := s.core.task.gid }] }) ∧
    (∀ h hs, held = h :: hs → Runs (.recv d l p) p s → exec (.recv d l p) s = .next
      (queued { s with core := { s.core with canal := { s.core.canal with latches := tset [] s.core.canal.latches l.toNat hs } } }
        (vectorOut s 6 1 d h.row h.poison))) ∧
    (held = [] → readPred s p = true → ∃ f ∈ bundleFaults s [.recv d l p], f.cause = 2 ∧ f.slot = 6) ∧
    (Runs (.croute a p) p s → s.core.canal.image = none → Plain s at_ 512 → clean →
      ∃ t, exec (.croute a p) s = .next t ∧
        (∀ k, k < 64 → tget 0 t.core.canal.routes k = entry k) ∧
        t.core.canal.old = some (s.clock, s.core.canal.routes) ∧
        { t with core := { t.core with canal := s.core.canal } } = tainted s (readScalar s a).2) ∧
    (s.core.canal.image = none → readPred s p = true → Plain s at_ 512 → clean →
      (∃ k, k < 64 ∧ (entry k).getLsbD 15 = true ∧
        (bits (entry k).toNat 63 16 ≠ 0 ∨ bits (entry k).toNat 4 0 ≠ 0 ∨ 5 ≤ bits (entry k).toNat 14 12)) →
      ∃ f ∈ bundleFaults s [.croute a p], f.cause = 2 ∧ f.slot = 6) ∧
    (Runs (.croute a p) p s → s.core.canal.image = none → ∃ t, ∃ us : List UnitValue, exec (.croute a p) s = .next t ∧ us.length = 64 ∧
      (∀ k v, us[k]? = some v → let n := at_ / 8 + k
        (∃ x ∈ s.core.staging.unseen, x.unit = n ∧ v = x.was) ∨
        (tget .good s.core.staging.marks n = .uncorrectable ∧ v.poison = true) ∨
        (tget .good s.core.staging.marks n ≠ .uncorrectable ∧ v.value = entry k ∧
          v.fixed = (tget .good s.core.staging.marks n == .correctable) ∧
          (tget false s.core.staging.poison (n / 4) = true → v.poison = true) ∧
          (v.poison = true → tget false s.core.staging.poison (n / 4) = true ∨
            ∃ m, m / 4 = n / 4 ∧ tget .good s.core.staging.marks m = .uncorrectable))) ∧
      (us.any UnitValue.poison = true → t.core.canal = s.core.canal) ∧
      (us.any UnitValue.poison = false → ∀ k v, us[k]? = some v → tget 0 t.core.canal.routes k = v.value) ∧
      t.core.ctl = (tainted (corrected (tainted s (readScalar s a).2) (us.any UnitValue.fixed)) (us.any UnitValue.poison)).core.ctl ∧
      t.core.regs = s.core.regs ∧ t.core.results = s.core.results ∧ t.core.barge = s.core.barge ∧ t.mem = s.mem)

/-- The nine barge words, at issue: each completes, its command queued (R183 to R185, R347, R355). `BFENCE` and `BMARK` read no view block,
so their scalar is no address and its poison taints nothing (R354). -/
def Obligations.BargeWords : Prop :=
  ∀ (s : State) (k a : BitVec 6) (t c2 : BitVec 2) (c d : BitVec 1) (m : BitVec 3) (f : BitVec 4) (o : BitVec 5) (p : BitVec 3),
    BargeQueued (.bcopy k a t c d p) true s k a p ∧ BargeQueued (.bgath k a t p) true s k a p ∧ BargeQueued (.bscat k a p) true s k a p ∧
    BargeQueued (.breda k a m c f p) true s k a p ∧ BargeQueued (.batom k a c2 o p) true s k a p ∧
    BargeQueued (.bfence k a c2 p) false s k a p ∧ BargeQueued (.bmark k a p) false s k a p ∧
    BargeQueued (.bseal k a p) true s k a p ∧ BargeQueued (.bopen k a p) true s k a p

/-! ### Results, waits, holds -/

/-- `RESULT_LAND`: every result whose readable cycle has come takes effect in the order of landing, special registers first, so that
the last one of a register stands, and a list with the end of the task lands the rest of the task's results cycle by cycle, all in that one step: the
model's reading (log entry 21). What each effect leaves is the statement `LandingFrame`. `WAIT_END`: the task goes on and what it waited for, with all that came before it, is no
longer seen old (R58, R62, R74, R206, R372, R446). -/
def Obligations.ResultsAndWaits : Prop :=
  ∀ (s : State) (n : Nat), Safety.wf s = true →
    let x := s.select n
    let c := x.core.ctl
    let rs := x.core.results.filter fun r => decide (r.ready ≤ c.cyc)
    let ends := rs.any fun r => match r.eff with
      | .special m _ => m == 0x102
      | _ => false
    let groups := if ends then rs :: (List.range 66).map fun k => x.core.results.filter fun r => r.ready == c.cyc + 1 + k else [rs]
    let order := groups.flatMap landOrder
    let t := order.foldl (fun y r => landEffect y r.eff) x
    ((c.status = .running ∨ c.status = .waiting) → rs ≠ [] →
      AtTile (.resultLand n) n s fun x u =>
        u.core.results = x.core.results.filter (fun r => decide (c.cyc + (if ends then 66 else 0) < r.ready)) ∧
        (∀ d, tget 0 u.core.regs.s d = lastEffect order (fun e => match e with
          | .scalar k y _ => if k = d then some y else none
          | _ => none) (tget 0 x.core.regs.s d)) ∧
        (∀ d, tget 0 u.core.regs.v d = lastEffect order (fun e => match e with
          | .vector k y _ => if k = d then some y else none
          | _ => none) (tget 0 x.core.regs.v d)) ∧
        (∀ d, tget false u.core.regs.p d = lastEffect order (fun e => match e with
          | .pred k y => if k = d then some y else none
          | _ => none) (tget false x.core.regs.p d)) ∧
        (∀ d, tget {} u.core.regs.q d = lastEffect order (fun e => match e with
          | .stream k y => if k = d then some y else none
          | _ => none) (tget {} x.core.regs.q d)) ∧
        u.core.regs = t.core.regs ∧ u.core.staging = t.core.staging ∧ u.core.vault = x.core.vault ∧ u.core.isram = x.core.isram ∧
        u.core.ctl = t.core.ctl ∧ u.core.task.trig = t.core.task.trig ∧
        u.core.canal.latches = (if ends then [] else x.core.canal.latches) ∧
        (u.core.ctl.status = .ended ↔ ends = true) ∧ u.clock = x.clock) ∧
    (∀ w t, c.status = .waiting → (s.gang x.core.task.gid).held = false → c.wait = some w → w.met = some t → t < s.clock →
      AtTile (.waitEnd n) n s fun x u =>
        u.core.ctl = { c with status := .running, wait := none } ∧ u.core.regs = x.core.regs ∧ u.core.results = x.core.results ∧
        u.core.staging.cells = x.core.staging.cells ∧ u.mem = x.mem ∧
        (∀ y ∈ u.core.staging.unseen, y ∈ x.core.staging.unseen ∧
          ∀ id, w.on = .token id → y.id ≠ id ∧ y.id ∉ tget [] x.core.barge.past id))

/-- `BARRIER_RELEASE`, `HOLD_TAKE_EFFECT` and `GANG_RESUME`: the tasks that wait on a completed phase go on, and no other tile
changes; a hold stands from its clock, with every trap record complete; a gang resumes with its latches lost and every frozen
interval, those of rows in flight, of receive latches, of canal conflicts and of barriers, moved by the length of the hold (R32, R38, R39, R66, R284, R287). -/
def Obligations.BarriersAndHolds : Prop :=
  ∀ (s : State) (g : Nat), Safety.wf s = true →
    let x := s.gang g
    let d := s.clock - x.heldSince
    (∀ b, x.held = false → (∃ r ∈ x.releases, r.1 = b ∧ r.2.2 ≤ s.clock) →
      Done (.barrierRelease g b) s fun t =>
        t.gang g = { x with releases := x.releases.filter fun r => !(r.1 == b && decide (r.2.2 ≤ s.clock)) } ∧
        t.mem = s.mem ∧ t.clock = s.clock ∧
        ∀ n,
          let y := s.tile n
          let freed : Prop := n ∈ x.tiles ∧ y.ctl.status = .waiting ∧ ∃ w r, y.ctl.wait = some w ∧ r ∈ x.releases ∧ r.1 = b ∧
            r.2.2 ≤ s.clock ∧ w.on = .barrier b r.2.1
          (freed → t.tile n = { y with ctl := { y.ctl with status := .running, wait := none } }) ∧ (¬ freed → t.tile n = y)) ∧
    (∀ c, x.life = .started → x.held = false → x.effectAt = some c → c ≤ s.clock →
      Done (.holdTakeEffect g) s fun t =>
        (t.gang g).held = true ∧ (t.gang g).heldSince = s.clock ∧ (t.gang g).effectAt = none ∧
        (∀ n ∈ x.tiles, ∀ r, (t.tile n).ctl.trap = some r → r.final = true) ∧
        (.trap ∈ x.causes → .preempt ∉ (t.gang g).causes) ∧
        (∀ n, (t.tile n).regs = (s.tile n).regs ∧ (t.tile n).staging = (s.tile n).staging) ∧ t.clock = s.clock) ∧
    (∀ c, onGrid x → x.held = true → x.causes = [] → x.resumeAt = some c → c ≤ s.clock →
      Done (.gangResume g) s fun t =>
        t.gang g = { x with
          held := false, resumeAt := none, effectAt := none, firstTrap := none, signalled := false,
          releases := x.releases.map fun r => (r.1, r.2.1, r.2.2 + d) } ∧
        t.flights = s.flights.map (fun f => if f.gid = g then { f with enters := f.enters + d } else f) ∧ t.mem = s.mem ∧
        ∀ n,
          let y := s.tile n
          let z := t.tile n
          (n ∉ x.tiles → z = y) ∧
          (n ∈ x.tiles → z.regs = { y.regs with latches := [] } ∧ z.results = y.results ∧ z.staging = y.staging ∧
            z.vault = y.vault ∧ z.canal.routes = y.canal.routes ∧
            (∀ l, tget [] z.canal.latches l = (tget [] y.canal.latches l).map fun h => { h with since := h.since + d }) ∧
            z.canal.old = y.canal.old.map (fun o => (o.1 + d, o.2)) ∧ z.canal.conflictAt = y.canal.conflictAt.map (· + d) ∧
            z.ctl = match y.ctl.trap with
              | none => y.ctl
              | some r => if y.ctl.status = .stopped then y.ctl
                else { y.ctl with trap := none, pc := if y.ctl.status = .waiting then y.ctl.pc else r.npc }))

/-! ### The vault's own events -/

/-- The vault's own events. A refresh that falls due raises DEBT, to nine at most, and reloads RDUE with the interval of the grade, and a debt of
nine asks for the guard's hold; a `REFB` takes one off the debt. `REFRESH_GUARD` begins without touching a bank and ends with every DEBT 0 and
every open bank open again; with nothing left to refresh it only ends the hold. That DEBT stays at nine, and that end, are the model's reading (log entry 35).
`SPARE_EXHAUSTION_DRAIN` reopens what was open; `BOND_LANE_REPAIR` leaves columns and bank counters; `DRAIN_ROW_COPY` stores each byte of the row
in the frame that the frame table of its image names for it, one entry for each 64 KiB, and takes its undrained mark and its clone (R146, R148, R153,
R233, R235, R473). A copy whose place in its image is in a frame that is not there stops (R2, log entry 28). That a copy is an event of its own, and that one of a fifth channel does nothing, is the model's choice (log entries 19 and 27), and
so is which frames the MMP puts into the table, which the statement leaves open (log entry 6). -/
def Obligations.GuardsAndDrains : Prop :=
  ∀ (s : State) (n ch : Nat), Safety.wf s = true →
    let x := s.select n
    let gid := x.core.task.gid
    let g := s.gang gid
    let v := x.core.vault
    let interval := [8192, 4096].getD (s.grade (quadrantOf n)) 2048
    (∀ b, b < 64 → g.life = .started → x.core.ctl.status ≠ .idle → (bankAt x b).due ≤ s.clock →
      AtTile (.refreshDue n b) n s fun x u =>
        bankAt u b = { bankAt x b with debt := min 9 ((bankAt x b).debt + 1), due := (bankAt x b).due + interval } ∧
        (∀ m, m ≠ b → bankAt u m = bankAt x m) ∧ u.core.vault.cells = v.cells ∧ u.core.regs = x.core.regs ∧
        u.core.ctl = x.core.ctl ∧ (8 ≤ (bankAt x b).debt → .refresh ∈ (u.gang gid).causes)) ∧
    (∀ (c : BitVec 2) (k : BitVec 4) (p : BitVec 3), Runs (.refb c k p) p s → ∃ t, exec (.refb c k p) s = .next t ∧
      (bankAt t (bankNum c k)).debt = (bankAt s (bankNum c k)).debt - 1 ∧
      (bankAt t (bankNum c k)).due = (bankAt s (bankNum c k)).due) ∧
    (v.guard = none → guardStarts x = true → AtTile (.refreshGuard n) n s fun x u =>
      (∃ y, u.core.vault = { x.core.vault with guard := some y } ∧ y.startAt = s.clock ∧ s.clock ≤ y.endAt ∧
        ∀ z, z ∈ y.saved ↔ z.1 < 64 ∧ (bankAt x z.1).mode = .active ∧ z.2 = ((bankAt x z.1).row, (bankAt x z.1).intent)) ∧
      u.core.regs = x.core.regs ∧ u.core.ctl = x.core.ctl) ∧
    (∀ y, v.guard = some y → y.endAt ≤ s.clock → AtTile (.refreshGuard n) n s fun x u =>
      Settled x u y.saved ∧ (∀ k, k < 64 → (bankAt u k).debt = 0) ∧ u.core.vault.guard = none ∧
      u.core.vault.cells = v.cells ∧ u.core.regs = x.core.regs ∧
      ((∀ m ∈ g.tiles, m ≠ n → (s.tile m).vault.guard = none) → .refresh ∉ (u.gang gid).causes)) ∧
    (n ∈ g.tiles → g.held = true → .refresh ∈ g.causes → x.core.ctl.status ≠ .idle →
      (∀ m ∈ g.tiles, (s.tile m).vault.guard = none ∧ ∀ k, k < 64 → (tget {} (s.tile m).vault.banks k).debt = 0) →
      AtTile (.refreshGuard n) n s fun x u => u.core = x.core ∧ .refresh ∉ (u.gang gid).causes ∧
        (g.causes = [.refresh] → (u.gang gid).resumeAt = some (s.clock + 16 + g.pad))) ∧
    (g.held = true → .spare ∈ g.causes → v.exhausted ≠ [] → v.guard = none → spareEnd x ≤ s.clock →
      ((∀ e ∈ v.rows, e.2.cloned = false) → (v.exhausted.foldlM drainBank x).isSome = true) ∧
      ((v.exhausted.foldlM drainBank x).isSome = true → AtTile (.spareExhaustionDrain n) n s fun x u =>
        Settled x u (activeBanks x) ∧ (∀ k, k < 64 → (bankAt u k).debt = (bankAt x k).debt) ∧
        u.core.vault.cells = v.cells ∧ u.core.regs = x.core.regs) ∧
      (v.exhausted.foldlM drainBank x = none → Stops (.spareExhaustionDrain n) s)) ∧
    (4 ≤ ch → AtTile (.drainRowCopy n ch) n s fun x u => u = x) ∧
    (x.core.ctl.status = .idle ∨ (g.held = true ∧ .replan ∈ g.causes) → AtTile (.bondLaneRepair n) n s fun x u =>
      u = { x with core := { x.core with vault := if v.lanes = [] then v else { v with lanes := [], corrections := 0 } } }) ∧
    (∀ p b row, ch < 4 → nextRow x (drainParts x) (if x.core.ctl.status = .idle then List.range 64 else banksOf ch) false = some (p, b, row) →
      x.core.ctl.status = .idle ∨ (windowNow x ≠ 0 ∧ tget 0 v.drained ch ≠ windowNow x) →
      ∀ y ys, (s.job p).gens = y :: ys →
      let im := tget {} y.images n
      let place (i : Nat) : Nat := 98304 * (row - im.vpb) + 1536 * b + i
      let at_ (i : Nat) : Nat := bits (wordAt x .reservoir (im.imgtab + 8 * (place i / 65536))).toNat 47 0 * 65536 + place i % 65536
      ((∃ i, i < 1536 ∧ s.mem.capacity * 65536 ≤ at_ i) → Stops (.drainRowCopy n ch) s) ∧
      ((∀ i, i < 1536 → at_ i < s.mem.capacity * 65536) → AtTile (.drainRowCopy n ch) n s fun x u =>
        let k := b * 32768 + row
        let e := tget {} v.rows k
        let q := 4096 * b + e.spare
        tget {} u.core.vault.rows k = { dgen := (s.job p).cuts, cloned := false, spare := 0 } ∧
        (∀ j, j ≠ k → tget {} u.core.vault.rows j = tget {} v.rows j) ∧
        u.core.vault.cells = v.cells ∧ u.core.regs = x.core.regs ∧ u.core.staging = x.core.staging ∧
        ((∀ i, i < 1536 → at_ i < y.record ∨ y.record + 128 ≤ at_ i) → tget false v.lanes (b / 16) = false →
          (∀ c, c < 16 → (if e.cloned then tget .good v.spareMarks (16 * q + c) else tget .good v.marks (16 * k + c)) = .good) →
          ∀ i, i < 1536 → tget 0 u.mem.res (at_ i) =
            if e.cloned then (tget 0 v.spares q).extractLsb' (8 * i) 8 else tget 0 v.cells (1536 * k + i))))

/-! ### Gangs: re-planning, pre-emption, traps -/

/-- `VARIANT_SWAP` picks the variant by the selection rule, loads it and clears the hold cause, a gang that the phase of its job counts leaves it, the phase
number rising with the last, and each task goes on from the bundle at
which it stands (Ctl.passes: log entry 35). `PREEMPTION_SAVE` first records the bank-state image and precharges each bank that is ready;
once the tiles are quiet it writes the context area of each tile, staging, accumulators, latches, registers, predicates, the cycle count and the bank-state
image, and frees the tiles. `PREEMPTION_RESTORE` reads the context areas back, with the
partition that the job holds on the tile by then, and reopens the banks that the image holds Active, every counter 0 and DEBT 0; a register that lies in a block which cannot be read comes back poisoned. An image that is
not there stops what loads it (R2, R42, R51, R141,
R152, R277, R289 to R292, R294, R295). What the regions without a stated layout keep, and that an access to a frame that is not there is a fault, is
the model's choice (log entries 24 and 28). -/
def Obligations.ReplanAndPreempt : Prop :=
  ∀ (s : State) (g : Nat), Safety.wf s = true →
    let x := s.gang g
    let pick := pickVariant (s.node x.node).packet (gangGrade s x)
    let w := ((s.node x.node).packet.getD pick 0).toNat
    let old := ((s.node x.node).packet.getD x.variant 0).toNat
    let unreadable (a n : Nat) : Prop := ∃ y ∈ s.mem.marks, y.2.bad = true ∧ a / 64 ≤ y.1 ∧ y.1 ≤ (a + n - 1) / 64
    (x.held = true → .replan ∈ x.causes → (pick ≠ x.variant → imageThere s w) → Done (.variantSwap g) s fun t =>
      (t.gang g).variant = pick ∧ .replan ∉ (t.gang g).causes ∧ (t.gang g).counted = false ∧
      (let j := s.job x.pasid
       t.job x.pasid = if x.counted then { j with
         phaseLeft := j.phaseLeft - 1, phaseNum := if j.phaseLeft = 1 then j.phaseNum + 1 else j.phaseNum } else j) ∧
      (∀ n, (t.tile n).regs = (s.tile n).regs ∧
        (n ∈ x.tiles → (t.tile n).vault.lanes = [] ∧ (t.tile n).ctl.passes = some (s.tile n).ctl.cyc)) ∧
      (pick ≠ x.variant → ∀ n ∈ x.tiles, ∀ k, k < bits w 61 50 →
        tget 0 (t.tile n).isram.bundles k = BitVec.ofNat 256 (ofBytes (bytesAt s .reservoir (bits w 47 0 + 32 * k) 32)))) ∧
    (x.held = true → .replan ∈ x.causes → pick ≠ x.variant → ¬ imageThere s w → Stops (.variantSwap g) s) ∧
    (controlRuns s = true → restoreDue s g = true → ¬ imageThere s old → Stops (.preemptionRestore g) s) ∧
    (onGrid x → drawBackDue s g = true → Done (.preemptionSave g) s fun t =>
      t.gang g = x ∧ ∀ n ∈ x.tiles, (t.tile n).vault.image.isSome ∧ (t.tile n).regs = (s.tile n).regs ∧ ∀ m,
        let b := tget {} (s.tile n).vault.banks m
        tget {} (t.tile n).vault.banks m =
          if m < 64 ∧ b.mode = .active ∧ b.preAt ≤ s.clock then { b with mode := .idle, actAt := s.clock + 30 } else b) ∧
    (controlRuns s = true → onGrid x → inPlace s g → drawBackDue s g = false → saveDue s g = true →
      (∀ n ∈ x.tiles, errorFree (s.tile n)) → Done (.preemptionSave g) s fun t =>
      (t.gang g).life = .saved ∧ (t.node x.node).life = .ready ∧ (t.node x.node).saved = true ∧
      (∀ i n, x.tiles[i]? = some n → (t.tile n).ctl.status = .idle ∧
        (tget {} t.saved (keptKey s g i)).regs = (s.tile n).regs ∧
        (tget {} t.saved (keptKey s g i)).staging = (s.tile n).staging ∧
        (tget {} t.saved (keptKey s g i)).ctl = (s.tile n).ctl) ∧
      ∀ (i n : Nat), x.tiles[i]? = some n →
        let a := (s.tile n).task.ctx
        let r := (s.tile n).regs
        (∀ (j m : Nat), x.tiles[j]? = some m → j ≠ i → a + 0x200000 ≤ (s.tile m).task.ctx ∨ (s.tile m).task.ctx + 0x200000 ≤ a) →
        (∀ k, k < 2 ^ 20 → tget 0 t.mem.res (a + k) = tget 0 (s.tile n).staging.cells k) ∧
        (∀ k, k < 2048 → bytesAt t .reservoir (a + 0x100000 + 256 * k) 256 = bytesOf 256 (tget 0 r.acc k).toNat) ∧
        (∀ k, k < 256 → bytesAt t .reservoir (a + 0x1E0000 + 96 * k) 96 = bytesOf 96 (tget 0 r.m k).toNat) ∧
        (∀ k, k < 48 → bytesAt t .reservoir (a + 0x1E6000 + 96 * k) 96 = bytesOf 96 (tget 0 r.v k).toNat) ∧
        (∀ k, k < 56 → wordAt t .reservoir (a + 0x1E7200 + 8 * k) = if k = 0 then 0 else tget 0 r.s k) ∧
        (∀ k, k < 8 → (wordAt t .reservoir (a + 0x1E7430)).getLsbD k = (k == 0 || tget false r.p k)) ∧
        wordAt t .reservoir (a + 0x1E7408) = BitVec.ofNat 64 (s.tile n).ctl.cyc ∧
        ∀ im, (s.tile n).vault.image = some im → bytesAt t .reservoir (a + 0x1E7C00) 544 = bytesOf 544 im.toNat) ∧
    (controlRuns s = true → onGrid x → restoreDue s g = true → imageThere s old → Done (.preemptionRestore g) s fun t =>
      (t.gang g).life = .started ∧ .preempt ∉ (t.gang g).causes ∧ (t.node x.node).saved = false ∧
      ∀ i n a, x.tiles[i]? = some n → a = (tget {} s.saved (keptKey s g i)).task.ctx →
        ((∀ y ∈ s.mem.marks, y.2.bad = true → a ≤ 64 * y.1 → a + 0x200000 ≤ 64 * y.1) →
          (∀ r, r < 56 → tget 0 (t.tile n).regs.s r = wordAt s .reservoir (a + 0x1E7200 + 8 * r)) ∧
          (∀ r, r < 48 → tget 0 (t.tile n).regs.v r =
            BitVec.ofNat 768 (ofBytes (bytesAt s .reservoir (a + 0x1E6000 + 96 * r) 96))) ∧
          (∀ r, r < 2048 → tget 0 (t.tile n).regs.acc r =
            BitVec.ofNat 2048 (ofBytes (bytesAt s .reservoir (a + 0x100000 + 256 * r) 256))) ∧
          (∀ r, 0 < r → r < 8 → tget false (t.tile n).regs.p r = (wordAt s .reservoir (a + 0x1E7430)).getLsbD r) ∧
          (∀ b, b < 64 →
            let im := (wordAt s .reservoir (a + 0x1E7C00 + 8 * b)).toNat
            let y := tget {} (t.tile n).vault.banks b
            y.debt = 0 ∧ y.actAt = 0 ∧ y.preAt = 0 ∧ y.colAt = 0 ∧
              if bits im 43 42 = 1 then y.mode = .active ∧ y.row = bits im 63 44 ∧ y.intent = im.testBit 41 else y.mode = .idle) ∧
          (t.tile n).vault.channels = [] ∧
          (∀ j, j < 2 ^ 20 → tget 0 (t.tile n).staging.cells j = tget 0 s.mem.res (a + j)) ∧
          (t.tile n).ctl.cyc = (wordAt s .reservoir (a + 0x1E7408)).toNat) ∧
        ((t.tile n).task.vpb, (t.tile n).task.vpl) =
          tget (0, 0) (s.job (tget {} s.saved (keptKey s g i)).task.pasid).parts n ∧
        (∀ r, r < 56 → unreadable (a + 0x1E7200 + 8 * r) 8 → tget false (t.tile n).regs.sPoison r = true) ∧
        (∀ r, r < 48 → unreadable (a + 0x1E6000 + 96 * r) 96 → tget false (t.tile n).regs.vPoison r = true))

/-- `TRAP_SIGNAL` reports or aborts as the policy of the lowest cause says: each task of an aborted gang whose counter is not 0 ends
tainted, and one whose counter is 0 keeps its verdict; `TRAPPOL_WRITE` sets policy and limit of an existing job
and sets LKERR bit 3 for another; a trap that finds TRAPQ full waits; `TRAPQ_READ` gives the host the oldest entry and removes it, whereupon the first
trap that still waits takes the place, or gives it 0 when there is none (R44, R45, R286, R287). That no result of an aborted gang lands any more is the
model's reading (log entry 21). -/
def Obligations.TrapHandling : Prop :=
  ∀ (s : State) (g : Nat) (v : BitVec 64), Safety.wf s = true →
    let x := s.gang g
    let low := lowestCause s g
    let policy := bits (s.job x.pasid).policy.toNat (2 * low - 1) (2 * low - 2)
    let entry (h : Nat) : BitVec 64 :=
      let y := s.gang h
      let n := y.firstTrap.getD 0
      BitVec.ofNat 64 (2 ^ 63 + h * 2 ^ 48 + n % 16 * 2 ^ 44 + n / 16 * 2 ^ 40 + y.pasid * 2 ^ 20 + y.node * 2 ^ 8 + lowestCause s h)
    let stands (h : Nat) : Prop := .trap ∈ (s.gang h).causes ∧ (s.gang h).signalled = true ∧
      ∃ n ∈ (s.gang h).tiles, (s.tile n).ctl.trap.isSome = true
    let p := bits v.toNat 63 44
    (controlRuns s = true → signalDue s g = true → (policy = 0 ∨ policy = 3) → s.lk.trapq.length < 64 →
      Done (.trapSignal g) s fun t =>
        t.lk.trapq = s.lk.trapq ++ [entry g] ∧ t.lk.trapWaits = s.lk.trapWaits ∧ t.lk.msix = s.lk.msix ++ (if s.lk.trapq = [] then [0] else []) ∧
        t.gang g = { x with signalled := true } ∧ t.mem = s.mem) ∧
    (controlRuns s = true → signalDue s g = true → (policy = 0 ∨ policy = 3) → 64 ≤ s.lk.trapq.length →
      Done (.trapSignal g) s fun t =>
        t.lk = { s.lk with trapWaits := s.lk.trapWaits ++ [g] } ∧ t.gang g = { x with signalled := true } ∧ t.mem = s.mem) ∧
    (controlRuns s = true → onGrid x → inPlace s g → signalDue s g = true → (policy = 1 ∨ policy = 2) →
      Done (.trapSignal g) s fun t =>
        t.lk.trapq = s.lk.trapq ∧ (t.gang g).tainted = true ∧ (policy = 1 → (t.gang g).reissue = false) ∧
        (policy = 2 → ((t.gang g).reissue = true ↔
          (s.node x.node).reissues < (s.job x.pasid).rmax ∧ (s.node x.node).gaveEarly = false)) ∧
        ∀ n ∈ x.tiles, (s.tile n).ctl.status ≠ .idle → (s.tile n).task.complete = false →
          let finished : Prop := (s.tile n).ctl.status = .ended ∧ (s.tile n).barge.queue = []
          (¬ finished → (t.tile n).ctl.status = .ended ∧ (t.tile n).ctl.verdict = .tainted ∧ (t.tile n).ctl.trap = none ∧
            (t.tile n).results = []) ∧
          (finished → (t.tile n).ctl = { (s.tile n).ctl with trap := none })) ∧
    (controlRuns s = true → Done (.trappolWrite v) s fun t =>
      ((s.job p).live = true → t.lk = s.lk ∧
        t.job p = { s.job p with policy := v.truncate 20, rmax := bits v.toNat 43 40 }) ∧
      ((s.job p).live = false → t = { s with lk := { s.lk with err := s.lk.err ||| 8 } }) ∧
      (∀ q, q ≠ p → t.job q = s.job q)) ∧
    (∀ e es, s.lk.trapq = e :: es → (∀ h ∈ s.lk.trapWaits, ¬ stands h) →
      exec .trapqRead s = .next { s with lk := { s.lk with trapq := es, trapWaits := [] }, fabric := { s.fabric with reply := e } }) ∧
    (∀ e es hs h gs, s.lk.trapq = e :: es → es.length < 64 → s.lk.trapWaits = hs ++ h :: gs → (∀ k ∈ hs, ¬ stands k) → stands h →
      exec .trapqRead s = .next { s with
        lk := { s.lk with trapq := es ++ [entry h], trapWaits := gs, msix := s.lk.msix ++ (if es = [] then [0] else []) },
        fabric := { s.fabric with reply := e } }) ∧
    (s.lk.trapq = [] → exec .trapqRead s = .next { s with fabric := { s.fabric with reply := 0 } })

/-- `CUT_REQUEST` fixes an instant 256 cycles and the largest padded latency P of the scope ahead, and holds the job's gangs 16 + P
cycles on; a request of the device becomes pending in every job and takes those whose request waits, all at one instant and with the largest P of
their gangs. `CUT_INSTANT` closes the generation: it clones the rows open with intent, writes the record with the in-flight commands, makes every row
of the job's partitions undrained and lets the gangs go, and the cut hold then lasts 16 + P cycles more. The first write to a frame that generations
share copies it first, for each of them, or fails them where no frame is left. `GENRESTORE_COMPLETE` brings the rows, the frames and the descriptors
back and ends the command, every row drained and without a clone; an image that is not there stops it (R2, R225 to R231, R235, R237, R239). The order of a
cut's events, that a gang which is placed and has not started is held from its start, that a field which cannot hold a count takes it modulo its
width, that a newer generation is drained first and that such an image stops the step are the model's choices (log entries 2, 22, 28, 48, 53 and 68). -/
def Obligations.CutsAndRestores : Prop :=
  ∀ (s : State) (p : Nat), Safety.wf s = true →
    let j := s.job p
    let flying := ((List.range 256).filter fun n => (gangsOf s p).any fun g => (s.gang g).tiles.contains n).flatMap fun n =>
      (s.tile n).barge.queue.map fun c => (n, c)
    (j.cut = some (.pending false) → cutAllowed j = true → Done (.cutRequest false p) s fun t =>
      (∃ m, (t.job p).cut = some (.running false (s.clock + 256 + m) m) ∧ (∀ g ∈ placedGangs s p, (s.gang g).pad ≤ m) ∧
        (m = 0 ∨ ∃ g ∈ placedGangs s p, m = (s.gang g).pad) ∧
        ∀ g ∈ placedGangs s p, (s.gang g).held = false → (s.gang g).effectAt = none → .cut ∉ (s.gang g).causes →
          (t.gang g).effectAt = some (s.clock + 16 + m)) ∧
      (∀ g ∈ placedGangs s p, .cut ∈ (t.gang g).causes) ∧ ∀ n, (t.tile n).regs = (s.tile n).regs) ∧
    ((∃ q ∈ s.jobs, q.2.live = true ∧ q.2.cut = some (.pending true)) →
      (∀ q ∈ s.jobs, q.2.live = true → q.2.cut = some (.pending true) → cutAllowed q.2 = true) → Done (.cutRequest true p) s fun t =>
        ∃ m, (∀ q ∈ s.jobs, q.2.live = true → q.2.cut = some (.pending true) →
          (t.job q.1).cut = some (.running true (s.clock + 256 + m) m) ∧ ∀ g ∈ placedGangs s q.1, (s.gang g).pad ≤ m ∧ .cut ∈ (t.gang g).causes ∧
            ((s.gang g).held = false → (s.gang g).effectAt = none → .cut ∉ (s.gang g).causes →
              (t.gang g).effectAt = some (s.clock + 16 + m))) ∧
        (m = 0 ∨ ∃ q ∈ s.jobs, q.2.live = true ∧ q.2.cut = some (.pending true) ∧ ∃ g ∈ placedGangs s q.1, m = (s.gang g).pad) ∧
        ∀ n, (t.tile n).regs = (s.tile n).regs) ∧
    ((∀ q ∈ s.jobs, q.2.live = true → q.2.cut ≠ some (.pending true)) → Done (.cutRequest true p) s fun t =>
        ∀ q ∈ s.jobs, q.2.live = true → (t.job q.1).cut = some (.pending true) ∨
          ∃ d at_, (∃ pad, (t.job q.1).cut = some (.running d at_ pad)) ∨ (t.job q.1).cut = some (.closing d at_)) ∧
    (∀ dev at_ pad, j.cut = some (.running dev at_ pad) → at_ ≤ s.clock → Done (.cutInstant p) s fun t =>
      (t.job p).gen = j.gen + 1 ∧ (t.job p).cut = some (.closing dev (s.clock + 16 + pad)) ∧
      (∀ g ∈ placedGangs s p, .cut ∉ (t.gang g).causes ∧ (.cut ∈ (s.gang g).causes →
        (s.gang g).life ≠ .started ∨ ((s.gang g).held = true ∧ (t.gang g).causes = []) → (t.gang g).resumeAt = some (s.clock + 16 + pad))) ∧
      ∃ x, (t.job p).gens = x :: j.gens ∧ x.num = j.gen ∧ x.dev = dev ∧ x.cutClock = s.clock ∧ x.descs = j.tensors ∧
        (x.state = .failed ∨ x.state = .drained ∨ x.state = .draining) ∧ (x.state ≠ .failed →
          (∀ n, let y := tget {} x.images n
            let q := tget (0, 0) j.parts n
            q.1 < q.2 → x.state = .draining ∧ (y.vpb, y.vpl) = q ∧ y.rowsLeft = 64 * (q.2 - q.1) ∧
              ∀ b row, b < 64 → q.1 ≤ row → row < q.2 → j.rowsClean ≤ j.cuts →
                (tget {} (s.tile n).vault.rows (b * 32768 + row)).dgen ≤ j.cuts →
                undrained (t.job p) n (tget {} (t.tile n).vault.rows (b * 32768 + row)) = true) ∧
          (∀ g ∈ gangsOf s p, ∀ n ∈ (s.gang g).tiles, ∀ b, b < 64 →
            let y := tget {} (s.tile n).vault.banks b
            y.mode = .active → y.intent = true → (tget {} (t.tile n).vault.rows (b * 32768 + y.row)).cloned = true) ∧
          x.inflight = flying.length ∧
          (x.record ≠ 0 → let word (i : Nat) : BitVec 64 := wordAt t .reservoir (x.record + 8 * i)
           word 0 = BitVec.ofNat 64 (dev.toNat * 2 ^ 55 + (if x.state = .draining then 2 else 3) * 2 ^ 52 + p * 2 ^ 32 + j.gen) ∧
           word 1 = BitVec.ofNat 64 s.clock ∧ word 2 = BitVec.ofNat 64 x.vdir ∧ word 3 = BitVec.ofNat 64 x.flist ∧
           word 4 = BitVec.ofNat 64 x.dlist ∧ word 5 = BitVec.ofNat 64 x.inflight ∧ word 6 = BitVec.ofNat 64 x.iflist ∧
           word 7 = BitVec.ofNat 64 ((x.images.map fun y => y.2.rowsLeft).sum) ∧ ∀ i, 8 ≤ i → i < 16 → word i = 0) ∧
          (x.record + 128 ≤ x.iflist ∨ x.iflist + 320 * x.inflight ≤ x.record → (∀ y ∈ flying, if y.2.started then y.2.view.length ≤ 32 else y.2.base % 8 = 0) →
            ∀ (k n : Nat) (c : Cmd), flying[k]? = some (n, c) →
              let word (i : Nat) : BitVec 64 := wordAt t .reservoir (x.iflist + 320 * k + 8 * i)
              let f (hi lo : Nat) : Nat := bits c.word.toNat hi lo
              word 0 = BitVec.ofNat 64 (c.done % 2 ^ 21 * 2 ^ 21 + f 31 26 * 2 ^ 15 + f 13 8 * 2 ^ 9 + f 7 3 * 2 ^ 4) ∧
              word 1 = BitVec.ofNat 64 ((s.tile n).task.gid * 2 ^ 52 + n % 16 * 2 ^ 48 + n / 16 * 2 ^ 44 + c.token * 2 ^ 38) ∧
              (c.started = true → ∀ i, i < 32 → word (4 + i) = c.view.getD i 0) ∧
              (c.started = false → ∀ i u, (unitsOf c.base 256)[i]? = some u → tget .good (s.tile n).staging.marks u = .good →
                word (4 + i) = (s.tile n).staging.unit u)))) ∧
    (∀ dev at_, j.cut = some (.closing dev at_) → exec (.cutInstant p) s = .next
      (if at_ ≤ s.clock then s.mapJob p fun j => { j with cut := none } else s)) ∧
    (∀ (port link frame since : Nat) (flit : Flit) (w : FlitWrite),
      let shares (y : Gen) : Prop := (y.state = .draining ∨ y.state = .drained) ∧ since ≤ y.num
      let copy := (s.mem.allocate 65536).1 / 65536
      s.platform.phase = 5 → port < 64 → (∀ c ∈ s.fabric.crossings, c.2.live = true → c.2.ports.1 ≠ port ∧ c.2.ports.2 ≠ port) →
      tget false s.fabric.down link = false → flit.header.length = 6 → flit.payload.length = 240 → flit.wrongBytes ≤ 3 →
      flit.crc = crc32c (flit.header ++ flit.payload) → flit.write = some w → w.space = .reservoir → w.bytes ≠ [] →
      65536 * frame ≤ w.addr → w.addr + w.bytes.length ≤ 65536 * (frame + 1) → frame < s.mem.capacity →
      tget (0, 0) s.mem.frames frame = (p + 1, since) → since < j.cuts → (∃ y ∈ j.gens, shares y) →
      Done (.sarpolFlit port link flit) s fun t =>
        bytesAt t .reservoir w.addr w.bytes.length = w.bytes ∧ tget (0, 0) t.mem.frames frame = (p + 1, j.cuts) ∧
        (t.job p).gens.length = j.gens.length ∧ ∀ (i : Nat) (y z : Gen), j.gens[i]? = some y → (t.job p).gens[i]? = some z →
          (¬ shares y → z = y) ∧
          (shares y → s.mem.room 65536 = false → z.state = .failed) ∧
          (shares y → s.mem.room 65536 = true → (frame, copy) ∈ z.copies ∧ (∀ c ∈ y.copies, c ∈ z.copies) ∧ z.state = y.state ∧
            (copy ≠ frame → (∀ v ∈ j.gens, shares v → v.flist + 32 + 16 * v.copies.length ≤ 65536 * copy ∨ 65536 * (copy + 1) ≤ v.flist) →
              bytesAt t .reservoir (65536 * copy) 65536 = bytesAt s .reservoir (65536 * frame) 65536))) ∧
    (∀ num x, j.restoring = some num → j.gens.find? (fun y => y.num == num) = some x →
      ((∀ n, let v := s.select n
        nextRow v [(p, tget (0, 0) j.parts n)] (List.range 64) false = none) → (drainJob s p).isSome = true) ∧
      (drainJob s p = none → Stops (.genrestoreComplete p num) s) ∧
      ∀ y, drainJob s p = some y →
        let entry (im : TileImage) (m : Nat) : Nat := bits (wordAt y .reservoir (im.imgtab + 8 * m)).toNat 47 0
        let whole : Prop := ∀ z ∈ x.images, ∀ m, 65536 * m < 98304 * (z.2.vpl - z.2.vpb) → entry z.2 m < s.mem.capacity
        (¬ whole → Stops (.genrestoreComplete p num) s) ∧
        (whole → Done (.genrestoreComplete p num) s fun t =>
          (t.job p).tensors = x.descs ∧ (t.job p).restoring = none ∧ t.lk.cmdBusy = false ∧ t.lk.res = lkres 0 0 ∧ (t.job p).gen = j.gen ∧
          (∀ n, ∀ e ∈ (t.tile n).barge.lookaside, n < 256 → e.pasid ≠ p) ∧
          (∀ n g, undrained (t.job p) n g = false) ∧
          (∀ n b row, (tget (0, 0) j.parts n).1 ≤ row → row < (tget (0, 0) j.parts n).2 → row < 32768 →
            (tget {} (t.tile n).vault.rows (b * 32768 + row)).cloned = false) ∧
          ((∀ z ∈ y.mem.marks, z.2.bad = false) → ∀ z ∈ x.images, z.2.vpl ≤ 32768 → ∀ b row i, b < 64 → z.2.vpb ≤ row → row < z.2.vpl → i < 1536 →
            let place := 98304 * (row - z.2.vpb) + 1536 * b + i
            tget 0 (t.tile z.1).vault.cells (1536 * (b * 32768 + row) + i) =
              tget 0 y.mem.res (65536 * entry z.2 (place / 65536) + place % 65536)) ∧
          ((x.copies.map Prod.fst).Nodup → (∀ c ∈ x.copies, ∀ d ∈ x.copies, c.1 ≠ d.2) →
            (∀ c ∈ x.copies, let f := tget (0, 0) y.mem.frames c.1
              f.1 = 0 ∨ (y.job (f.1 - 1)).cuts ≤ f.2) →
            ∀ c ∈ x.copies, bytesAt t .reservoir (65536 * c.1) 65536 = bytesAt y .reservoir (65536 * c.2) 65536)))

/-! ### Barge, MMP and memory management -/

/-- The life of a barge command. Start: a failed consumed command ends it with DEP (a `BMARK` is only marked), a poisoned view word with
POISON, the first start check that fails, in the order of R472, with its code, otherwise it holds its view block and no data has moved. Piece: a read part adds a piece, the elements that follow one another in one
frame, each with the bytes that stand where the frame's translation puts it, and writes nothing outside the barge; a write part takes the oldest piece.
The bytes of a load stand in staging, those of a `.code` copy, bundle by bundle, in instruction SRAM, and those of a store or scatter in memory, where the
last of several for one place stands; a reduction leaves in each place what its type makes of the old value and the new one, and a far atomic the value
of Table 8.5, with the old one at RET. Every other byte stands. A store into a sealed tensor stops with SEALED, one over a link that is down with LINK, and
so does a far atomic. Completion: the word is written and the command is no longer outstanding (R189 to R197, R200, R215, R252, R472). The
endings of a `BMARK` and of a command without pieces are the model's reading (log entry 14); that FRAMES and WP are taken modulo 2^21, and that a reduction of
a host-backed frame is made in host memory, are its choices (log entries 53 and 55). A view word that the command does not use and that cannot be corrected is free (R10, R177). -/
def Obligations.BargeCommandLife : Prop :=
  ∀ (s : State) (n : Nat) (c : Cmd), Safety.wf s = true →
    let x := s.select n
    let job := s.job x.core.task.pasid
    let word (i : Nat) : Nat := bits (tget 0 x.core.barge.words i).toNat 63 61
    let ready : Prop := c.started = false ∧ (∀ i ∈ c.consume, word i ≠ 0) ∧ behindMark x c = false
    let view := readView x c
    let c1 := { c with started := true, view := view.1.map UnitValue.value }
    let used (v : UnitValue) : Prop := ∃ i ∈ wordsRead c1, view.1[i]? = some v
    let clean : Prop := ∀ v, used v → v.poison = false ∧ v.fixed = false
    let passes : Prop := wordsRead c1 = [] ∨ startError x x.core.task.pasid c1 = 0
    Outstanding x c →
    (ready → (∃ i ∈ c.consume, 3 ≤ word i) → c.kind ≠ .mark → AtTile (.bargeCommandStart n c.id) n s fun x u =>
      Ended u c.id (doneWord 3 10 0 0) ∧ u.core.staging = x.core.staging ∧ u.core.regs = x.core.regs) ∧
    (ready → (∃ i ∈ c.consume, 3 ≤ word i) → c.kind = .mark → AtTile (.bargeCommandStart n c.id) n s fun x u =>
      Becomes x u c { c with started := true, stop := some 10 } ∧ u.core.staging = x.core.staging ∧ u.mem = x.mem) ∧
    (ready → (∀ i ∈ c.consume, word i < 3) → (∃ v, used v ∧ v.poison = true) →
      AtTile (.bargeCommandStart n c.id) n s fun x u =>
        Ended u c.id (doneWord 3 3 0 0) ∧ u.core.staging.cells = x.core.staging.cells ∧ u.core.regs = x.core.regs) ∧
    (ready → (∀ i ∈ c.consume, word i < 3) → clean → passes →
      AtTile (.bargeCommandStart n c.id) n s fun x u =>
        (c.before = [] → Becomes x u c c1 ∧ ∀ i k : Nat, (unitsOf c.base 256)[i]? = some k → tget .good x.core.staging.marks k ≠ .uncorrectable →
          c1.view[i]? = some (x.core.staging.unit k)) ∧
        (∃ k ∈ u.core.barge.queue, { k with before := c.before } = c1) ∧
        u.core.staging = x.core.staging ∧ u.mem = x.mem ∧ u.core.regs = x.core.regs) ∧
    (ready → (∀ i ∈ c.consume, word i < 3) → clean → wordsRead c1 ≠ [] → startError x x.core.task.pasid c1 ≠ 0 →
      AtTile (.bargeCommandStart n c.id) n s fun x u =>
        Ended u c.id (doneWord 3 (startError x x.core.task.pasid c1) 0 0) ∧ u.core.staging = x.core.staging) ∧
    (∀ k : Cmd, (tensorOf job k).tile.length = (tensorOf job k).shape.length →
      FirstOf (startChecks job k) (startError x x.core.task.pasid k)) ∧
    (∀ d f e o, mayRead x c = true → descOf x x.core.task.pasid c = some d → gatherDim c = none →
      (locate x c d c.readPos).1 = .at f o → lookupEntry x c f = some e → noFrame x.mem e = false → c.kind.loads = true →
      linkDown x (entrySpace x.core.task.pasid job e) = false → (∀ b, (x.mem.mark (entrySpace x.core.task.pasid job e) b).bad = false) →
      AtTile (.bargePiece n c.id .reads) n s fun x u =>
        (∃ k q, Becomes x u c k ∧ k.pieces = c.pieces ++ [q] ∧ k.stop = none ∧ q.offs ≠ [] ∧ k.readPos = c.readPos + q.offs.length ∧
          q.frame = f ∧ q.entry = e ∧ q.size = elemBytes d.fmt ∧ k.readPos ≤ ((List.range (viewField c 0 35 32)).map fun i => viewField c (2 + i) 63 32).prod ∧
          (k.readPos < ((List.range (viewField c 0 35 32)).map fun i => viewField c (2 + i) 63 32).prod → ∀ z, (locate x c d k.readPos).1 ≠ .at f z) ∧
          ∀ i z, q.offs[i]? = some z → (locate x c d (c.readPos + i)).1 = .at f z ∧ (x.mem.unfenced = [] →
            (q.bytes.drop (q.size * i)).take q.size =
              bytesAt x (entrySpace x.core.task.pasid job e) (65536 * bits e.toNat 47 0 + z) q.size)) ∧
        u.core.staging = x.core.staging ∧ u.mem = { x.mem with unfenced := u.mem.unfenced } ∧
        (∀ w ∈ u.mem.unfenced, ∃ v ∈ x.mem.unfenced, w = v ∨ w = { v with dev := true }) ∧ u.core.regs = x.core.regs) ∧
    (∀ p ps, mayWrite x c = true → c.pieces = p :: ps → c.kind.loads = true → c.kind ≠ .code →
      (∀ d ∈ x.core.barge.queue, d.before = []) → p.bytes.length ≤ 2 ^ 20 → AtTile (.bargePiece n c.id .writes) n s fun x u =>
        u.core.staging.bytes (stageAddr (vBase c + c.wp)) p.bytes.length = p.bytes ∧
        (∃ k, Becomes x u c k ∧ k.pieces = ps ∧ k.done = c.done + 1 ∧ k.wp = c.wp + p.bytes.length) ∧
        (∀ v, v < 2 ^ 17 → v ∉ unitsOf (stageAddr (vBase c + c.wp)) p.bytes.length → u.core.staging.unit v = x.core.staging.unit v) ∧
        tget 0 u.core.barge.words c.id = doneWord 0 0 (c.done + 1) (c.wp + p.bytes.length) ∧ u.mem = x.mem ∧
        u.core.regs = x.core.regs) ∧
    (∀ p ps, mayWrite x c = true → c.pieces = p :: ps → c.kind = .code → AtTile (.bargePiece n c.id .writes) n s fun x u =>
        let bs := c.buf ++ p.bytes
        let m := bs.length / 32
        let at_ := (viewField c 1 19 0 + c.wp) / 32
        (∃ k, Becomes x u c k ∧ k.pieces = ps ∧ k.buf = bs.drop (32 * m) ∧ k.done = c.done + 1 ∧ k.wp = c.wp + 32 * m) ∧
        (∀ i, i < m → tget 0 u.core.isram.bundles (at_ + i) = BitVec.ofNat 256 (ofBytes ((bs.drop (32 * i)).take 32))) ∧
        (∀ i, i < at_ ∨ at_ + m ≤ i → tget 0 u.core.isram.bundles i = tget 0 x.core.isram.bundles i) ∧
        tget 0 u.core.barge.words c.id = doneWord 0 0 (c.done + 1) (c.wp + 32 * m) ∧ u.core.staging = x.core.staging ∧ u.mem = x.mem ∧
        u.core.regs = x.core.regs) ∧
    (∀ p ps, mayWrite x c = true → c.pieces = p :: ps → c.kind.loads = false → noFrame x.mem p.entry = false →
      (∀ f ∈ x.mem.frames, f.2.1 = 0 ∨ (s.job (f.2.1 - 1)).cuts ≤ f.2.2) →
      let sp := entrySpace x.core.task.pasid job p.entry
      let base := 65536 * bits p.entry.toNat 47 0
      let size := p.size
      let unsealed : Prop := (tensorOf job c).live = true → (tensorOf job c).count = vCount c → (tensorOf job c).sealed = false
      let sound (o : Nat) : Prop := (x.mem.mark sp (base + o)).bad = false
      let number (y : State) (o : Nat) : Nat := ofBytes (bytesAt y sp (base + o) size)
      let apart (o q : Nat) : Prop := o + size ≤ q ∨ q + size ≤ o
      let others (u : State) (os : List Nat) : Prop :=
        (∀ a, (∀ o ∈ os, a < base + o ∨ base + o + size ≤ a) → tget 0 (u.mem.space sp) a = tget 0 (x.mem.space sp) a) ∧
        ∀ sq, sq ≠ sp → u.mem.space sq = x.mem.space sq
      let finished (u : State) (wp : Nat) : Prop := (∃ k, Becomes x u c k ∧ k.pieces = ps ∧ k.done = c.done + 1 ∧ k.wp = wp) ∧
        tget 0 u.core.barge.words c.id = doneWord 0 0 (c.done + 1) wp ∧ u.core.regs = x.core.regs
      ((c.kind = .store ∨ c.kind = .scatter) → unsealed → linkDown x sp = false → p.bytes.length = size * p.offs.length →
        AtTile (.bargePiece n c.id .writes) n s fun x u =>
          finished u 0 ∧ others u p.offs ∧ u.core.staging = x.core.staging ∧ ∀ i o, p.offs[i]? = some o →
            (∀ j q, i < j → p.offs[j]? = some q → apart o q) →
            bytesAt u sp (base + o) size = (p.bytes.drop (size * i)).take size) ∧
      (∀ rm sat f, c.kind = .reduce rm sat f → rm.toNat ≤ 4 → unsealed → linkDown x sp = false → size = elemBytes f →
        p.bytes.length = size * p.offs.length → (∀ o ∈ p.offs, sound o) → AtTile (.bargePiece n c.id .writes) n s fun x u =>
          finished u 0 ∧ others u p.offs ∧ u.core.staging = x.core.staging ∧ ∀ i o, p.offs[i]? = some o →
            (∀ j q, j ≠ i → p.offs[j]? = some q → apart o q) →
            let y := ofBytes ((p.bytes.drop (size * i)).take size)
            let sg := decide (f.toNat % 2 = 0)
            (f.toNat < 6 → ∃ fl, SumIs f.toNat rm.toNat [[(f.toNat, number x o)], [(f.toNat, y)]] (number u o, fl)) ∧
            (6 ≤ f.toNat → number u o = narrow sat sg (8 * size) (readInt sg (8 * size) (number x o) + readInt sg (8 * size) y))) ∧
      (((c.kind = .store ∨ c.kind = .scatter) ∨ ∃ rm sat f, c.kind = .reduce rm sat f) → unsealed → linkDown x sp = true →
        AtTile (.bargePiece n c.id .writes) n s fun x u =>
          Becomes x u c { c with stop := some 9, pieces := [] } ∧ u.mem = x.mem ∧ u.core.staging = x.core.staging) ∧
      (∀ op scope, c.kind = .atomic op scope → bits p.entry.toNat 62 61 ≠ 2 →
        let o := p.offs.headD 0
        let old := number x o
        let a := viewField c 13 (8 * size - 1) 0
        let b := viewField c 14 (8 * size - 1) 0
        let ret := viewField c 15 19 3 * 8
        let int (z : Nat) : Int := readInt true (8 * size) z
        (linkDown x sp = true → AtTile (.bargePiece n c.id .writes) n s fun x u =>
          (∃ k, Becomes x u c k ∧ k.stop = some 9 ∧ k.pieces = []) ∧ u.core.staging = x.core.staging) ∧
        (linkDown x sp = false → size = 4 ∨ size = 8 → sound o → (unsealed ∨ (op = 9 ∧ old ≠ b)) →
          (∀ d ∈ x.core.barge.queue, d.before = []) → AtTile (.bargePiece n c.id .writes) n s fun x u =>
            let new := number u o
            finished u 8 ∧ others u [o] ∧ u.core.staging.bytes ret 8 = bytesOf 8 old ∧
            (∀ v, v < 2 ^ 17 → v ∉ unitsOf ret 8 → u.core.staging.unit v = x.core.staging.unit v) ∧
            (op = 0 → new = (old + a) % 2 ^ (8 * size)) ∧ (op = 1 → new = max old a) ∧ (op = 2 → new = min old a) ∧
            (op = 3 → int new = max (int old) (int a)) ∧ (op = 4 → int new = min (int old) (int a)) ∧ (op = 5 → new = old &&& a) ∧
            (op = 6 → new = old ||| a) ∧ (op = 7 → new = old ^^^ a) ∧ (op = 8 → new = a) ∧ (op = 9 → new = if old = b then a else old)))) ∧
    (∀ p ps e, mayWrite x c = true → c.pieces = p :: ps → c.kind.loads = false → (∀ op scope, c.kind ≠ .atomic op scope) →
      p.entry = e → noFrame x.mem e = false → (tensorOf job c).live = true → (tensorOf job c).count = vCount c →
      (tensorOf job c).sealed = true → AtTile (.bargePiece n c.id .writes) n s fun x u =>
        Becomes x u c { c with stop := some 2, pieces := [] } ∧ u.mem = x.mem ∧ u.core.staging = x.core.staging) ∧
    (completes x c = true → AtTile (.bargeCompletion n c.id) n s fun x u =>
      ∃ st err, Ended u c.id (doneWord st err c.done c.wp) ∧ (err = 0 ↔ st = 1 ∨ st = 2) ∧ (∀ e, c.stop = some e → err = e) ∧
        (c.stop = none → handleChanged x c = false → err = 0) ∧
        (c.stop = none → c.kind.named = true → ((tensorOf job c).live = false ∨ (tensorOf job c).count ≠ vCount c) → err = 1) ∧ (err ≠ 0 → st = if c.done = 0 then 3 else 4) ∧
        u.core.staging = x.core.staging ∧ u.core.regs = x.core.regs)

/-- A walk notes the shoot-down counter and reads the table; a walk whose counter has moved fills nothing; one with V = 0 is a miss;
another fills the lookaside, which holds at most 256 entries. The MMP ends a miss that it cannot map with NOMAP and answers the others; a
shoot-down moves the counter and leaves no matching entry; a seal changes the descriptor and shoots its entries down (R200, R202, R203).
Each is done wherever the tile tables that it reaches, and a frame that it copies, are in fitted frames (R2); elsewhere it stops. Which frames the MMP
hands out, that an unseal for whose tables none is left waits, NOMAP for a peer number that the job does not map, and the stop are the model's choices (log
entries 6, 28 and 34). -/
def Obligations.TranslationEvents : Prop :=
  ∀ (s : State) (n : Nat) (c : Cmd), Safety.wf s = true →
    let x := s.select n
    let b := x.core.barge
    let p := x.core.task.pasid
    let tensor := tget {} (s.job p).tensors (vTensor c)
    let unmapped := { c with stop := some 7 }
    let room : Prop := s.mem.nextFrame + 32 ≤ s.mem.capacity
    let gone (t : Tile) (p k : Nat) : Prop := ∀ y ∈ t.barge.lookaside, ¬ (y.pasid = p ∧ y.tensor = k)
    let tables (f : Nat) : Prop := there s .reservoir tensor.root 0x20000 ∧
      let e := wordAt s .reservoir (level1Addr tensor.root f)
      (entryV e = true → badLevel1 e = false → there s .reservoir (entryFrame e) 0x20000)
    let reached : Prop := ∀ f, neededFrame x c = some f → tablesFit x p (vTensor c) f = true
    Outstanding x c →
    (∀ f, neededFrame x c = some f → (∀ w ∈ b.walks, w.id ≠ c.id) → c.id ∉ b.misses → walksIn x (quadrantOf n) < 8 →
      (tables f → AtTile (.lookasideWalk n c.id .begins) n s fun x u =>
        ∃ w, u.core.barge = { b with walks := b.walks ++ [w] } ∧ w.id = c.id ∧ w.frame = f ∧ w.seq = x.mem.shoot ∧ u.mem = x.mem) ∧
      (¬ tables f → Stops (.lookasideWalk n c.id .begins) s)) ∧
    (∀ w, b.walks.find? (fun w => w.id == c.id) = some w → tables w.frame →
      let v := w.entry.getLsbD 63
      let lost := v && noPeer (s.job p) w.entry
      AtTile (.lookasideWalk n c.id .fills) n s fun x u =>
        (∀ w ∈ u.core.barge.walks, w.id ≠ c.id) ∧
        (w.seq ≠ x.mem.shoot → u.core.barge.lookaside = b.lookaside ∧ u.core.barge.queue = b.queue ∧ u.mem = x.mem) ∧
        (w.seq = x.mem.shoot → (w.bad || lost) = true → Becomes x u c unmapped) ∧
        (w.seq = x.mem.shoot → w.bad = false → v = false → u.core.barge.misses = b.misses ++ [c.id] ∧ u.mem = x.mem) ∧
        (w.seq = x.mem.shoot → w.bad = false → v = true → lost = false → b.lookaside.length ≤ 256 →
          u.core.barge.lookaside.length ≤ 256 ∧ ∃ e, u.core.barge.lookaside.getLast? = some e ∧ e.pasid = p ∧
            e.tensor = vTensor c ∧ e.count = vCount c ∧ e.frame = w.frame ∧ e.entry = w.entry)) ∧
    (mmpRuns s = true → c.id ∈ b.misses → (neededFrame x c).isSome → AtTile (.mmpMissFill n c.id false) n s fun x u =>
      Becomes x u c unmapped ∧ c.id ∉ u.core.barge.misses ∧ u.mem = x.mem) ∧
    (mmpRuns s = true → c.id ∈ b.misses → tensor.host = false → reached → room → AtTile (.mmpMissFill n c.id true) n s fun x u =>
        c.id ∉ u.core.barge.misses ∧ u.core.barge.queue = b.queue ∧ x.mem.nextFrame ≤ u.mem.nextFrame ∧
        u.core.regs = x.core.regs) ∧
    (mmpRuns s = true → c.id ∈ b.misses → tensor.host = true → AtTile (.hostFrameReply n c.id none) n s fun x u =>
      Becomes x u c unmapped ∧ c.id ∉ u.core.barge.misses ∧ u.mem = x.mem) ∧
    (∀ frame, mmpRuns s = true → c.id ∈ b.misses → tensor.host = true → reached → room →
      AtTile (.hostFrameReply n c.id (some frame)) n s
        fun x u => c.id ∉ u.core.barge.misses ∧ u.core.barge.queue = b.queue ∧ u.core.regs = x.core.regs) ∧
    (mmpRuns s = true → c.id ∈ b.misses → (tensor.host = false → ¬ reached → Stops (.mmpMissFill n c.id true) s) ∧
      (tensor.host = true → ¬ reached → ∀ frame, Stops (.hostFrameReply n c.id (some frame)) s)) ∧
    (∀ p k f e, mmpRuns s = true → (tget {} (s.job p).tensors k).live = true → shootFits s p k f e = false → Stops (.shootdown p k f e) s) ∧
    (∀ p k f e, mmpRuns s = true → (tget {} (s.job p).tensors k).live = true → shootFits s p k f e = true → room → Done (.shootdown p k f e) s fun t =>
      t.mem.shoot = s.mem.shoot + 1 ∧ ∀ m, (t.tile m).regs = (s.tile m).regs ∧ (t.tile m).staging = (s.tile m).staging ∧
        (m < 256 → (t.tile m).barge.lookaside = (s.tile m).barge.lookaside.filter fun y =>
          !(y.pasid == p && y.tensor == k && y.frame == f))) ∧
    (∀ d, mmpRuns s = true → c.started = true → c.applied = false → c.stop = none → descOf x p c = some d →
      (c.kind = .sealOn ∨ (c.kind = .sealOff ∧ (d.sealed = true → (∀ y ∈ d.moved, tablesFit x p (vTensor c) y.1 = true) ∧
        s.mem.nextFrame + 9 * d.moved.length ≤ s.mem.capacity))) → AtTile (.sealChange n c.id) n s fun x u =>
        let e := tget {} (u.job p).tensors (vTensor c)
        let on := decide (c.kind = .sealOn)
        (∃ k ∈ u.core.barge.queue, k.id = c.id ∧ k.applied = true ∧ k.stop = none) ∧
        u.core.barge.queue.map Cmd.id = x.core.barge.queue.map Cmd.id ∧
        (d.sealed = on → Becomes x u c { c with applied := true }) ∧ e.sealed = on ∧ e.live = d.live ∧ e.count = d.count ∧ e.shape = d.shape ∧
        e.tile = d.tile ∧ e.fmt = d.fmt ∧ (d.moved = [] → e = { d with sealed := on }) ∧
        (d.sealed ≠ on → u.mem.shoot = x.mem.shoot + 1 ∧ (on = false → e.moved = []) ∧ ∀ m, m < 256 → gone (u.tile m) p (vTensor c)))

/-- A new job has generation 0, every policy 0, its peer map and no partition; a partition's columns are zero and every other column
stands; a freed tensor number counts one more, as does one that gets new storage once every shoot-down is complete, and its lookaside
entries are gone (R132, R141, R180, R202, R223, R253, R286). -/
def Obligations.JobSetup : Prop :=
  ∀ (s : State) (p : Nat), Safety.wf s = true → mmpRuns s = true →
    (∀ a b ps ts, p < 2 ^ 20 → (s.job p).live = false → s.mem.nextFrame + 1 + 2 * ts.length ≤ s.mem.capacity →
      Done (.jobCreation p a b { peers := ps, tensors := ts }) s fun t =>
      (t.job p).live = true ∧ (t.job p).snap = a ∧ (t.job p).preemptible = b ∧ (t.job p).gen = 0 ∧ (t.job p).gens = [] ∧
      (t.job p).policy = 0 ∧ (t.job p).parts = [] ∧ (∀ x ∈ ts, legalTensor x = true → (tget {} (t.job p).tensors x.number).live = true) ∧
      (∀ k c, (k, c) ∈ ps → k < 64 → c < 4096 → (∀ y ∈ ps, y.1 = k → y.2 = c) → tget 0 (t.job p).peers k = c + 1) ∧
      ∀ q, q ≠ p → t.job q = s.job q) ∧
    (∀ n lo hi, (s.job p).live = true → n < 256 → lo ≤ hi → hi ≤ 32768 → 0 < hi →
      (tget (0, 0) (s.job p).parts n).1 = (tget (0, 0) (s.job p).parts n).2 →
      (∀ j ∈ s.jobs, j.1 ≠ p → apart (lo, hi) (tget (0, 0) j.2.parts n) = true) →
      Done (.partitionAllocation p n lo hi) s fun t =>
        tget (0, 0) (t.job p).parts n = (lo, hi) ∧
        (∀ b row k, b < 64 → row < 32768 → k < 1536 → tget 0 (t.tile n).vault.cells (1536 * (b * 32768 + row) + k) =
          if lo ≤ row ∧ row < hi then 0 else tget 0 (s.tile n).vault.cells (1536 * (b * 32768 + row) + k)) ∧
        (∀ m, m ≠ n → t.tile m = s.tile m) ∧ (t.tile n).regs = (s.tile n).regs) ∧
    (∀ k, let d := tget {} (s.job p).tensors k
      let settled : Prop := ∀ n, n < 256 → (∀ w ∈ (s.tile n).barge.walks, s.mem.shoot ≤ w.seq) ∧
        ∀ c ∈ (s.tile n).barge.queue, ∀ q ∈ c.pieces, q.stale = false
      d.shape ≠ [] → (d.live = true ∨ (s.mem.nextFrame + 3 ≤ s.mem.capacity ∧ settled)) → Done (.tensorFree p k) s fun t =>
      let e := tget {} (t.job p).tensors k
      e.live = !d.live ∧ e.count = (d.count + 1) % 256 ∧ e.shape = d.shape ∧ e.tile = d.tile ∧ e.fmt = d.fmt ∧
      t.mem.shoot = s.mem.shoot + 1 ∧ (d.live = true → t.mem = { s.mem with shoot := s.mem.shoot + 1 }) ∧
      (∀ m, m < 256 → ∀ y ∈ (t.tile m).barge.lookaside, ¬ (y.pasid = p ∧ y.tensor = k)) ∧
      ∀ q, q ≠ k → tget {} (t.job p).tensors q = tget {} (s.job p).tensors q)

/-! ### The fabric -/

/-- `CANAL_ROW_ARRIVE`: a row that enters alone by the input of its entry is checked, delivered and forwarded as the entry says, 2 or 6
cycles a hop. `RECEIVE_OVERRUN` traps a waiting task with cause 8, or marks the open record of its `BRK` or `TRAP` late. `CROSSING_UNIT` brings a row in, counts the first intact copy of a hold
event or, with a lost event, ends the crossing, as `LOSS_OF_LOCK` does. `CROSSING_TRAINING` takes a pair of free ports and a latency of 512
to 4,096. `SARPOL_FLIT` performs its write or counts a replay, and the ninth failure takes the link down. Neither acts before the links are
trained, or in recovery: the model's choice (log entry 27), as it is that a flit on a port of an ended crossing acts (log entry 57) (R240, R241, R247, R248, R250 to R252, R282, R300, R306). The ninth failed reception, and the cycle on which a
crossing's row enters, are the model's reading (log entries 15 and 16), and so is a late cause in a wait (log entry 21). -/
def Obligations.FabricEvents : Prop :=
  ∀ (s : State) (n : Nat), Safety.wf s = true →
    let x := s.select n
    let g := s.gang x.core.task.gid
    let up : Prop := s.platform.phase = 4 ∨ s.platform.phase = 5
    (∀ f, g.held = false → x.core.ctl.status = .running → x.core.canal.old = none → entering x n s.clock = [f] →
      let e := tget 0 x.core.canal.routes f.route
      let f1 := { f with mark := .good, corrected := f.corrected || f.mark == Mark.correctable,
                         poison := f.poison || f.mark == Mark.uncorrectable || f.mark == Mark.poisoned }
      AtTile (.canalRowArrive n) n s fun x u =>
        u.flights = (x.flights.filter fun y => !(y == f)) ++ ((List.range 4).filterMap fun k =>
          if e.getLsbD (8 + k) then (neighbour n k).bind fun m => if m ∈ g.tiles then
            some { f1 with tile := m, input := [3, 4, 1, 2].getD k 0, enters := s.clock + if quadrantOf n = quadrantOf m then 2 else 6 }
          else none else none) ∧
        (∀ l, tget [] u.core.canal.latches l = tget [] x.core.canal.latches l ++
          if e.getLsbD 7 = true ∧ l = bits e.toNat 6 5 then [{ row := f.row, poison := f1.poison, since := s.clock }] else []) ∧
        u.core.ctl = (corrected x (e.getLsbD 7 && f1.corrected)).core.ctl ∧ u.core.regs = x.core.regs ∧ u.mem = x.mem) ∧
    (∀ l, x.core.ctl.status = .waiting → g.held = false → overruns x l false = true → x.core.ctl.trap = none →
      AtTile (.receiveOverrun n l) n s fun x u => Trapped u.core (u.gang x.core.task.gid) 8 0 ∧ u.core.regs = x.core.regs) ∧
    (∀ l r, x.core.ctl.status = .waiting → g.held = false → overruns x l false = true → x.core.ctl.trap = some r → r.final = false →
      AtTile (.receiveOverrun n l) n s fun x u => u.core.ctl.status = .stopped ∧ (∃ q, u.core.ctl.trap = some q ∧ q.late = true ∧
        q.cause = r.cause ∧ q.detail = r.detail) ∧ u.core.regs = x.core.regs) ∧
    (∀ k u,
      let y := tget {} s.fabric.crossings k
      let h := (s.tile y.tile).task.gid
      let crossings := tset {} s.fabric.crossings k { y with units := y.units + 1 }
      y.live = true → u.eventLost = false → u.arrival = none → u.stretch = 0 → (s.tile y.tile).ctl.status ≠ .idle →
      0 < (s.gang h).pkg →
      (u.hold = none → u.valid = true →
        exec (.crossingUnit k u) s = .next { s with fabric := { s.fabric with crossings := crossings }, flights := s.flights ++ [{
          route := u.route.toNat, row := u.row, poison := u.poison || !u.correctable, corrected := false, mark := .good, tile := y.tile,
          input := y.side + 1, enters := s.clock + 1, gid := h }] }) ∧
      (∀ copy, u.hold = some copy → copy ≤ 2 → u.valid = false → u.correctable = true → Done (.crossingUnit k u) s fun t =>
        (y.units + 3 - copy ∈ y.holdSeen → t.gang h = s.gang h) ∧
        (y.units + 3 - copy ∉ y.holdSeen → (.remote ∈ (t.gang h).causes ↔ .remote ∉ (s.gang h).causes)))) ∧
    (∀ k (i : Instr), i = .lossOfLock k ∨ (∃ u : CrossingUnit, u.eventLost = true ∧ i = .crossingUnit k u) →
      let y := tget {} s.fabric.crossings k
      let h := (s.tile y.tile).task.gid
      y.live = true → (s.tile y.tile).ctl.status ≠ .idle → 0 < (s.gang h).pkg → Done i s fun t =>
        (tget {} t.fabric.crossings k).live = false ∧
        ∀ m ∈ (s.gang h).tiles, onGrid (s.gang h) → (s.tile m).task.gid = h → (s.tile m).ctl.trap = none →
          ((s.tile m).ctl.status = .running ∨ (s.tile m).ctl.status = .waiting) → Trapped (t.tile m) (t.gang h) 8 1) ∧
    (∀ k tile side a b lat ok, k < 8 → tile < 256 → side < 4 → neighbour tile side = none → a < 64 → b < 64 → a ≠ b →
      (∀ c ∈ s.fabric.crossings, c.1 ≠ k → c.2.live = true → ∀ q ∈ [c.2.ports.1, c.2.ports.2], q ≠ a ∧ q ≠ b) → up →
      Done (.crossingTraining k (tile, side) (a, b) lat ok) s fun t =>
        let y := tget {} t.fabric.crossings k
        (y.live = true ↔ ok = true ∧ 512 ≤ lat ∧ lat ≤ 4096) ∧
        (y.live = true → y.latency = lat ∧ y.tile = tile ∧ y.side = side ∧ y.ports = (a, b))) ∧
    (∀ port link flit, port < 64 → tget false s.fabric.down link = false → flit.header.length = 6 → flit.payload.length = 240 →
      (∀ c ∈ s.fabric.crossings, c.2.live = true → c.2.ports.1 ≠ port ∧ c.2.ports.2 ≠ port) → up →
      let passes : Prop := flit.wrongBytes ≤ 3 ∧ flit.crc = crc32c (flit.header ++ flit.payload)
      (∀ w, passes → flit.write = some w → there s (fabricSpace w.space) w.addr w.bytes.length → Done (.sarpolFlit port link flit) s fun t =>
        bytesAt t (fabricSpace w.space) w.addr w.bytes.length = w.bytes ∧ tget 0 t.fabric.replays link = 0 ∧
        (∀ m, (t.tile m).regs = (s.tile m).regs)) ∧
      (¬ passes → Done (.sarpolFlit port link flit) s fun t =>
        tget 0 t.fabric.replays link = tget 0 s.fabric.replays link + 1 ∧ t.mem = s.mem ∧
        (tget false t.fabric.down link = true ↔ 8 ≤ tget 0 s.fabric.replays link))) ∧
    (¬ up → (∀ k e q lat ok, exec (.crossingTraining k e q lat ok) s = .next s) ∧
      ∀ port link flit, exec (.sarpolFlit port link flit) s = .next s)

/-! ### Queues and packets -/

/-- A doorbell kicks the queue that it is mapped to, or is looked up in the doorbell map; a mapping request is served by a free thread,
unless its queue control block is invalid for the doorbell that it came by. The thread starts from the word at RIDXA and from the greatest of the stored
KMAX, the kick of the request and, for KIND 1, the value of the kick word, and the entry of the queue reads as mapped. With all 32 threads in use the one
whose queue has been idle longest is taken: KMAX of that queue, with a kick that was reported and not yet taken, and WAITING go to its control block,
and a KIND 1 queue that does not wait leaves a watch of its kick word. A watch that is met while its queue is not mapped, by the value that its word holds
or by one that a write has left there, fires once and asks for its queue, with the kick that it saw; a thread of KIND 1 sees the greatest value that its
kick word has had, wherever the words read are in fitted frames (R2, R258 to R260, R266, R474). The words of the mapping are stated where no fence is
outstanding and the words written lie apart from those read. Corners of the mapping that no rule settles, that the watchdog of a thread begins with its first work, that KICKA of a KIND 0 queue must be 0, that the
request of a watch sets LKERR as one of a doorbell does, that a queue control block is read afresh, that WAITING is written at an eviction alone, which
queue counts as empty, and that a frame which is not there stops the access, are the model's own (log entries 18, 28, 37, 50, 51, 60, 63 and 64). -/
def Obligations.QueueMapping : Prop :=
  ∀ (s : State), Safety.wf s = true → controlRuns s = true →
    let kicked (m k : Nat) : Thread :=
      let y := threadAt s m
      let works := y.act == .packet || (y.act == .taking && decide (y.ridx < y.kick))
      { y with kick := max y.kick k, servedAt := if works then y.servedAt else s.platform.halves }
    let told (y : Thread) (v : Nat) : Prop :=
      (∃ r ∈ reportsOf s (kickWatch s y), y.kick < r.value ∧ r.value = v) ∨ (v = 0 ∧ ∀ r ∈ reportsOf s (kickWatch s y), r.value ≤ y.kick)
    let ridxAt (qcb : Nat) : Nat := bits (qcbWord s qcb 3) 47 0
    let kickAt (qcb : Nat) : Nat := bits (qcbWord s qcb 4) 47 0
    let kind1 (qcb : Nat) : Prop := bits (qcbWord s qcb 0) 1 0 = 1
    let readable (qcb : Nat) : Prop := there s (qSpace s qcb) (ridxAt qcb) 8 ∧ (kind1 qcb → there s .reservoir (kickAt qcb) 8)
    let clearOf (a n qcb : Nat) : Prop := let apart (b m : Nat) : Prop := a + n ≤ b ∨ b + m ≤ a
      apart qcb 64 ∧ (qSpace s qcb = .reservoir → apart (ridxAt qcb) 8) ∧ (kind1 qcb → apart (kickAt qcb) 8)
    let takes (t : State) (k p q qcb : Nat) : Prop :=
      let y := threadAt t k
      y.pasid = p ∧ y.qnum = q ∧ y.qcb = qcb ∧ (y.act = .taking ∨ y.act = .waiting) ∧ (∀ m, m ≠ k → threadAt t m = threadAt s m) ∧
      (y.act = .taking → ∀ w ∈ t.lk.watches, ¬ (w.pasid = p ∧ w.qnum = q))
    let starts (t : State) (k qcb kick : Nat) : Prop :=
      (threadAt t k).ridx = (wordAt s (qSpace s qcb) (ridxAt qcb)).toNat ∧ ∃ x, (kind1 qcb → x = (wordAt s .reservoir (kickAt qcb)).toNat) ∧
        (¬ kind1 qcb → x = 0) ∧ (threadAt t k).kick = max (max kick (qcbWord s qcb 5)) x
    (∀ n v k, n < 4096 → (mappedThreads s).find? (fun t => t.2.db == n) = some k → Done (.doorbellWrite n v) s fun t =>
      threadAt t k.1 = kicked k.1 v.toNat ∧ t.mem = s.mem ∧
      ∀ m, m ≠ k.1 → threadAt t m = threadAt s m) ∧
    (∀ n v, n < 4096 → (∀ t ∈ mappedThreads s, t.2.db ≠ n) →
      let e := (wordAt s .reservoir (s.lk.dbroot + 8 * n)).toNat
      there s .reservoir (s.lk.dbroot + 8 * n) 8 → Done (.doorbellWrite n v) s fun t =>
        (bits e 63 63 = 0 ∨ bits e 62 28 ≠ 0 → t = { s with lk := { s.lk with err := s.lk.err ||| 1 } }) ∧
        (bits e 63 63 = 1 → bits e 62 28 = 0 → t.lk.err = s.lk.err ∧ t.lk.threads = s.lk.threads ∧
          ∃ r ∈ t.lk.mapWaits, r.pasid = bits e 27 8 ∧ r.qnum = bits e 7 0 ∧ r.db = some n ∧ v.toNat ≤ r.kick)) ∧
    (∀ p q r, s.lk.mapWaits.find? (fun r => r.pasid == p && r.qnum == q) = some r →
      (∀ k, threadFor s p q = some k →
        ((∀ d, r.db = some d → (threadAt s k).db = d) → Done (.queueMap p q) s fun t =>
          threadAt t k = kicked k r.kick ∧ t.lk.err = s.lk.err ∧ r ∉ t.lk.mapWaits) ∧
        (∀ d, r.db = some d → (threadAt s k).db ≠ d → Done (.queueMap p q) s fun t =>
          t.lk.err = s.lk.err ||| 2 ∧ t.lk.threads = s.lk.threads ∧ r ∉ t.lk.mapWaits)) ∧
      (threadFor s p q = none → walkQueue s p q = .discarded → Done (.queueMap p q) s fun t =>
        t.lk.err = s.lk.err ||| 1 ∧ t.lk.threads = s.lk.threads ∧ r ∉ t.lk.mapWaits) ∧
      (threadFor s p q = none → walkQueue s p q = .absent → Done (.queueMap p q) s fun t =>
        t.lk.msix = s.lk.msix ++ [0] ∧ t.lk.serviceWaits = s.lk.serviceWaits ++ [r] ∧ t.lk.threads = s.lk.threads) ∧
      (∀ entry qcb, threadFor s p q = none → walkQueue s p q = .found entry qcb → qcbBad s qcb r.db = true →
        Done (.queueMap p q) s fun t => t.lk.err = s.lk.err ||| 2 ∧ t.lk.threads = s.lk.threads ∧ r ∉ t.lk.mapWaits) ∧
      (∀ entry qcb k, threadFor s p q = none → walkQueue s p q = .found entry qcb → qcbBad s qcb r.db = false → k < 32 →
        (threadAt s k).act = .unmapped → (∀ m, m < k → (threadAt s m).act ≠ .unmapped) → readable qcb → Done (.queueMap p q) s fun t =>
          takes t k p q qcb ∧ r.kick ≤ (threadAt t k).kick ∧ (s.mem.unfenced = [] → clearOf entry 8 qcb → starts t k qcb r.kick ∧
            ((∀ w ∈ s.lk.watches, w.pasid = p → w.qnum = q → w.fired = none) →
              wordAt t .reservoir entry = wordAt s .reservoir entry ||| BitVec.ofNat 64 (2 ^ 61) ∧
              ∀ a, (a < entry ∨ entry + 8 ≤ a) → tget 0 t.mem.res a = tget 0 s.mem.res a))) ∧
      (∀ entry qcb k, threadFor s p q = none → walkQueue s p q = .found entry qcb → qcbBad s qcb r.db = false →
        (∀ m, m < 32 → (threadAt s m).act ≠ .unmapped) →
        let y := threadAt s k
        let idle (z : Thread) : Prop := (z.act = .waiting ∨ (z.act = .taking ∧ ∃ v, told z v ∧ max z.kick v ≤ z.ridx)) ∧
          (bits (qcbWord s z.qcb 0) 1 0 = 0 ∨ s.lk.watches.length < 4096)
        idle y → (y.act = .taking → ∀ v, told y v → max y.kick v ≤ y.ridx) → (∀ m, m ≠ k → idle (threadAt s m) → y.idleSince < (threadAt s m).idleSince) → readable qcb →
        there s .reservoir y.qcb 64 → (kind1 y.qcb → there s .reservoir (kickAt y.qcb) 8) → Done (.queueMap p q) s fun t =>
          takes t k p q qcb ∧ r.kick ≤ (threadAt t k).kick ∧ (s.mem.unfenced = [] → clearOf entry 8 qcb → clearOf (y.qcb + 40) 16 qcb →
            (y.qcb + 56 ≤ entry ∨ entry + 8 ≤ y.qcb + 40) → (∀ f ∈ s.mem.frames, f.2.1 = 0 ∨ (s.job (f.2.1 - 1)).cuts ≤ f.2.2) →
            starts t k qcb r.kick ∧ ∃ v, told y v ∧
              (kind1 y.qcb → y.act = .taking → ∃ w ∈ t.lk.watches, w.pasid = y.pasid ∧ w.qnum = y.qnum ∧ w.isKick = true ∧
                w.space = .reservoir ∧ w.addr = kickAt y.qcb ∧ w.value = max y.kick v ∧ w.fired = none) ∧
              ((∀ w ∈ s.lk.watches, w.pasid = p → w.qnum = q → w.fired = none) →
                wordAt t .reservoir (y.qcb + 40) = BitVec.ofNat 64 (max y.kick v) ∧
                wordAt t .reservoir (y.qcb + 48) = (if y.act = .waiting then 1 else 0) ∧
                wordAt t .reservoir entry = wordAt s .reservoir entry ||| BitVec.ofNat 64 (2 ^ 61) ∧
                ∀ a, (a < entry ∨ entry + 8 ≤ a) → (a < y.qcb + 40 ∨ y.qcb + 56 ≤ a) → tget 0 t.mem.res a = tget 0 s.mem.res a)))) ∧
    (∀ n w, s.lk.watches[n]? = some w → w.fired = none → threadFor s w.pasid w.qnum = none → s.mem.unfenced = [] → there s w.space w.addr 8 →
      (met w (wordAt s w.space w.addr).toNat ∨ ∃ r ∈ reportsOf s w, met w r.value) →
      Done (.watchFire n) s fun t =>
        t.lk.watches = s.lk.watches.set n { w with fired := some s.clock } ∧ t.mem = s.mem ∧
        ∃ r ∈ t.lk.mapWaits, r.pasid = w.pasid ∧ r.qnum = w.qnum ∧ r.db = none ∧ (w.isKick = true →
          (wordAt s w.space w.addr).toNat ≤ r.kick ∧ ((∃ x ∈ reportsOf s w, met w x.value) → ∃ x ∈ reportsOf s w, met w x.value ∧ x.value ≤ r.kick))) ∧
    (∀ n,
      let y := threadAt s n
      y.act ≠ .unmapped → bits (qcbWord s y.qcb 0) 1 0 = 1 → s.mem.unfenced = [] → there s .reservoir y.qcb 64 →
      there s .reservoir (bits (qcbWord s y.qcb 4) 47 0) 8 → Done (.kickObserve n) s fun t =>
        let w := kickWatch s y
        (∃ v, told y v ∧ threadAt t n = kicked n (max (wordAt s .reservoir (bits (qcbWord s y.qcb 4) 47 0)).toNat v)) ∧
        reportsOf t w = [] ∧ t.mem = s.mem) ∧
    (∀ n, let y := threadAt s n
      (y.act ≠ .unmapped → ¬ there s .reservoir y.qcb 64 → Stops (.kickObserve n) s) ∧
      (y.act ≠ .unmapped → bits (qcbWord s y.qcb 0) 1 0 = 1 → ¬ there s .reservoir (bits (qcbWord s y.qcb 4) 47 0) 8 →
        Stops (.kickObserve n) s))

/-- The host's accesses to queue SRAM: a write, a fetch-add and a compare-and-swap of an aligned 8-byte unit, which answer with what the
unit held; every other byte of queue SRAM stands. A write that leaves a watched word so that it meets its watch is reported to the Lockkeeper, whatever later
writes put there (R255, R259, R263). That an atomic outside queue SRAM or off a boundary, and any access
while the device does not answer, changes nothing is the model's choice (log entry 27). -/
def Obligations.QueueSramAccesses : Prop :=
  ∀ (s : State) (a : Nat) (v w : BitVec 64), Safety.wf s = true →
    let old := wordAt s .queueSram a
    let others (t : State) (n : Nat) : Prop :=
      ∀ q, q < a ∨ a + n ≤ q → tget 0 t.mem.qsram q = tget 0 s.mem.qsram q
    let unit : Prop := a % 8 = 0 ∧ a + 8 ≤ 0x1000000
    let up : Prop := s.platform.phase = 4 ∨ s.platform.phase = 5
    let noted (t : State) (n : Nat) : Prop := t.lk = { s.lk with reports := t.lk.reports } ∧
      ∀ x ∈ s.lk.watches, x.fired = none → x.space = .queueSram → x.addr < a + n → a < x.addr + 8 →
        (∀ z ∈ s.watched, z.pasid = x.pasid → z.qnum = x.qnum → z.isKick = x.isKick → z = x) →
        met x (wordAt t .queueSram x.addr).toNat → ∃ r ∈ reportsOf t x, met x r.value
    (∀ bs : List Byte, up → a + bs.length ≤ 0x1000000 → Done (.queueSramWrite a bs) s fun t =>
      bytesAt t .queueSram a bs.length = bs ∧ others t bs.length ∧ t.mem.res = s.mem.res ∧ t.core = s.core ∧ noted t bs.length) ∧
    (up → unit → Done (.pcieFetchadd a v) s fun t =>
      wordAt t .queueSram a = old + v ∧ t.fabric.reply = old ∧ others t 8 ∧ t.mem.res = s.mem.res ∧ t.core = s.core ∧ noted t 8) ∧
    (up → unit → Done (.pcieCas a v w) s fun t =>
      wordAt t .queueSram a = (if old = v then w else old) ∧ t.fabric.reply = old ∧ others t 8 ∧ t.mem.res = s.mem.res ∧
      t.core = s.core ∧ (old = v → noted t 8) ∧ (old ≠ v → t.lk = s.lk)) ∧
    (¬ up ∨ ¬ unit → exec (.pcieFetchadd a v) s = .next s ∧ exec (.pcieCas a v w) s = .next s) ∧
    (¬ up → ∀ bs : List Byte, exec (.queueSramWrite a bs) s = .next s)

/-- Packets, in a device with no write that is not yet visible; slots, arguments, watched words and records are in frames that are there, and a
packet whose arguments or word are not stops (R2). A published slot within K is copied and RIDX moves on; a NOP packet does
nothing; an accepted launch packet is entered at its node with its arguments, by the thread that takes it or once the node is free, and each of its edges
stands as its source does: one in use has satisfied an early edge once it is early done, one that is complete every edge that its last verdict or the
policy pass allows, and blocks another; one that meets a pending cancel does not run, and its record reads cancelled and tainted; a
rejected one leaves its node and its record names the error, and one for a node in use waits while the graph is full; a wait packet takes
a watch entry and blocks its thread until its word compares true, or a write has left it so, and then its record holds the clock. A packet that breaks
several rules is rejected with the lowest code among them (R21, R47, R259, R267 to R270, R272, R273, R275, R466). When arguments are copied, what a packet
for a node in use meets, what an access to a frame that is not there does and an image in one counts for, that no value of NPKG makes a launch invalid, that a
packet rejected for its record address writes its record there, and that the other words of a NOP packet are not looked at, are the model's own (log
entries 18, 28, 58, 59 and 65). -/
def Obligations.PacketWork : Prop :=
  ∀ (s : State) (n : Nat), Safety.wf s = true → controlRuns s = true → s.mem.unfenced = [] →
    let y := threadAt s n
    let word (m i : Nat) : Nat := ((threadAt s m).packet.getD i 0).toNat
    let sp := qSpace s y.qcb
    let slot := bits (qcbWord s y.qcb 1) 47 0 + 128 * (y.ridx % qSlots s y.qcb)
    let kind := word n 0 % 16
    let k := bits (word n 0) 43 32
    let free : Prop := s.lk.cancels.find? (fun c => c.1 == qPasid s y.qcb && c.2.1 == k) = none
    let goesOn (t : State) : Prop :=
      threadAt t n = { y with act := .taking, packet := [], idleSince := s.clock, servedAt := s.platform.halves }
    let record (t : State) (i x : Nat) : Prop := ∀ sp, recordSpace (qPasid s y.qcb) (bits (word n 5) 49 48) = some sp →
      there s sp (bits (word n 5) 47 0) 32 → wordAt t sp (bits (word n 5) 47 0 + 8 * i) = BitVec.ofNat 64 x
    let entered (i : Instr) : Prop := Done i s fun t =>
      let z := t.node k
      z.packet = y.packet ∧
      z.args = (List.range (bits (word n 4) 53 48)).map (fun j => wordAt s sp (bits (word n 4) 47 0 + 8 * j)) ∧
      ((z.life = .ready ∧ z.edges.all Edge.satisfied = true ∧ k ∈ t.lk.order) ∨ (z.life = .waiting ∧ z.edges.all Edge.satisfied = false)) ∧
      (∀ j m, j < bits (word n 0) 47 44 → m = word n (7 + j) % 4096 → (s.node m).graph ≠ 0 → (t.node m).graph = z.graph) ∧
      z.edges.length = bits (word n 0) 47 44 ∧ (∀ (j : Nat) (e : Edge), z.edges[j]? = some e →
        let w := word n (7 + j)
        let from_ := s.node (w % 4096)
        let clean : Prop := tget none from_.last (qPasid s y.qcb) ≠ some .tainted
        e.src = w % 4096 ∧ e.early = w.testBit 12 ∧ e.pass = w.testBit 13 ∧
          (from_.life ≠ .free → e.satisfied = (e.early && from_.earlyDone) ∧ e.blocked = false ∧ e.final = false) ∧
          (from_.life = .free → (e.satisfied = true ↔ e.pass = true ∨ clean) ∧ e.blocked = !e.satisfied ∧ e.final = true)) ∧
      goesOn t ∧ t.mem = s.mem
    let cancelled (i : Instr) : Prop := ∀ c, s.lk.cancels.find? (fun c => c.1 == qPasid s y.qcb && c.2.1 == k) = some c → Done i s fun t =>
      t.lk.cancels = s.lk.cancels.filter (fun d => d != c) ∧ (t.node k).life = .free ∧ t.lk.order = s.lk.order ∧ t.gangs = s.gangs ∧
      tget none (t.node k).last (qPasid s y.qcb) = some .tainted ∧ record t 0 (2 + 2 * 2 ^ 5 + 2 ^ 7) ∧
      t.lk.msix = s.lk.msix ++ (if (word n 0).testBit 7 then [bits (qcbWord t y.qcb 0) 45 40] else []) ∧ goesOn t
    let at_ : MemSpace := if bits (word n 0) 7 6 = 1 then .reservoir else .queueSram
    let x := (wordAt s at_ (bits (word n 1) 47 0)).toNat
    let true_ (v : Nat) : Prop := if bits (word n 0) 5 4 = 1 then word n 2 ≤ v else v = word n 2
    let told : Prop := ∃ r ∈ s.lk.reports, r.pasid = y.pasid ∧ r.qnum = y.qnum ∧ r.isKick = false ∧ true_ r.value
    let args : Prop := bits (word n 4) 53 48 = 0 ∨ there s sp (bits (word n 4) 47 0) (8 * bits (word n 4) 53 48)
    FirstOf (launchChecks s y) (launchError s y) ∧ FirstOf (waitChecks s y) (waitError s y) ∧
    (y.act = .taking → y.ridx < y.kick → (wordAt s sp (slot + 120)).toNat = y.ridx → there s .reservoir y.qcb 64 → there s sp slot 128 →
      there s sp (bits (qcbWord s y.qcb 3) 47 0) 8 → Done (.slotTake n) s fun t =>
      threadAt t n = { y with act := .packet, packet := (List.range 15).map (fun i => wordAt s sp (slot + 8 * i)), ridx := y.ridx + 1,
                              servedAt := s.platform.halves } ∧
      wordAt t sp (bits (qcbWord s y.qcb 3) 47 0) = BitVec.ofNat 64 (y.ridx + 1) ∧ ∀ m, m ≠ n → threadAt t m = threadAt s m) ∧
    (y.act = .packet → kind = 0 → Done (.nopPacket n) s fun t => goesOn t ∧ t.mem = s.mem ∧ t.lk.nodes = s.lk.nodes) ∧
    (y.act = .packet → kind = 1 → launchError s y = 0 → free → (args → entered (.launchPacket n)) ∧ (¬ args → Stops (.launchPacket n) s)) ∧
    (y.act = .packet → kind = 1 → launchError s y = 0 → cancelled (.launchPacket n)) ∧
    (y.act = .packet → (kind = 1 ∨ 3 ≤ kind) → launchError s y ≠ 0 →
      (launchError s y = 7 → graphFull s = false ∨ (s.node k).owner ≠ some (qPasid s y.qcb)) → Done (.launchPacket n) s fun t =>
      goesOn t ∧ t.lk.nodes = s.lk.nodes ∧ record t 0 (launchError s y * 2 ^ 16 + 3)) ∧
    (y.act = .packet → kind = 1 → launchError s y = 7 → graphFull s = true → (s.node k).owner = some (qPasid s y.qcb) →
      exec (.launchPacket n) s = .next s) ∧
    (∀ q, (List.range 32).find? (fun m => (threadAt s m).act == .packet && (word m 0 % 16 == 1) && (bits (word m 0) 43 32 == q)) = some n →
      (s.node q).life = .free → launchError s y = 0 → free →
        (args → entered (.graphEntryFree q)) ∧ (¬ args → Stops (.graphEntryFree q) s)) ∧
    (∀ q, (List.range 32).find? (fun m => (threadAt s m).act == .packet && (word m 0 % 16 == 1) && (bits (word m 0) 43 32 == q)) = some n →
      (s.node q).life = .free → launchError s y = 0 → cancelled (.graphEntryFree q)) ∧
    (y.act = .packet → kind = 2 → waitError s y = 0 → s.lk.watches.length < 4096 → Done (.waitPacket n) s fun t =>
      threadAt t n = { y with act := .waiting, idleSince := s.clock } ∧ t.mem = s.mem ∧ ∃ w, t.lk.watches = s.lk.watches ++ [w] ∧
        w.pasid = y.pasid ∧ w.qnum = y.qnum ∧ w.addr = bits (word n 1) 47 0 ∧ w.value = word n 2 ∧ w.fired = none) ∧
    (y.act = .packet → kind = 2 → waitError s y = 0 → 4096 ≤ s.lk.watches.length → exec (.waitPacket n) s = .next s) ∧
    (y.act = .packet → kind = 2 → waitError s y ≠ 0 → Done (.waitPacket n) s fun t =>
      goesOn t ∧ record t 0 (waitError s y * 2 ^ 16 + 3)) ∧
    (y.act = .waiting → ¬ there s at_ (bits (word n 1) 47 0) 8 → Stops (.waitPacketEnd n) s) ∧
    (y.act = .waiting → there s at_ (bits (word n 1) 47 0) 8 → ¬ true_ x → ¬ told → exec (.waitPacketEnd n) s = .next s) ∧
    (y.act = .waiting → there s at_ (bits (word n 1) 47 0) 8 → (true_ x ∨ told) → Done (.waitPacketEnd n) s fun t =>
      goesOn t ∧ record t 0 2 ∧ record t 3 s.clock ∧ ∀ w ∈ t.lk.watches, ¬ (w.pasid = y.pasid ∧ w.qnum = y.qnum))

/-! ### Launches -/

/-- Dispatch, loading, start and completion. The first launch in priority order that fits is placed under a free gang, and those before it
ask for the pre-emptions that R50 allows; its variant is loaded bundle by bundle; every task starts on one clock cycle with its arguments
in s16 on, the staging image of its set-up, DEBT 0 and the banks Idle; an ended task precharges each bank once it is ready and is then
complete, having triggered; with the last of a launch to trigger its early edges are satisfied; the last task of a launch ends its gang, and a launch to
be reissued is ready again unless it has satisfied an early edge; the record is written, the edges that leave the node become final, satisfied or, by a
tainted verdict under hold, blocked, a dependant over an early edge takes its verdict, and the node is free. Launches are taken in
decreasing effective priority, within one level as they became ready; the oldest reserved one keeps its first rectangle; the victims are the gangs of
the first rectangle that holds only gangs of lower base priority which permit it and hold no trap, when no rectangle is free (R21, R22, R24 to R26, R34,
R35, R37, R47 to R50, R73, R144, R152, R269, R270, R277, R286, R288, R342). An image that is not there stops the loader (R2, log entry 28). That the
loader loads at every placement, and that staging keeps its bytes where a set-up has no image, are the model's choices (log entries 20 and 22). -/
def Obligations.LaunchLife : Prop :=
  ∀ (s : State) (n g : Nat), Safety.wf s = true →
    let x := s.node n
    let y := s.gang g
    let z := s.select n
    let w := pword (s.node y.node).packet (pickVariant (s.node y.node).packet (gangGrade s y))
    let j := s.job (x.owner.getD 0)
    let vacant (o : Nat × Nat) : Prop := ∀ m ∈ launchRect x o, (∀ e ∈ s.gangs, e.2.placed = true → m ∉ e.2.tiles) ∧ keptFrom s n m = false
    let sooner (q o : Nat × Nat) : Prop := q.2 < o.2 ∨ (q.2 = o.2 ∧ q.1 < o.1)
    (∀ p c, 0 < bits (packetWord p 0) 28 27 → Picked p c (pickVariant p c)) ∧
    ((∀ m ∈ y.tiles, s.grade (quadrantOf m) ≤ gangGrade s y) ∧
      (gangGrade s y = 0 ∨ ∃ m ∈ y.tiles, s.grade (quadrantOf m) = gangGrade s y)) ∧
    (mayDispatch s n = true ↔ x.life = .ready ∧ (x.saved = true ∨ j.stopped = false) ∧ j.restoring = none ∧
      ∀ d t q, j.cut ≠ some (.running d t q)) ∧
    (x.saved = false →
      (∀ o, findPlace s n = some o → originFits x.packet o ∧ vacant o ∧ ∀ q, originFits x.packet q → sooner q o → ¬ vacant q) ∧
      (findPlace s n = none → s.mem.nextFrame + 32 * (launchW x * launchH x + 1) ≤ s.mem.capacity →
        ∀ q, originFits x.packet q → ¬ vacant q)) ∧
    ((∀ m, m ∈ dispatchOrder s ↔ m ∈ s.lk.order ∧ (s.node m).prio ≤ 3) ∧ (dispatchOrder s).Pairwise (fun a b => (s.node b).prio ≤ (s.node a).prio) ∧
      ∀ k, k ≤ 3 → (dispatchOrder s).filter (fun m => (s.node m).prio == k) = s.lk.order.filter fun m => (s.node m).prio == k) ∧
    (∀ m, ((∀ q ∈ s.lk.order, (s.node q).reserved = false) → keptFrom s n m = false) ∧
      ∀ r o, r ∈ s.lk.order → (s.node r).reserved = true → (s.node r).saved = false →
        (∀ q ∈ s.lk.order, (s.node q).reserved = true → q ≠ r → (s.node r).reservedAt < (s.node q).reservedAt) →
        originFits (s.node r).packet o → (∀ q, originFits (s.node r).packet q → ¬ sooner q o) →
        (keptFrom s n m = true ↔ r ≠ n ∧ m ∈ launchRect (s.node r) o)) ∧
    (x.saved = false →
      let prio (p : List Scalar) : Nat := bits (packetWord p 0) 5 4
      let on (o : Nat × Nat) (e : Nat × Gang) : Prop := e.2.placed = true ∧ ∃ m ∈ e.2.tiles, m ∈ launchRect x o
      let may (e : Nat × Gang) : Prop :=
        prio (s.node e.2.node).packet < prio x.packet ∧ (s.job e.2.pasid).preemptible = true ∧ .trap ∉ e.2.causes
      let open_ : Prop := ∃ o, originFits x.packet o ∧ ∀ e ∈ s.gangs, ¬ on o e
      let could (o : Nat × Nat) : Prop := originFits x.packet o ∧ ∀ e ∈ s.gangs, on o e → may e
      (open_ → victims s n = []) ∧ ((∀ o, ¬ could o) → victims s n = []) ∧
      ∀ o, ¬ open_ → could o → (∀ q, could q → ¬ sooner q o) → ∀ h, h ∈ victims s n ↔ ∃ e ∈ s.gangs, e.1 = h ∧ on o e) ∧
    (∀ o ms ns, controlRuns s = true → dispatchOrder s = ms ++ n :: ns →
      (∀ m ∈ ms, mayDispatch s m = false ∨ findPlace s m = none) → mayDispatch s n = true → findPlace s n = some o → x.saved = false →
      Done .dispatchStep s fun t =>
        let h := (t.node n).gid
        (t.node n).life = .running ∧ (t.node n).ox = o.1 ∧ (t.node n).oy = o.2 ∧ n ∉ t.lk.order ∧
        (t.gang h).life = .placed ∧ (t.gang h).node = n ∧ (t.gang h).tiles = launchRect x o ∧
        (∀ i m, (launchRect x o)[i]? = some m → (t.tile m).task.gid = h ∧ (t.tile m).task.tix = (t.gang h).firstTix + i) ∧
        (∀ m ∈ ms, mayDispatch s m = true → ∀ v ∈ victims s m, .preempt ∈ (t.gang v).causes) ∧
        (∀ e ∈ s.gangs, e.1 ≠ h) ∧ ∀ m, (t.tile m).regs = (s.tile m).regs) ∧
    (controlRuns s = true → agingDue s n = true → Done (.priorityAging n) s fun t =>
      (t.node n).prio = min 3 (bits (x.packet.getD 0 0).toNat 5 4 + (x.waited + (s.clock - x.readyAt)) / 65536) ∧
      (t.node n).life = .ready ∧ t.mem = s.mem) ∧
    (controlRuns s = true → loadDue s g = true → ¬ imageThere s w → Stops (.loaderLoad g) s) ∧
    (controlRuns s = true → onGrid y → loadDue s g = true → imageThere s w → Done (.loaderLoad g) s fun t =>
      (t.gang g).life = .loaded ∧ ∀ m ∈ y.tiles, (t.tile m).regs = (s.tile m).regs ∧ ∀ k, k < bits w 61 50 →
        tget 0 (t.tile m).isram.bundles k = BitVec.ofNat 256 (ofBytes (bytesAt s .reservoir (bits w 47 0 + 32 * k) 32))) ∧
    (∀ setup, controlRuns s = true → onGrid y → startDue s g = true → (s.node y.node).endTasks = [] →
      Done (.gangStart { gid := g, image := setup }) s fun t =>
      (t.gang g).life = .started ∧ (t.gang g).startAt = s.clock ∧ ∀ m ∈ y.tiles,
        let c := t.tile m
        c.ctl.status = .running ∧ c.ctl.pc = 0 ∧ c.ctl.cyc = 0 ∧ c.ctl.lc = 0 ∧ c.ctl.fflg = 0 ∧ c.ctl.inseg = false ∧ c.results = [] ∧
        (∀ k, tget 0 c.regs.s k = if 16 ≤ k then (s.node y.node).args.getD (k - 16) 0 else 0) ∧ c.regs.v = [] ∧ c.regs.p = [] ∧
        c.regs.acc = [] ∧ (setup = [] → c.staging.cells = (s.tile m).staging.cells) ∧
        (∀ before a bs, setup = before ++ [(a, bs)] → bs.length ≤ 2 ^ 20 → c.staging.bytes a bs.length = bs) ∧
        ∀ b, b < 64 → (tget {} c.vault.banks b).mode = .idle ∧ (tget {} c.vault.banks b).debt = 0 ∧
          (tget {} c.vault.banks b).actAt = 0) ∧
    (let k := z.core.task.node
     let gid := (s.node k).gid
     let verdict := (s.node k).verdict.worst z.core.ctl.verdict
     let complete : Prop := z.core.barge.queue = [] ∧ z.core.ctl.trap = none ∧ ∀ b, b < 64 → (bankAt z b).mode = .active → (bankAt z b).preAt ≤ s.clock
     taskDue z = true → AtTile (.taskComplete n) n s fun z u =>
      (∀ b, b < 64 → bankAt u b = if (bankAt z b).mode = .active ∧ (bankAt z b).preAt ≤ s.clock
        then { bankAt z b with mode := .idle, actAt := s.clock + 30 } else bankAt z b) ∧
      (complete → 1 < (s.node k).tasksLeft → (u.node k).tasksLeft = (s.node k).tasksLeft - 1 ∧ u.core.task.complete = true ∧
        u.core.task.triggered = true ∧ (u.node k).verdict = verdict ∧
        (u.node k).untriggered = (s.node k).untriggered - (if z.core.task.triggered then 0 else 1)) ∧
      (complete → (s.node k).tasksLeft = 1 → ((s.gang gid).reissue = false ∨ (s.node k).gaveEarly = true) → (u.gang gid).life = .none ∧ (u.node k).life = .counted ∧
        (u.node k).cclk = s.clock ∧
        (u.node k).verdict = if (s.gang gid).tainted || (s.node k).canceled then .tainted else verdict) ∧
      (complete → (s.node k).tasksLeft = 1 → (s.gang gid).reissue = true → (s.node k).gaveEarly = false → (u.gang gid).life = .none ∧ (u.node k).life = .ready ∧
        (u.node k).reissues = (s.node k).reissues + 1 ∧ (u.node k).verdict = (s.node k).inherited.worst .corrected) ∧
      (complete → z.core.task.triggered = false → (s.node k).untriggered = 1 → (s.node k).life = .running → (s.gang z.core.task.gid).reissue = false →
        EdgesMove s u k fun e => if e.early then { e with satisfied := true } else e)) ∧
    (controlRuns s = true → recordDue s n = true → Done (.launchCompletionRecord n) s fun t =>
      EdgesMove s t n (fun e => if e.satisfied then { e with final := true }
        else if e.pass || x.verdict != .tainted then { e with final := true, satisfied := true } else { e with final := true, blocked := true }) ∧
      (∀ m, m ≠ n → (s.node m).life ≠ .free → (t.node m).verdict =
        if (s.node m).edges.any (fun e => e.src == n && !e.final && e.early) then (s.node m).verdict.worst x.verdict else (s.node m).verdict) ∧
      (t.node n).life = .free ∧ (t.node n).owner = x.owner ∧ (∀ p, x.owner = some p → tget none (t.node n).last p = some x.verdict) ∧
      t.lk.msix = s.lk.msix ++ (if (x.packet.getD 0 0).getLsbD 7 then [x.vec] else []) ∧
      ∀ sp, recordSpace (x.owner.getD 0) (bits (x.packet.getD 5 0).toNat 49 48) = some sp →
        let a := bits (x.packet.getD 5 0).toNat 47 0
        there s sp a 32 → wordAt t sp a = BitVec.ofNat 64 (2 + verdictCode x.verdict * 2 ^ 5 + x.canceled.toNat * 2 ^ 7) ∧
        wordAt t sp (a + 8) = BitVec.ofNat 64 (x.gid * 2 ^ 52 + x.ox * 2 ^ 48 + x.oy * 2 ^ 44) ∧
        wordAt t sp (a + 16) = BitVec.ofNat 64 x.tclk ∧ wordAt t sp (a + 24) = BitVec.ofNat 64 x.cclk)

/-! ### System software -/

/-- LKCMD CANCEL, level by level. A phase cancel stops dispatch and lets every gang end at its next re-planning point. A job cancel unmaps the queues,
removes every pending cancel of the job, also when the counter of the job is 0 and it has no other effect, and meets a launch packet that a thread has taken
or that stands in a ring, and every launch at a node, as a graph cancel meets those of the graph: one that has issued no bundle leaves with its record,
tainted and cancelled, and one that runs is held to end. A launch cancel does this to one launch; where none is in use it is pending, while there is room;
its record has GID, origin and TCLK 0 before placement and those of the placement after it. A task cancel ends one task, and a task of no launch in use is not
found (R21, R44 to R46, R279, R280). The statuses of corners that R279 and R280 leave open, that a launch is queued from its publication on, that the slot of a
cancelled packet reads as a NOP packet, that a reissued launch counts as not dispatched and that a second pending cancel is kept beside the first, are the
model's own (log entries 17, 40, 41, 52 and 62). -/
def Obligations.CancelCommand : Prop :=
  ∀ (s : State) (w : BitVec 64), Safety.wf s = true →
    let p := bits w.toNat 51 32
    let k := bits w.toNat 11 0
    let tix := bits w.toNat 27 12
    let j := s.job p
    let x := s.node k
    let g := s.gang x.gid
    let owned : Prop := x.owner = some p
    let unstarted (y : Node) : Prop := y.life = .waiting ∨ (y.life = .ready ∧ y.saved = false)
    let left (t : State) (m : Nat) : Prop := (t.node m).life = .free ∧ tget none (t.node m).last p = some .tainted ∧ m ∉ t.lk.order
    let meets (t : State) (m : Nat) : Prop :=
      let y := s.node m
      (unstarted y → left t m) ∧
      (y.life = .running → y.saved = false → (s.gang y.gid).life = .started → (s.gang y.gid).held = false →
        (∀ q ∈ s.lk.nodes, q.1 ≠ m → (q.2.life = .running ∨ q.2.saved = true) → q.2.gid ≠ y.gid) →
        (t.node m).canceled = true ∧ .cancel ∈ (t.gang y.gid).causes)
    let record (t : State) (origin : Nat) : Prop := ∀ sp, recordSpace p (bits (packetWord x.packet 5) 49 48) = some sp →
      let a := bits (packetWord x.packet 5) 47 0
      there s sp a 32 → wordAt t sp a = BitVec.ofNat 64 (2 + 2 * 2 ^ 5 + 2 ^ 7) ∧ wordAt t sp (a + 8) = BitVec.ofNat 64 origin ∧
        wordAt t sp (a + 16) = 0 ∧ wordAt t sp (a + 24) = BitVec.ofNat 64 s.clock
    (Accepted 1 [3] 0 w s → j.phaseLeft ≠ 0 → Done (.lkcmdCancel w) s fun t => t.lk.res = lkres 0 0 ∧ (t.job p).stopped = true ∧
      ∀ e ∈ s.gangs, e.2.pasid = p → (t.gang e.1).stopAt = true) ∧
    (Accepted 1 [3] 0 w s → j.phaseLeft = 0 → exec (.lkcmdCancel w) s = .next (answered s 0 0)) ∧
    (Accepted 1 [4] 0 w s → (jobCounter s p).1 = 0 →
      let q := (jobCounter s p).2
      exec (.lkcmdCancel w) s = .next (answered { q with lk := { q.lk with cancels := q.lk.cancels.filter fun c => c.1 != p } } 0 0)) ∧
    ((∀ e ∈ s.lk.threads, e.2.act = .unmapped) → (∀ q e a, q < 256 → walkQueue s p q ≠ .found e a) →
      (∀ e ∈ s.lk.nodes, e.2.owner = some p → e.2.life = .free ∨ e.2.life = .counted) → jobCounter s p = (0, s)) ∧
    (Accepted 1 [4] 0 w s → (jobCounter s p).1 ≠ 0 → Done (.lkcmdCancel w) s fun t => t.lk.res = lkres 0 0 ∧
      (∀ e ∈ t.lk.threads, e.2.act ≠ .unmapped → e.2.pasid ≠ p) ∧ (∀ c ∈ t.lk.cancels, c.1 ≠ p) ∧
      (∀ m, (s.node m).owner = some p → meets t m) ∧
      (∀ qcb i sp, let slot := ringSlot s qcb i
        let packet := (List.range 15).map fun k => wordAt s (qSpace s qcb) (slot + 8 * k)
        let f (i hi lo : Nat) : Nat := bits (packetWord packet i) hi lo
        s.mem.unfenced = [] → (∀ e ∈ s.lk.nodes, e.2.owner = some p → e.2.life = .free) → (∀ e ∈ s.lk.threads, e.2.act ≠ .packet) →
        (jobQueued s p).1 = [(qcb, i)] → launchError s { qcb := qcb, packet := packet } = 0 → recordSpace (qPasid s qcb) (f 5 49 48) = some sp →
        there s sp (f 5 47 0) 32 → (sp = qSpace s qcb → f 5 47 0 + 32 ≤ slot ∨ slot + 8 ≤ f 5 47 0) →
          wordAt t sp (f 5 47 0) = BitVec.ofNat 64 (2 + 2 * 2 ^ 5 + 2 ^ 7) ∧ wordAt t (qSpace s qcb) slot = 0) ∧
      ∀ n sp, let y := threadAt s n
        let f (i hi lo : Nat) : Nat := bits (packetWord y.packet i) hi lo
        (jobQueued s p).1 = [] → (∀ e ∈ s.lk.nodes, e.2.owner = some p → e.2.life = .free) → (∀ e ∈ s.lk.threads, e.2.act = .packet → e.2.pasid = p → e.1 = n) →
        y.act = .packet → y.pasid = p → f 0 3 0 = 1 → launchError s y = 0 → recordSpace (qPasid s y.qcb) (f 5 49 48) = some sp →
        there s sp (f 5 47 0) 32 → wordAt t sp (f 5 47 0) = BitVec.ofNat 64 (2 + 2 * 2 ^ 5 + 2 ^ 7)) ∧
    (Accepted 1 [0] 28 w s ∨ Accepted 1 [1, 2] 12 w s → ¬ owned → exec (.lkcmdCancel w) s = .next (answered s 3 0)) ∧
    (Accepted 1 [2] 12 w s → owned → x.life ≠ .free → Done (.lkcmdCancel w) s fun t => t.lk.res = lkres 0 0 ∧
      ∀ m, ((s.node m).owner = some p ∧ (s.node m).graph = x.graph → meets t m) ∧
        ((s.node m).owner ≠ some p ∨ (s.node m).graph ≠ x.graph →
          (t.node m).canceled = (s.node m).canceled ∧ (t.node m).packet = (s.node m).packet)) ∧
    (Accepted 1 [2] 12 w s → owned → x.life = .free → tget none x.last p = none → exec (.lkcmdCancel w) s = .next (answered s 3 0)) ∧
    (Accepted 1 [1] 12 w s → owned → x.life = .free → s.lk.cancels.length < 64 →
      exec (.lkcmdCancel w) s = .next (answered { s with lk := { s.lk with cancels := s.lk.cancels ++ [(p, k, s.clock)] } } 2 0)) ∧
    (Accepted 1 [1] 12 w s → owned → x.life = .free → 64 ≤ s.lk.cancels.length →
      exec (.lkcmdCancel w) s = .next (answered s 4 0)) ∧
    (Accepted 1 [1] 12 w s → owned → unstarted x → Done (.lkcmdCancel w) s fun t => t.lk.res = lkres 0 0 ∧ left t k ∧ record t 0) ∧
    (Accepted 1 [1] 12 w s → owned → x.life = .running → x.saved = false → (g.life = .placed ∨ g.life = .loaded) →
      Done (.lkcmdCancel w) s fun t => t.lk.res = lkres 0 0 ∧ left t k ∧ record t (x.gid * 2 ^ 52 + x.ox * 2 ^ 48 + x.oy * 2 ^ 44) ∧
        (t.gang x.gid).life = .none ∧ ∀ m ∈ g.tiles, (t.tile m).ctl.status = .idle) ∧
    (Accepted 1 [1] 12 w s → owned → x.life = .running → x.saved = false → g.life = .started → g.held = false →
      Done (.lkcmdCancel w) s fun t => t.lk.res = lkres 0 0 ∧ (t.node k).canceled = true ∧ .cancel ∈ (t.gang x.gid).causes ∧
        ∀ i, i < g.w * g.h → g.firstTix + i ∈ (t.gang x.gid).ending) ∧
    (Accepted 1 [0] 28 w s → owned → x.life = .waiting ∨ x.life = .ready → hasTask s k tix = true → Done (.lkcmdCancel w) s fun t =>
      t.lk.res = lkres 0 0 ∧ tix ∈ (t.node k).endTasks) ∧
    (∀ i m : Nat, Accepted 1 [0] 28 w s → owned → x.life = .running → hasTask s k tix = true → g.life = .started → g.held = false →
      g.tiles[i]? = some m → (∀ n ∈ g.tiles, (s.tile n).task.tix = tix → n = m) → (s.tile m).task.complete = false → (s.tile m).ctl.status ≠ .ended →
      Done (.lkcmdCancel w) s fun t => t.lk.res = lkres 0 0 ∧ tix ∈ (t.gang x.gid).ending ∧ .cancel ∈ (t.gang x.gid).causes) ∧
    (Accepted 1 [0] 28 w s → owned → x.life = .free ∨ hasTask s k tix = false → exec (.lkcmdCancel w) s = .next (answered s 3 0))

/-- The other commands of LKCMD: NOOP, RELEASE, READ, RETRY, ASSIGN, RESUME, REPLAN, DISPATCH, GENADDR, GENRELEASE and GENRESTORE, each with its status, its
value and its effect where it is accepted and with its status where it is refused. A command whose LEVEL or ID is malformed ends with STATUS 5, one that names
no existing job with STATUS 3, both without effect; a word of no assigned code, or a write while a command runs, sets LKERR bit 2 and leaves LKRES. A release
gives the frames of the generation back. READ of a job without queues counts its launches at nodes (R21, R42, R43, R239, R261, R273, R274, R278 to R280, R287,
Table 12.10). The statuses of corners that R279 leaves open, which generations a job still knows, that a launch is queued from its publication on, and how
the MMP hands frames out are the model's own (log entries 6, 17, 29 and 40). -/
def Obligations.LockkeeperCommands : Prop :=
  ∀ (s : State) (w : BitVec 64), Safety.wf s = true →
    let p := bits w.toNat 51 32
    let k := bits w.toNat 11 0
    let num := bits w.toNat 31 0
    let op := bits w.toNat 63 56
    let level := bits w.toNat 55 52
    let j := s.job p
    let x := s.node k
    let g := s.gang x.gid
    let owned : Prop := x.owner = some p
    let known := j.gens.find? fun y => y.num == num && j.knows y
    let byLevel : List (Nat × Nat) := [(0, 28), (1, 12), (2, 12), (3, 0), (4, 0)]
    let every (top : Nat) : List (Nat × Nat) := (List.range 16).map fun l => (l, top)
    let commands : List (Nat × Instr × List (Nat × Nat)) := [(1, .lkcmdCancel w, byLevel), (2, .lkcmdRelease w, [(1, 12)]),
      (3, .lkcmdRead w, byLevel), (4, .lkcmdRetry w, every 8), (5, .lkcmdAssign w, every 12), (6, .lkcmdResume w, [(1, 12)]),
      (7, .lkcmdReplan w, [(4, 0)]), (8, .lkcmdDispatch w, [(4, 0)]), (9, .lkcmdGenaddr w, every 32), (10, .lkcmdGenrelease w, every 32),
      (11, .lkcmdGenrestore w, every 32)]
    let freed (t : State) (f : Nat) : Prop := ∃ r ∈ t.mem.freed, r.1 ≤ f ∧ f < r.1 + r.2
    (controlRuns s = true → s.lk.cmdBusy = false → op = 0 → exec (.lkcmdNoop w) s = .next (answered s 0 0)) ∧
    (controlRuns s = true → 12 ≤ op ∨ s.lk.cmdBusy = true →
      exec (.lkcmdUnassigned w) s = .next { s with lk := { s.lk with err := s.lk.err ||| 4 } }) ∧
    (∀ c ∈ commands, controlRuns s = true → s.lk.cmdBusy = false → op = c.1 →
      ((∀ l ∈ c.2.2, l.1 = level → bits w.toNat 31 l.2 ≠ 0) → exec c.2.1 s = .next (answered s 5 0)) ∧
      (∀ l ∈ c.2.2, l.1 = level → bits w.toNat 31 l.2 = 0 → j.live = false → exec c.2.1 s = .next (answered s 3 0))) ∧
    (Accepted 2 [1] 12 w s → owned → x.life ≠ .free → x.edges.any Edge.blocked = true → Done (.lkcmdRelease w) s fun t =>
      t.lk.res = lkres 0 0 ∧ (∀ e ∈ (t.node k).edges, e.blocked = false) ∧ ∀ e ∈ x.edges, e.blocked = true →
        { e with blocked := false, satisfied := true } ∈ (t.node k).edges) ∧
    (Accepted 2 [1] 12 w s → ¬ owned ∨ x.life = .free ∨ x.edges.any Edge.blocked = false →
      exec (.lkcmdRelease w) s = .next (answered s 3 0)) ∧
    (Accepted 3 [3] 0 w s → exec (.lkcmdRead w) s = .next (answered s 0 j.phaseLeft)) ∧
    (Accepted 3 [4] 0 w s → (∀ e ∈ s.lk.threads, e.2.act = .unmapped) → (∀ q e a, q < 256 → walkQueue s p q ≠ .found e a) →
      exec (.lkcmdRead w) s = .next (answered s 0 (s.lk.nodes.filter fun e =>
        decide (e.2.life ≠ .free ∧ e.2.life ≠ .counted ∧ e.2.owner = some p)).length)) ∧
    (Accepted 3 [1] 12 w s → owned → x.life = .running → exec (.lkcmdRead w) s = .next (answered s 0 x.tasksLeft)) ∧
    (Accepted 3 [2] 12 w s → owned → x.life ≠ .free → exec (.lkcmdRead w) s = .next (answered s 0 (s.lk.nodes.filter fun e =>
      decide (e.2.life ≠ .free ∧ e.2.life ≠ .counted ∧ e.2.owner = some p ∧ e.2.graph = x.graph)).length)) ∧
    (∀ i m : Nat, Accepted 3 [0] 28 w s → owned → x.life = .running → g.life = .started → hasTask s k (g.firstTix + i) = true →
      bits w.toNat 27 12 = g.firstTix + i → g.tiles[i]? = some m → (∀ z ∈ s.saved, z.1 ≠ keptKey s x.gid i) →
      exec (.lkcmdRead w) s = .next (answered s 0 (if (s.tile m).task.complete then 0
        else (if (s.tile m).ctl.status = .ended then 0 else 1) + (s.tile m).barge.queue.length))) ∧
    (Accepted 3 [0] 28 w s ∨ Accepted 3 [1, 2] 12 w s → ¬ owned → exec (.lkcmdRead w) s = .next (answered s 3 0)) ∧
    (Accepted 4 (List.range 16) 8 w s → walkQueue s p (bits w.toNat 7 0) = .discarded →
      let mine (r : MapReq) : Bool := r.pasid == p && r.qnum == bits w.toNat 7 0
      exec (.lkcmdRetry w) s = .next (answered { s with lk := { s.lk with
        serviceWaits := s.lk.serviceWaits.filter fun r => !mine r,
        err := if s.lk.serviceWaits.any mine then s.lk.err ||| 1 else s.lk.err } } 3 0)) ∧
    (Accepted 4 (List.range 16) 8 w s → walkQueue s p (bits w.toNat 7 0) ≠ .discarded → walkQueue s p (bits w.toNat 7 0) ≠ .outside →
      Done (.lkcmdRetry w) s fun t => t.lk.res = lkres 0 0 ∧
      (∀ r ∈ t.lk.serviceWaits, ¬ (r.pasid = p ∧ r.qnum = bits w.toNat 7 0)) ∧
      ∀ r ∈ s.lk.serviceWaits, r.pasid = p → r.qnum = bits w.toNat 7 0 →
        ∃ q ∈ t.lk.mapWaits, q.pasid = p ∧ q.qnum = r.qnum ∧ q.db = r.db ∧ r.kick ≤ q.kick) ∧
    (Accepted 5 (List.range 16) 12 w s → Done (.lkcmdAssign w) s fun t =>
      (owned → t.lk.res = lkres 0 0 ∧ t.node k = x) ∧ (¬ owned → x.life ≠ .free → t.lk.res = lkres 1 0 ∧ t.node k = x) ∧
      (¬ owned → x.life = .free → t.lk.res = lkres 0 0 ∧ (t.node k).owner = some p ∧ (t.node k).last = x.last)) ∧
    (Accepted 6 [1] 12 w s → owned → x.life = .running → resumable s x.gid = true → Done (.lkcmdResume w) s fun t =>
      t.lk.res = lkres 0 0 ∧ .trap ∉ (t.gang x.gid).causes ∧ (t.gang x.gid).signalled = false ∧
      (g.causes = [.trap] → (t.gang x.gid).resumeAt = some (s.clock + 16 + g.pad))) ∧
    (Accepted 6 [1] 12 w s → owned → resumable s x.gid = false ∨ x.life ≠ .running → exec (.lkcmdResume w) s = .next (answered s 1 0)) ∧
    (Accepted 6 [1] 12 w s → ¬ owned → exec (.lkcmdResume w) s = .next (answered s 3 0)) ∧
    (Accepted 7 [4] 0 w s → j.phaseLeft = 0 → placedGangs s p ≠ [] → Done (.lkcmdReplan w) s fun t => t.lk.res = lkres 0 0 ∧
      (t.job p).phaseLeft = (placedGangs s p).length ∧ ∀ h ∈ placedGangs s p, (t.gang h).counted = true) ∧
    (Accepted 7 [4] 0 w s → j.phaseLeft ≠ 0 → exec (.lkcmdReplan w) s = .next (answered s 0 0)) ∧
    (Accepted 8 [4] 0 w s → Done (.lkcmdDispatch w) s fun t =>
      (t.job p).stopped = false ∧ t.lk.res = lkres (if j.stopped then 0 else 1) 0) ∧
    (∀ y, Accepted 9 (List.range 16) 32 w s → known = some y → y.record ≠ 0 → y.state ≠ .released →
      exec (.lkcmdGenaddr w) s = .next (answered s 0 (y.record % 2 ^ 48))) ∧
    (∀ y, Accepted 9 (List.range 16) 32 w s → known = some y → y.record = 0 ∨ y.state = .released →
      exec (.lkcmdGenaddr w) s = .next (answered s 3 0)) ∧
    (Accepted 9 (List.range 16) 32 w s → known = none → exec (.lkcmdGenaddr w) s = .next (answered s 3 0)) ∧
    (∀ y, Accepted 10 (List.range 16) 32 w s → known = some y → y.state = .drained →
      j.restoring ≠ some num → Done (.lkcmdGenrelease w) s fun t => t.lk.res = lkres 0 0 ∧
        (t.job p).gens = j.gens.map (fun z => if z.num = num then { z with state := .released, runs := [], copies := [] } else z) ∧
        (∀ r ∈ y.runs, ∀ f, r.1 ≤ f → f < r.1 + r.2 → freed t f) ∧
        (∀ c ∈ y.copies, (∀ z ∈ j.gens, z.state ≠ .released → z.num ≠ num → ∀ d ∈ z.copies, d.2 ≠ c.2) → freed t c.2) ∧
        (∀ f, freed s f → freed t f) ∧ t.mem.nextFrame = s.mem.nextFrame ∧ t.mem.res = s.mem.res) ∧
    (∀ y, Accepted 10 (List.range 16) 32 w s → known = some y → y.state ≠ .drained ∨ j.restoring = some num →
      exec (.lkcmdGenrelease w) s = .next (answered s 1 0)) ∧
    (Accepted 10 (List.range 16) 32 w s → known = none →
      exec (.lkcmdGenrelease w) s = .next (answered s (if num = j.gen then 1 else 3) 0)) ∧
    (∀ y, Accepted 11 (List.range 16) 32 w s → known = some y → y.state = .drained →
      placedGangs s p = [] → Done (.lkcmdGenrestore w) s fun t =>
        t.lk.cmdBusy = true ∧ t.lk.res = 0 ∧ (t.job p).restoring = some num) ∧
    (∀ y, Accepted 11 (List.range 16) 32 w s → known = some y → y.state ≠ .drained ∨ placedGangs s p ≠ [] →
      exec (.lkcmdGenrestore w) s = .next (answered s 1 0)) ∧
    (Accepted 11 (List.range 16) 32 w s → known = none →
      exec (.lkcmdGenrestore w) s = .next (answered s (if num = j.gen then 1 else 3) 0))

/-- The BAR0 registers. Writes: RW fields take the value, W1C bits are cleared, and other offsets and sizes are discarded; a write of
LKCMD, TRAPPOL or PLCMD is the event of that name. Reads, once the link is trained: each register of Tables 12.9, 13.4 and 14.3 with its
reserved bits zero; zero from a write-only register, an unassigned offset and an access of another size (R6, R7, R256). A device reset leaves
no task, gang, job or mapping and keeps host memory, flash and fuses, and the boot sequence then takes its steps one by one; the third
gives every quadrant the grade that its sensors ask for, with its refresh interval (R146, R147, R300, R301, R304, R306). The values of
registers without a stated reset value, the clock across a reset, what a read returns without a link, and the throttling bit of THERM are the
model's own (log entries 3, 7, 26, 27 and 36), and so are the bytes 0 that vaults, staging and the other memories of the device, which R301 leaves unspecified,
hold after a device reset (log entry 5). -/
def Obligations.RegistersAndReset : Prop :=
  ∀ (s : State) (v : BitVec 64),
    let q := s.platform
    let write (offset : Nat) (f : Lockkeeper → Lockkeeper) : Prop :=
      q.phase = 5 → exec (.registerWrite offset 8 v) s = .next { s with lk := f s.lk }
    let reads (offset x : Nat) : Prop := 4 ≤ q.phase → readBar0 s offset 8 = BitVec.ofNat 64 x
    let hot (k : Nat) : Nat := (q.sensors.zipIdx.filter fun d => quadrantOf d.2 == k).foldl (fun m d => max m d.1) 0
    let assigned := [0x1000, 0x1010, 0x1018, 0x1020, 0x1030, 0x1038, 0x2000, 0x2008, 0x2010, 0x2018, 0x2020]
    let fresh (t : State) : Prop :=
      t.core = {} ∧ t.tiles = [] ∧ t.saved = [] ∧ t.gangs = [] ∧ t.jobs = [] ∧ t.lk = {} ∧ t.flights = [] ∧
      t.mem.host = s.mem.host ∧ t.mem.peers = s.mem.peers ∧ t.platform.slotA = q.slotA ∧
      t.platform.slotB = q.slotB ∧ t.platform.marker0 = q.marker0 ∧ t.platform.marker1 = q.marker1 ∧
      t.platform.key = q.key ∧ t.platform.minSeq = q.minSeq ∧ t.platform.phase = 1 ∧ t.platform.bootSeq = 0 ∧ t.platform.bootSlot = 0 ∧
      t.platform.hottest = [] ∧ t.platform.grades = [] ∧ t.platform.sensors = q.sensors
    write 0x1000 (fun l => { l with qtroot := bits v.toNat 47 24 * 2 ^ 24 }) ∧
    write 0x1018 (fun l => { l with err := l.err &&& ~~~(v.truncate 4) }) ∧
    write 0x1020 (fun l => { l with rwbase := bits v.toNat 47 30 * 2 ^ 30 }) ∧
    write 0x1038 (fun l => { l with dbroot := bits v.toNat 47 15 * 2 ^ 15 }) ∧
    (4 ≤ q.phase → exec (.registerWrite 0x2020 8 v) s = .next { s with platform := { q with plerr := q.plerr &&& ~~~(v.truncate 4) } }) ∧
    (∀ o n, n ≠ 8 ∨ o % 8 ≠ 0 ∨ q.phase < 4 ∨ o ∉ [0x1000, 0x1008, 0x1018, 0x1020, 0x1028, 0x1038, 0x2020, 0x2028] →
      exec (.registerWrite o n v) s = .next s) ∧
    reads 0x1000 s.lk.qtroot ∧ reads 0x1010 s.lk.res.toNat ∧ reads 0x1018 s.lk.err.toNat ∧ reads 0x1020 s.lk.rwbase ∧
    reads 0x1030 (s.lk.trapq.headD 0).toNat ∧ reads 0x1038 s.lk.dbroot ∧
    reads 0x2000 (q.bootSeq.toNat * 2 ^ 32 + q.vok.toNat * 2 ^ 8 + q.bootSlot * 2 ^ 4 + q.phase) ∧
    (∀ k, 4 ≤ q.phase → k < 4 → bits (readBar0 s 0x2008 8).toNat (16 * k + 15) (16 * k + 8) = tget 0 q.hottest k % 256 ∧
      bits (readBar0 s 0x2008 8).toNat (16 * k + 1) (16 * k) = tget 0 q.grades k % 4 ∧
      bits (readBar0 s 0x2008 8).toNat (16 * k + 2) (16 * k + 2) = if 105 < tget 0 q.hottest k then 1 else 0) ∧
    reads 0x2010 q.stretched.toNat ∧
    reads 0x2018 (q.powerThrottle.toNat * 2 ^ 32 + q.pkgW % 2 ^ 16 * 2 ^ 16 + q.modW % 2 ^ 16) ∧ reads 0x2020 q.plerr.toNat ∧
    (∀ o n, n ≠ 8 ∨ o % 8 ≠ 0 ∨ o ∉ assigned ∨ q.phase < 4 → readBar0 s o n = 0) ∧
    Done .deviceReset s fresh ∧ (4 ≤ q.phase → v.toNat % 256 = 1 → Done (.plcmdDeviceReset v) s fresh) ∧
    (q.phase < 4 ∨ v.toNat % 256 ≠ 1 → exec (.plcmdDeviceReset v) s = .next s) ∧
    (let t := bootStep s
     (q.phase ≠ 3 → t = { s with platform := t.platform }) ∧
     (q.phase = 3 → Safety.wf s = true → t.clock = s.clock ∧ t.mem = s.mem ∧ t.lk = s.lk ∧ t.jobs = s.jobs ∧ t.gangs = s.gangs ∧
       (∀ n, (t.tile n).regs = (s.tile n).regs) ∧ ∀ k, k < 4 →
         t.grade k = (if hot k ≤ 85 then 0 else if hot k ≤ 95 then 1 else 2) ∧ tget 0 t.platform.hottest k = hot k ∧
         (t.grade k ≠ s.grade k → ∀ n b, n < 256 → quadrantOf n = k → b < 64 →
           (tget {} (t.tile n).vault.banks b).due ≤ s.clock + [8192, 4096].getD (t.grade k) 2048)) ∧
     (q.phase = 1 → match bootChoice q with
       | some m => t.platform.phase = 2 ∧ t.platform.bootSlot = markerSlot m ∧ t.platform.bootSeq = BitVec.ofNat 32 (markerSeq m)
       | none => t.platform.phase = 7 ∧ t.platform.bootSeq = q.bootSeq ∧ t.platform.bootSlot = q.bootSlot) ∧
     (2 ≤ q.phase → q.phase ≤ 4 → t.platform.phase = q.phase + 1) ∧ (5 ≤ q.phase → t = s))

/-- The platform controller: the sensors are read every 2^16 cycles, grades rise at once and fall after 16 cool samples, a change is
reported and reloads every RDUE above the new interval, throttling moves by one sixteenth, a droop of a quadrant lasts until its recovery, the
watchdog of a thread or of an MMP core that has work and has served none for 2^24 of its cycles stops the control complex and holds every gang, a control-memory error stops one processor, shares are taken only within their limits (R19, R20, R146, R147, R295, R297 to
R299, R305, R308 to R311). The fall of a grade by one band, a watchdog without work, and the clock of the MMP are the model's reading
(log entries 23 and 37); shares are held and not counted (log entry 11); which quadrant or
processor an event of the supply or of a memory concerns is free (log entry 39). -/
def Obligations.PlatformEvents : Prop :=
  ∀ (s : State) (ds xs : List Nat) (a b u : Nat) (bs : List Byte), Safety.wf s = true →
    let q0 := s.platform
    let band (t : Nat) : Nat := if t ≤ 85 then 0 else if t ≤ 95 then 1 else 2
    let limit (g : Nat) : Nat := if g = 0 then 85 else 95
    let interval (g : Nat) : Nat := [8192, 4096].getD g 2048
    let hot (q : Nat) : Nat := (ds.zipIdx.filter fun d => quadrantOf d.2 == q).foldl (fun m d => max m d.1) 0
    let legal : Prop := 8 ≤ xs.getD 0 0 ∧ 2 ≤ xs.getD 1 0 ∧ xs.sum ≤ 64
    let unit : Prop := u < 16 ∨ (u < 80 ∧ ∀ c ∈ s.fabric.crossings, c.2.live = true → c.2.ports.1 ≠ u - 16 ∧ c.2.ports.2 ≠ u - 16)
    (platformRuns s = true → q0.sampleAt ≤ s.clock → Done (.temperatureSample ds) s fun t =>
      t.platform.sensors = ds ∧ (t.platform.hotThrottle = true ↔ ∃ d ∈ ds, 105 < d) ∧ (∀ n, (t.tile n).regs = (s.tile n).regs) ∧
      t.platform.sampleAt = q0.sampleAt + 65536 ∧
      ∀ q, q < 4 →
        let g := s.grade q
        let cool := 0 < g ∧ hot q + 2 ≤ limit (g - 1)
        (g < band (hot q) → t.grade q = band (hot q)) ∧
        (band (hot q) ≤ g → cool → 15 ≤ tget 0 q0.coolSamples q → t.grade q = g - 1) ∧
        (band (hot q) ≤ g → ¬ (cool ∧ 15 ≤ tget 0 q0.coolSamples q) → t.grade q = g) ∧
        (band (hot q) ≤ g → cool → tget 0 q0.coolSamples q < 15 →
          tget 0 t.platform.coolSamples q = tget 0 q0.coolSamples q + 1) ∧
        tget 0 t.platform.hottest q = hot q ∧
        (t.grade q ≠ g → (q, t.grade q) ∈ t.platform.reports ∧ ∀ n b, n < 256 → quadrantOf n = q → b < 64 →
          (tget {} (t.tile n).vault.banks b).due ≤ s.clock + interval (t.grade q))) ∧
    (platformRuns s = false ∨ s.clock < q0.sampleAt →
      exec (.temperatureSample ds) s = .next { s with platform := { q0 with sensors := ds } }) ∧
    (platformRuns s = true → Done (.throttleStep a b) s fun t =>
      t.platform.throttle = (if q0.hotThrottle = true ∨ 1850 < a ∨ 2000 < b then min 16 (q0.throttle + 1) else q0.throttle - 1) ∧
      t.platform.pkgW = a % 2 ^ 16 ∧ t.platform.modW = b % 2 ^ 16 ∧ t = { s with platform := t.platform }) ∧
    (∃ q, q < 4 ∧ exec .supplyDroop s = .next { s with fresh := s.fresh + 1, platform := { q0 with droops := tset false q0.droops q true } } ∧
      exec .supplyRecovery s = .next { s with fresh := s.fresh + 1, platform := { q0 with droops := tset false q0.droops q false } }) ∧
    (∀ who,
      let expires : Prop := match who with
        | .thread k => controlRuns s = true ∧ k < 32 ∧ (threadAt s k).servedAt + 2 ^ 26 ≤ q0.halves ∧
            ((threadAt s k).act = .packet ∨ ((threadAt s k).act = .taking ∧ (threadAt s k).ridx < (threadAt s k).kick))
        | .core k => mmpRuns s = true ∧ k < 4 ∧ (∃ n, n < 256 ∧ (s.tile n).barge.misses ≠ [] ∧ Config.mmpCore n % 4 = k) ∧
            Config.mmpCycles (tget 0 q0.coreServed k) + 2 ^ 24 ≤ Config.mmpCycles q0.halves
      let bit : BitVec 4 := match who with
        | .thread _ => 1
        | .core _ => 2
      (expires → Done (.watchdogExpiry who) s fun t =>
        t.platform = { q0 with plerr := q0.plerr ||| bit, lkStopped := true, mmpStopped := true } ∧ t.mem = s.mem ∧
        ∀ e ∈ s.gangs, .stop ∈ (t.gang e.1).causes) ∧
      (¬ expires → exec (.watchdogExpiry who) s = .next s)) ∧
    (controlRuns s = true → mmpRuns s = true → platformRuns s = true → ∃ a b c : Bool, (a.toNat + b.toNat + c.toNat = 1) ∧
      exec .controlMemoryError s = .next { s with fresh := s.fresh + 1, platform := { q0 with
        plerr := q0.plerr ||| 4, lkStopped := a, mmpStopped := b, pcStopped := c } }) ∧
    (mmpRuns s = true → legal → unit → Done (.shareSetting u xs) s fun t =>
      tget [] t.fabric.shares u = xs ∧ (∀ v, v ≠ u → tget [] t.fabric.shares v = tget [] s.fabric.shares v) ∧
      t = { s with fabric := t.fabric }) ∧
    (¬ legal ∨ 80 ≤ u → exec (.shareSetting u xs) s = .next s) ∧
    (q0.phase = 5 → exec .budgetPeriod s = .next { s with fabric := { s.fabric with period := s.fabric.period + 1 } }) ∧
    exec (.firmwareSlotWrite .slotA bs) s = .next { s with platform := { q0 with slotA := bs } } ∧
    exec (.firmwareSlotWrite .slotB bs) s = .next { s with platform := { q0 with slotB := bs } } ∧
    exec (.firmwareSlotWrite .marker0 bs) s = .next { s with platform := { q0 with marker0 := bs } } ∧
    exec (.firmwareSlotWrite .marker1 bs) s = .next { s with platform := { q0 with marker1 := bs } }

/-! ### Encodings -/

/-- Words that the manual writes out (Tables 6.4, 7.3, 8.2, 11.2, 15.16, 16.9, R238, R362, R352) decode to the instructions they stand
for; a word of opcode 0 with any other bit set, and the all-ones word, are illegal in every slot (R316, R393). -/
def Obligations.DecodeSamples : Prop :=
  (decode .c 0x50518000#32).toOption = some (.genq 5 6 0) ∧ (decode .c 0x04190003#32).toOption = some (.br 100 3) ∧
  (decode .c 0x24028018#32).toOption = some (.arrb 5 3 0) ∧ (decode .c 0x44000000#32).toOption = some (.sege 0) ∧
  (decode .a 0x6030FF00#32).toOption = some (.addi 3 3 0x7E0 0) ∧ (decode .a 0x04310500#32).toOption = some (.add 3 4 5 0) ∧
  (decode .v0 0x11230418#32).toOption = some (.vfma .v0 1 1 6 2 3 0) ∧
  (decode .v1 0x82441250#32).toOption = some (.vaddI .v1 4 1 8 9 10 0) ∧
  (decode .m 0x2D0C1000#32).toOption = some (.maccB16 1 12 4 0 0 0 0) ∧
  (decode .d 0x06028000#32).toOption = some (.act 2 0 10 0) ∧ (decode .d 0x12500060#32).toOption = some (.wr 2 5 0 6 0) ∧
  (decode .x 0x2051C000#32).toOption = some (.send 5 7 0) ∧ (decode .x 0x40332000#32).toOption = some (.bcopy 3 12 2 0 0 0) ∧
  (decode .f 0x04000030#32).toOption = some (.sgen 0 0 0 3 0) ∧ (decode .f 0x11020000#32).toOption = some (.sand 2 0 1 0 0 0) ∧
  (decode .d 0x06028008#32).toOption = none ∧ (decode .c 0x53C18000#32).toOption = none ∧
  ∀ sl, decode sl 0 = .ok .nop ∧ (decode sl 0xFFFFFFFF#32).toOption = none ∧
    ∀ w : SlotWord, w ≠ 0 → w.toNat < 2 ^ 26 → (decode sl w).toOption = none

/-- Decode and encode agree, in both directions: the word of a well-formed slot instruction decodes in its slot to that instruction,
with every operand at every value that the encoding admits, and a word that decodes to an instruction is that instruction's word
(R55, R316). -/
def Obligations.DecodeEncode : Prop :=
  (∀ (i : Instr) (u : Use), useOf i = some u → i.wellFormed = true → ∃ w, encode i = some w ∧ decode u.slot w = .ok i) ∧
  ∀ (sl : Slot) (w : SlotWord) (i : Instr), decode sl w = .ok i → encode i = some w ∧ i.wellFormed = true

/-! ### A bundle, a word, a result -/

/-- A step runs the decoded bundle. When no agenda entry and no event is due, and tile `n` is the next to issue, whose bundle at PC
decodes with no check failing, the step reads the route image of its `CROUTE`, lets its words read their sources, executes them in slot order
with NPC at PC + 1, and then PC takes NPC, CYC counts one and an open segment counts the bundle; with one word besides NOPs that is exec of
that word. Reading the sources changes nothing where no parity fails, and tags the registers where it does (R295). An entry of the agenda
that is due, a step of the boot sequence, an event, or else the next clock cycle is a step of its own, and a cut whose instant has come
precedes what the agenda brings; the all-zero bundle adds 0x8A91_36AA to SGSH. A fetch from a PC of 3,072 or more, or of a bundle that cannot be corrected,
is an illegal instruction with DETAIL 1 or 2 (R27, R55, R56, R79, R81, R228, R283, R295, R300, R307, R313, R393). That one step is an
event, a bundle or a clock cycle, in that order, is the model's choice (log entry 2). -/
def Obligations.StepRunsBundle : Prop :=
  ∀ (s : State), Safety.wf s = true → (∀ e ∈ s.agenda, s.clock < e.1) →
    let instant : Prop := booting s = false ∧ ∃ q ∈ s.jobs, ∃ d t p, q.2.cut = some (.running d t p) ∧ t ≤ s.clock
    (booting s = true → step s = .next (bootStep s)) ∧
    (∀ i, booting s = false → dueEvent s = some i → step s = exec i s) ∧
    (booting s = false → dueEvent s = none → nextTile s = none → ∃ t, step s = .next t ∧ t.clock = s.clock + 1 ∧ t.core = s.core ∧
      t.tiles = s.tiles ∧ t.mem = s.mem ∧ t.gangs = s.gangs ∧ t.lk = s.lk ∧ t.turn = 0 ∧
      t.platform = { s.platform with stretched := t.platform.stretched, halves := t.platform.halves } ∧
      (s.platform.throttle = 0 → s.platform.droops = [] → s.fabric.stretchAt ≠ s.clock + 1 →
        t.platform.stretched = s.platform.stretched ∧ t.platform.halves = s.platform.halves + 2)) ∧
    (∀ i rest, ¬ instant → step { s with agenda := (s.clock, i) :: rest } =
      if isWord i then .next { s with agenda := rest } else exec i { s with agenda := rest }) ∧
    (∀ a j, instant → dueEvent { s with agenda := a } = some j → step { s with agenda := a } = exec j { s with agenda := a }) ∧
    (∀ n, booting s = false → dueEvent s = none → nextTile s = some n →
      let x := { s.select n with turn := n + 1 }
      let c := x.core.ctl
      let faults (d : Nat) : Prop := (∀ r, c.trap = some r → r.final = false) → ∃ t, step s = .next t ∧
        t.core.regs = x.core.regs ∧ t.core.results = x.core.results ∧ t.core.staging = x.core.staging ∧ t.core.vault = x.core.vault ∧
        t.core.isram = x.core.isram ∧ t.core.barge = x.core.barge ∧ t.core.ctl.status = .stopped ∧ t.core.ctl.pc = c.pc ∧
        t.core.ctl.cyc = c.cyc ∧ t.core.ctl.sgsc = c.sgsc ∧ t.core.ctl.sgsh = c.sgsh ∧ t.clock = s.clock ∧
        (c.trap = none → .trap ∈ (t.gang x.core.task.gid).causes ∧ ∃ r, t.core.ctl.trap = some r ∧ r.cause = 1 ∧ r.detail = d ∧
          r.slot = 15 ∧ r.pc = c.pc ∧ r.npc = c.pc ∧ r.tcyc = c.cyc ∧ r.tclk = s.clock ∧ r.final = true)
      (3072 ≤ c.pc → faults 1) ∧
      (c.pc < 3072 → tget .good x.core.isram.marks c.pc = .uncorrectable → (∀ e ∈ x.core.isram.unseen, e.1 ≠ c.pc) → faults 2)) ∧
    (∀ n, booting s = false → dueEvent s = none → nextTile s = some n →
      let x := { s.select n with turn := n + 1 }
      let pc := x.core.ctl.pc
      let b := tget 0 x.core.isram.bundles pc
      let y0 := x.mapCtl fun c => { c with ir := b }
      let ws := (decodeBundle b).filterMap fun d => d.2.toOption
      let y := takeImage y0 ws
      let w := readBundle y ws
      let z := { w.mapCtl (fun c => { c with npc := pc + 1 }) with vetted := true }
      let ends (t : State) : State := { t.mapCtl (fun c => { c with
        pc := c.npc, cyc := c.cyc + 1, sgsc := if c.inseg then c.sgsc + 1 else c.sgsc,
        sgsh := if c.inseg then c.sgsh + bundleCrc c.ir else c.sgsh }) with vetted := false }
      pc < 3072 → tget .good x.core.isram.marks pc = .good → (∀ e ∈ x.core.isram.unseen, e.1 ≠ pc) →
      (∀ d ∈ decodeBundle b, d.2.toOption ≠ none) → bundleFaults y ws = [] → stopsHere y0 ws = false →
        ((∀ a p, .croute a p ∉ ws) → y = y0) ∧ (∀ t, runWords ws z = .next t → step s = .next (ends t)) ∧
        (∀ i t, ws.filter (fun j => j != .nop) = [i] → exec i z = .next t → step s = .next (ends t)) ∧
        (b = 0 → step s = .next (ends z) ∧ bundleCrc b = 0x8A9136AA#32) ∧
        (y.core.regs.sBad = [] → y.core.regs.vBad = [] → y.core.regs.mBad = [] → w = y) ∧
        (∃ r : Regs, w = { y with core := { y.core with regs := { y.core.regs with
          sPoison := r.sPoison, sBad := r.sBad, vPoison := r.vPoison, vBad := r.vBad, mPoison := r.mPoison, mBad := r.mBad } } }) ∧
        (∀ i ∈ ws, ∀ u c, useOf i = some u → readPred y u.pr = true → (c ∈ u.scalars ∨ ∃ l p, i = .lih c l p) → c.toNat < 56 →
          tget false w.core.regs.sBad c.toNat = false ∧
          (tget false y.core.regs.sBad c.toNat = true → tget false w.core.regs.sPoison c.toNat = true)))

/-- Every word whose predicate reads 0 changes nothing but the occupancy of its engine, for `MHAD` with the note of its latch, and, on
its readable cycle, the valid mark of its slot's latch, whose contents stand; the predicate is read by its physical number (R57, R61, R64, R76). -/
def Obligations.FalsePredicate : Prop :=
  ∀ (s : State) (i : Instr) (u : Use), useOf i = some u → (s.vetted = true ∨ bundleFaults s [i] = []) → readPred s u.pr = false →
    u.pr ≠ 0 ∧ tget false s.core.regs.p (if u.pr.toNat < 4 then u.pr.toNat else 4 + (u.pr.toNat - 4 + s.core.ctl.rrb.toNat) % 4) = false ∧
    let h := match i with
      | .mhad l _ _ _ => tset 0 s.core.ctl.mhadAt l.toNat (s.core.ctl.cyc + 1)
      | _ => s.core.ctl.mhadAt
    exec i s = .next (queued { busyFor s u.slot.num u.beats with core := { (busyFor s u.slot.num u.beats).core with
        ctl := { (busyFor s u.slot.num u.beats).core.ctl with mhadAt := h } } }
      (match u.latch with
        | some vec => [due s u.lat (.latch u.slot.num vec false 0 false)]
        | none => [])) ∧
    ∀ (r : State) n v, let l := tget {} (landEffect r (.latch n v false 0 false)).core.regs.latches n
      l.valid = true ∧ l.vec = v ∧ l.bytes = (tget {} r.core.regs.latches n).bytes ∧ l.poison = (tget {} r.core.regs.latches n).poison

/-- A bundle that fails a check, at a tile whose trap record, if it has one, is still open: no slot takes effect, CYC, SGSC and SGSH stand, the
tile stops with PC at the bundle, and the record names the first cause in the order of Table 3.8 and, within one entry of it, the lowest slot: 1 illegal
instruction, 2 schedule, 3 partition, 4 timing, 6 correlation, then 7 and 8, route conflict and overrun (R81). A segment fault, 5, which comes after them,
taints the task, and its record counts the bundle of the `SEGE` too (R79, R283). -/
def Obligations.SuppressedBundle : Prop :=
  ∀ (s : State) (ds : List (Slot × Except Reject Instr)),
    let ws := ds.filterMap fun d => d.2.toOption
    let fs := illegalWords ds ++ bundleFaults (takeImage s ws) ws
    let rank (cause : Nat) : Nat := [0, 1, 2, 3, 4, 7, 5, 6, 6].getD cause 0
    fs ≠ [] → stopsHere s ws = false → (∀ r, s.core.ctl.trap = some r → r.final = false) → ∃ t, issueDecoded s ds = .next t ∧
      t.core.regs = s.core.regs ∧ t.core.results = s.core.results ∧ t.core.staging = s.core.staging ∧ t.core.vault = s.core.vault ∧
      t.core.isram = s.core.isram ∧ t.core.canal = s.core.canal ∧ t.core.barge = s.core.barge ∧ t.core.task = s.core.task ∧
      t.core.ctl.cyc = s.core.ctl.cyc ∧ t.core.ctl.sgsc = s.core.ctl.sgsc ∧ t.core.ctl.sgsh = s.core.ctl.sgsh ∧
      t.core.ctl.pc = s.core.ctl.pc ∧ t.core.ctl.fflg = s.core.ctl.fflg ∧ t.core.ctl.busy = s.core.ctl.busy ∧
      t.core.ctl.status = .stopped ∧ t.tiles = s.tiles ∧ t.clock = s.clock ∧
      (s.core.ctl.trap = none → .trap ∈ (t.gang s.core.task.gid).causes ∧ ∃ r f, t.core.ctl.trap = some r ∧ f ∈ fs ∧
        r.cause = f.cause ∧ r.detail = f.detail ∧ r.slot = f.slot ∧ r.pc = s.core.ctl.pc ∧ r.tcyc = s.core.ctl.cyc ∧
        r.tclk = s.clock ∧ r.bundle = s.core.ctl.ir ∧ r.final = true ∧
        (f.cause = 5 → r.sgsc = s.core.ctl.sgsc + 1 ∧ r.sgsh = s.core.ctl.sgsh + bundleCrc s.core.ctl.ir ∧
          t.core.ctl.verdict = .tainted) ∧
        0 < rank f.cause ∧ ∀ e ∈ fs, rank f.cause < rank e.cause ∨ (rank f.cause = rank e.cause ∧ f.slot ≤ e.slot))

/-- A write to s0 or to p0 is discarded: the word executes, the machine goes on, and nothing in flight reaches a scalar or a predicate
register; s0 reads 0 and p0 reads 1 whatever the register file holds (R63, R67, R68). -/
def Obligations.DiscardedWrites : Prop :=
  ∀ (s : State) (i : Instr) (u : Use), useOf i = some u → (u.dest = .scalar 0 ∨ u.dest = .pred 0) →
    (readScalar s 0).1 = 0 ∧ readPred s 0 = true ∧
    (s.vetted = true ∨ bundleFaults s [i] = [] → ∃ t rs, exec i s = .next t ∧ t.core.results = s.core.results ++ rs ∧
      t.core.regs = { s.core.regs with accPoison := t.core.regs.accPoison, q := t.core.regs.q } ∧
      t.core.ctl.npc = s.core.ctl.npc ∧ t.core.ctl.status = s.core.ctl.status ∧
      ∀ r ∈ rs, (∀ d x b, r.eff ≠ .scalar d x b) ∧ ∀ n b, r.eff ≠ .pred n b)

/-- The frame of every slot word at issue. No word writes a register, a flag, a counter of the task, a byte of staging, an instruction, or
any memory outside the tile; a read may tag what it finds in error. `SEG` alone loses the latches and opens a segment, `WR` alone stores in
the vault, the branches alone choose the next bundle, the waits alone begin a wait, `BRK` and `TRAP` alone open a record, `SNAP` alone
touches the job, and barge, canal, rows in flight and gangs change with their own words alone (R57, R58, R295). -/
def Obligations.WordFrame : Prop :=
  ∀ (s t : State) (i : Instr) (u : Use), useOf i = some u → s.vetted = true → exec i s = .next t →
    let r := s.core.regs
    let r' := t.core.regs
    let c := s.core.ctl
    let c' := t.core.ctl
    let lost (m : Mark) : Prop := m ≠ .good ∧ m ≠ .correctable
    t.clock = s.clock ∧ t.turn = s.turn ∧ t.cur = s.cur ∧ t.tiles = s.tiles ∧ t.saved = s.saved ∧ t.agenda = s.agenda ∧ t.mem = s.mem ∧
    t.lk = s.lk ∧ t.fabric = s.fabric ∧ t.platform = s.platform ∧ t.vetted = true ∧
    t.core.isram.bundles = s.core.isram.bundles ∧ t.core.task = s.core.task ∧
    c'.pc = c.pc ∧ c'.cyc = c.cyc ∧ c'.lc = c.lc ∧ c'.rrb = c.rrb ∧ c'.awb = c.awb ∧ c'.fflg = c.fflg ∧ c'.ir = c.ir ∧
    (∃ rs, t.core.results = s.core.results ++ rs) ∧
    t.core.staging.cells = s.core.staging.cells ∧ t.core.staging.marks = s.core.staging.marks ∧
    (∀ l, tget false t.core.staging.poison l = tget false s.core.staging.poison l ∨ (tget false t.core.staging.poison l = true ∧
      ∃ n, n / 4 = l ∧ tget .good s.core.staging.marks n = .uncorrectable)) ∧
    (∀ y ∈ t.core.staging.unseen, y ∈ s.core.staging.unseen) ∧
    r' = { r with accPoison := r'.accPoison, q := r'.q, latches := r'.latches } ∧
    (∀ k, tget false r'.accPoison k = tget false r.accPoison k ∨ (tget false r'.accPoison k = true ∧ lost (tget .good r.accMark k))) ∧
    (∀ k, tget {} r'.q k = tget {} r.q k ∨
      (tget {} r'.q k = { tget {} r.q k with poison := true } ∧ lost (tget {} r.q k).mark)) ∧
    (isSeg i = false → r'.latches = r.latches ∧ c'.sgsc = c.sgsc ∧ c'.sgsh = c.sgsh ∧ c'.inseg = c.inseg ∧ c'.ecnt = c.ecnt ∧
      c'.esig = c.esig) ∧
    (isSeg i = true → r'.latches = r.latches ∨ r'.latches = []) ∧
    ((∀ c b l v p, i ≠ .wr c b l v p) → t.core.vault.cells = s.core.vault.cells ∧ t.core.vault.marks = s.core.vault.marks) ∧
    (u.slot ≠ .d → t.core.vault = s.core.vault) ∧
    (isBranch i = false → c'.npc = c.npc ∧ c'.ret = c.ret) ∧
    (isWait i = false → c'.status = c.status ∧ c'.wait = c.wait) ∧
    ((∀ n p, i ≠ .brk n p ∧ i ≠ .trap n p) → c'.trap = c.trap) ∧
    (isCommand i = false → t.core.barge = s.core.barge) ∧
    ((∀ d l p, i ≠ .recv d l p) → (∀ a p, i ≠ .croute a p) → t.core.canal = s.core.canal) ∧
    ((∀ n v p, i ≠ .send n v p) → t.flights = s.flights) ∧ ((∀ p, i ≠ .snap p) → t.jobs = s.jobs) ∧
    (meetsGang i = false → t.gangs = s.gangs)

/-- The frame of every result as it lands: a scalar, vector, predicate, latch, column, accumulator row, stream or special result writes its
own place with its value and tag, renews its parity, and changes no other register; flags only rise, but for a clear through `MTS`; a store
writes its bytes, renews the check bits of the units it touches, tags its lines as R177 and R294 say, and leaves every other byte, unit and
line of staging; the marks of a segment's close, of `TRIG` and of `END` do that alone; no result touches the vault or any memory outside the
tile (R58, R64, R73, R74, R177, R294, R372, R387, R410, R427). What a beat leaves in its row is the statement `BeatLands`. A store into a
unit in which an outstanding command has landed leaves the unit as it writes it or as it was, and notes in the barge's commands what they may
still read (R213). -/
def Obligations.LandingFrame : Prop :=
  ∀ (s : State) (e : Effect), Safety.wf s = true →
    let t := landEffect s e
    let r := s.core.regs
    let r' := t.core.regs
    let c := s.core.ctl
    let c' := t.core.ctl
    let g := s.core.staging
    let g' := t.core.staging
    t.mem = s.mem ∧ t.clock = s.clock ∧ t.tiles = s.tiles ∧ t.gangs = s.gangs ∧ t.jobs = s.jobs ∧ t.core.vault = s.core.vault ∧
    t.core.isram = s.core.isram ∧ t.core.canal = s.core.canal ∧ c'.pc = c.pc ∧ c'.cyc = c.cyc ∧
    (∀ k, tget 0 r'.s k = match e with
      | .scalar d x _ => if d = k then x else tget 0 r.s k
      | _ => tget 0 r.s k) ∧
    (∀ k, tget false r'.sPoison k = match e with
      | .scalar d _ b => if d = k then b else tget false r.sPoison k
      | _ => tget false r.sPoison k) ∧
    (∀ k, tget false r'.sBad k = match e with
      | .scalar d _ _ => if d = k then false else tget false r.sBad k
      | _ => tget false r.sBad k) ∧
    (∀ k, tget 0 r'.v k = match e with
      | .vector d x _ => if d = k then x else tget 0 r.v k
      | _ => tget 0 r.v k) ∧
    (∀ k, tget false r'.vPoison k = match e with
      | .vector d _ b => if d = k then b else tget false r.vPoison k
      | _ => tget false r.vPoison k) ∧
    (∀ k, tget false r'.vBad k = match e with
      | .vector d _ _ => if d = k then false else tget false r.vBad k
      | _ => tget false r.vBad k) ∧
    (∀ k, tget false r'.p k = match e with
      | .pred d x => if d = k then x else tget false r.p k
      | _ => tget false r.p k) ∧
    (∀ k, tget {} r'.q k = match e with
      | .stream d x => if d = k then x else tget {} r.q k
      | _ => tget {} r.q k) ∧
    (∀ k, tget {} r'.latches k = match e with
      | .latch n vec on x b => if n = k then
          (if on then { bytes := x, valid := true, vec := vec, poison := b }
           else { tget {} r.latches k with valid := true, vec := vec }) else tget {} r.latches k
      | _ => tget {} r.latches k) ∧
    (∀ k, tget 0 r'.m k = match e with
      | .column l j x _ => if 64 * l + j = k then x else tget 0 r.m k
      | .hadamard l xs => if 64 * l ≤ k ∧ k < 64 * l + xs.length then xs.getD (k - 64 * l) 0 else tget 0 r.m k
      | _ => tget 0 r.m k) ∧
    (∀ k, tget false r'.mPoison k = match e with
      | .column l j _ b => if 64 * l + j = k then b else tget false r.mPoison k
      | .hadamard l _ => if 64 * l ≤ k ∧ k < 64 * l + 64 then false else tget false r.mPoison k
      | _ => tget false r.mPoison k) ∧
    (∀ k, tget false r'.mBad k = match e with
      | .column l j _ _ => if 64 * l + j = k then false else tget false r.mBad k
      | .hadamard l _ => if 64 * l ≤ k ∧ k < 64 * l + 64 then false else tget false r.mBad k
      | _ => tget false r.mBad k) ∧
    (∀ k, (∀ b, e = .beat b → b.row ≠ k) → e ≠ .zeroRow k → tget 0 r'.acc k = tget 0 r.acc k ∧
      tget false r'.accPoison k = tget false r.accPoison k ∧ tget .good r'.accMark k = tget .good r.accMark k) ∧
    (∀ k, e = .zeroRow k → tget 0 r'.acc k = 0 ∧ tget false r'.accPoison k = false ∧ tget .good r'.accMark k = .good) ∧
    (∀ k, tget 0x00400060#32 r'.mks k = match e with
      | .special n x => if n = 0x20 + k ∧ k < 8 then x.truncate 32 &&& 0x007F007F#32 else tget 0x00400060#32 r'.mks k
      | _ => tget 0x00400060#32 r.mks k) ∧
    (∀ n x, e = .special n x →
      (n ∈ [0x08, 0x09, 0x0A, 0x10, 0x100, 0x101, 0x102] → r' = r) ∧
      (∀ k, 0x20 ≤ n → n < 0x28 → n ≠ 0x20 + k → tget 0x00400060#32 r'.mks k = tget 0x00400060#32 r.mks k) ∧
      c' = { c with
        lc := if n = 0x08 then x.truncate 32 else c.lc, rrb := if n = 0x09 then x.truncate 4 else c.rrb,
        awb := if n = 0x0A then x.truncate 11 else c.awb, fflg := if n = 0x10 then c.fflg &&& ~~~(x.truncate 6) else c.fflg,
        inseg := if n = 0x100 then false else c.inseg, status := if n = 0x102 then .ended else c.status } ∧
      (n = 0x101 → t.core.task.trig = true ∧ (s.core.task.trig = false → t.core.task.trigBound = s.core.barge.nextId)) ∧
      (n ≠ 0x101 → t.core.task = s.core.task)) ∧
    ((∀ n x, e ≠ .special n x) → t.core.task = s.core.task ∧ c' = { c with fflg := c'.fflg, verdict := c'.verdict }) ∧
    (∀ f, e = .flags f → c'.fflg = c.fflg ||| f) ∧
    ((∀ f, e ≠ .flags f) → (∀ b, e ≠ .beat b) → (∀ x, e ≠ .special 0x10 x) → c'.fflg = c.fflg) ∧
    ((∀ b, e ≠ .beat b) → (∀ a bs b, e ≠ .store a bs b) → c'.verdict = c.verdict) ∧
    (∀ a bs b, e = .store a bs b → a < 2 ^ 20 → bs.length ≤ 2 ^ 20 →
      let covers (q : Nat) : Prop := ∃ k, k < bs.length ∧ (a + k) % 2 ^ 20 = q
      let unit (n : Nat) : Prop := ∃ q, covers q ∧ q / 8 = n
      let line (n : Nat) : Prop := ∃ q, covers q ∧ q / 32 = n
      let spoilt (n : Nat) : Prop := unit n ∧ tget .good g.marks n = .uncorrectable ∧ ∃ q, q / 8 = n ∧ ¬ covers q
      let raced (n : Nat) : Prop := ∃ c ∈ s.core.barge.queue, c.landed n = true
      let tagged (l : Nat) : Prop := b = true ∨ (∃ n, n / 4 = l ∧ spoilt n) ∨
        (tget false g.poison l = true ∧ ∃ q, q / 32 = l ∧ ¬ covers q)
      let written (n : Nat) : Prop := ∀ k, k < bs.length → (a + k) % 2 ^ 20 / 8 = n → tget 0 g'.cells ((a + k) % 2 ^ 20) = bs.getD k 0
      (∀ n, unit n → ¬ raced n → written n ∧ tget .good g'.marks n = .good) ∧
      (∀ n, unit n → raced n → tget .good g.marks n ≠ .uncorrectable →
        (written n ∧ tget .good g'.marks n = .good) ∨
        ((∀ q, q / 8 = n → tget 0 g'.cells q = tget 0 g.cells q) ∧ tget .good g'.marks n = tget .good g.marks n)) ∧
      (∀ q, ¬ covers q → ¬ spoilt (q / 8) → tget 0 g'.cells q = tget 0 g.cells q) ∧
      (∀ n, ¬ unit n → tget .good g'.marks n = tget .good g.marks n) ∧
      (∀ l, line l → (∀ n, n / 4 = l → unit n → ¬ raced n) → (tget false g'.poison l = true ↔ tagged l)) ∧
      (∀ l, line l → (tget false g'.poison l = true ↔ tagged l) ∨ tget false g'.poison l = tget false g.poison l) ∧
      (∀ l, ¬ line l → tget false g'.poison l = tget false g.poison l) ∧
      (∀ y : StaleUnit, ¬ raced y.unit → (y ∈ g'.unseen ↔ y ∈ g.unseen ∧ ¬ unit y.unit))) ∧
    ((∀ a bs b, e ≠ .store a bs b) → g' = g ∧ t.core.barge = s.core.barge)

/-! ### Invariants -/

/-- Every memory, register file and table of the machine, as `Safety.wf` names them, stays in canonical form: a step from any state in which they are canonical leaves them so. -/
def Obligations.CanonicalFormKept : Prop :=
  ∀ s t : State, Safety.wf s = true → step s = .next t → Safety.wf t = true

/-- After reset every table is in canonical form, nothing is listed in any memory, no job, gang, generation or queue mapping exists,
BOOTST.PHASE is 1 and the boot sequence runs, and the general registers and counters of every tile read zero, the mask pairs 0x0040_0060
(R71, R73, R300, R301, R311). The zero of a register before any task, and of a byte of memory that nothing has written, is the model's own choice (log
entries 3 and 5). -/
def Obligations.ResetState : Prop :=
  let s := State.reset
  Safety.wf s = true ∧ s.mem.res = [] ∧ s.mem.host = [] ∧ s.mem.qsram = [] ∧ s.mem.marks = [] ∧ s.jobs = [] ∧ s.gangs = [] ∧ s.flights = [] ∧
  s.lk.threads = [] ∧ s.lk.nodes = [] ∧ s.platform.phase = 1 ∧ booting s = true ∧ s.clock = 0 ∧
  ∀ n k, let c := s.tile n
    tget 0 c.regs.s k = 0 ∧ tget 0 c.regs.v k = 0 ∧ tget false c.regs.p k = false ∧ tget 0 c.regs.acc k = 0 ∧
    tget 0x00400060#32 c.regs.mks k = 0x00400060#32 ∧ c.ctl.pc = 0 ∧ c.ctl.cyc = 0 ∧ c.ctl.lc = 0 ∧ c.ctl.rrb = 0 ∧ c.ctl.awb = 0 ∧
    c.ctl.fflg = 0 ∧ c.ctl.trap = none

end Statements
end

