-- ==== Sys2Proof/Laws/Bits.lean ====
section
/-! SUPPORT. Elements and bytes: what element `j` of a packed number is, and that packing and unpacking are inverse. -/

namespace Sys2Proof.Machine

theorem elems_length (w n x : Nat) : (elems w n x).length = n := by
  induction n generalizing x with
  | zero => rfl
  | succ n ih => simp [elems, ih]

/-- Element `j` of a number, read by shifting, is its element in the list. -/
theorem elems_getD (w n x j : Nat) (h : j < n) : (elems w n x).getD j 0 = elemAt w x j := by
  induction n generalizing x j with
  | zero => omega
  | succ n ih =>
    cases j with
    | zero => simp [elems, elemAt]
    | succ j =>
      simp only [elems, List.getD_cons_succ]
      rw [ih _ _ (by omega)]
      simp only [elemAt]
      rw [Nat.div_div_eq_div_mul, ← Nat.pow_add]
      congr 3
      ring

/-- A packed number lies below the bits of its elements. -/
theorem ofElems_lt (w : Nat) (xs : List Nat) : ofElems w xs < 2 ^ (8 * w * xs.length) := by
  induction xs with
  | nil => simp [ofElems]
  | cons x xs ih =>
    simp only [ofElems, List.length_cons]
    have hm : x % 2 ^ (8 * w) < 2 ^ (8 * w) := Nat.mod_lt _ (by positivity)
    calc x % 2 ^ (8 * w) + 2 ^ (8 * w) * ofElems w xs
        < 2 ^ (8 * w) * (ofElems w xs + 1) := by rw [Nat.mul_add]; omega
      _ ≤ 2 ^ (8 * w) * 2 ^ (8 * w * xs.length) := Nat.mul_le_mul_left _ ih
      _ = 2 ^ (8 * w * (xs.length + 1)) := by rw [← Nat.pow_add]; congr 1; ring

/-- Element `j` of a packed number is the `j`-th one packed, modulo its width; past the last it is 0. -/
theorem elemAt_ofElems (w : Nat) (xs : List Nat) (j : Nat) : elemAt w (ofElems w xs) j = xs.getD j 0 % 2 ^ (8 * w) := by
  induction xs generalizing j with
  | nil => simp [ofElems, elemAt]
  | cons x xs ih =>
    cases j with
    | zero => simp [ofElems, elemAt]
    | succ j =>
      rw [List.getD_cons_succ, ← ih j]
      simp only [elemAt, ofElems]
      have : 2 ^ (8 * w * (j + 1)) = 2 ^ (8 * w) * 2 ^ (8 * w * j) := by rw [← Nat.pow_add]; congr 1; ring
      rw [this, ← Nat.div_div_eq_div_mul, Nat.add_mul_div_left _ _ (by positivity), Nat.div_eq_of_lt (Nat.mod_lt _ (by positivity)),
        Nat.zero_add]

/-- Unpacking and packing again keeps the low bits. -/
theorem ofElems_elems (w n x : Nat) : ofElems w (elems w n x) = x % 2 ^ (8 * w * n) := by
  induction n generalizing x with
  | zero => simp [elems, ofElems, Nat.mod_one]
  | succ n ih =>
    simp only [elems, ofElems, ih, Nat.mod_mod]
    rw [show 8 * w * (n + 1) = 8 * w + 8 * w * n by ring, Nat.pow_add, Nat.mod_mul]

/-- A vector of `n` bits holds a packed number that fits it. -/
theorem toNat_ofElems (n w : Nat) (xs : List Nat) (h : 8 * w * xs.length ≤ n) :
    (BitVec.ofNat n (ofElems w xs)).toNat = ofElems w xs := by
  rw [BitVec.toNat_ofNat]
  exact Nat.mod_eq_of_lt (lt_of_lt_of_le (ofElems_lt w xs) (Nat.pow_le_pow_right (by omega) h))

/-- Element `j` of a vector that packs a list. -/
theorem elemAt_toNat_ofElems (n w : Nat) (xs : List Nat) (j : Nat) (h : 8 * w * xs.length ≤ n) :
    elemAt w (BitVec.ofNat n (ofElems w xs)).toNat j = xs.getD j 0 % 2 ^ (8 * w) := by
  rw [toNat_ofElems n w xs h, elemAt_ofElems]

theorem bytesOf_length (n x : Nat) : (bytesOf n x).length = n := by simp [bytesOf, elems_length]

/-- The bytes of a number spell its low bits. -/
theorem ofBytes_bytesOf (n x : Nat) : ofBytes (bytesOf n x) = x % 2 ^ (8 * n) := by
  have h : (bytesOf n x).map BitVec.toNat = elems 1 n x := by
    simp only [bytesOf, List.map_map]
    conv_rhs => rw [← List.map_id (elems 1 n x)]
    apply List.map_congr_left
    intro y hy
    have : y < 2 ^ 8 := by
      induction n generalizing x with
      | zero => simp [elems] at hy
      | succ n ih =>
        simp only [elems, List.mem_cons] at hy
        rcases hy with rfl | hy
        · exact Nat.mod_lt _ (by norm_num)
        · exact ih _ hy
    show (BitVec.ofNat 8 y).toNat = id y
    rw [BitVec.toNat_ofNat, Nat.mod_eq_of_lt this]
    rfl
  rw [ofBytes, h, ofElems_elems]

/-- An element lies below its width. -/
theorem elemAt_lt (w x j : Nat) : elemAt w x j < 2 ^ (8 * w) := Nat.mod_lt _ (by positivity)

/-- A wrapped integer lies below its width. -/
theorem wrapInt_lt (n : Nat) (x : Int) : wrapInt n x < 2 ^ n := by
  unfold wrapInt
  have h0 : (0 : Int) < (2 ^ n : Nat) := by positivity
  have := Int.emod_lt_of_pos x h0
  have := Int.emod_nonneg x (ne_of_gt h0)
  omega

theorem narrow_lt (sat signed : Bool) (n : Nat) (x : Int) : narrow sat signed n x < 2 ^ n := wrapInt_lt n _

/-- A field of `n` bits lies below `2 ^ n`. -/
theorem bits_lt (x hi lo : Nat) : bits x hi lo < 2 ^ (hi + 1 - lo) := Nat.mod_lt _ (by positivity)

end Sys2Proof.Machine
end

