-- ==== Sys2Proof/Laws/Issue.lean ====
section
/-! SUPPORT. What issuing one slot word can do: suppressed, performed, or only marking its latch (R57, R61, R64, R81). -/

namespace Sys2Proof.Machine

theorem firstFault_none_iff (fs : List IssueFault) : firstFault fs = none ↔ fs = [] := by
  cases fs with
  | nil => simp [firstFault]
  | cons f fs =>
    simp only [firstFault, reduceCtorEq, iff_false]
    cases firstFault fs <;> simp
    split <;> simp

/-- A word in a vetted bundle is performed. -/
theorem issueWord_vetted (i : Instr) (s : State) (f : State → State) (h : s.vetted = true) :
    issueWord i s f = .next (perform i s f) := by
  simp [issueWord, h]

/-- A word by itself to which no cause applies is performed. -/
theorem issueWord_alone (i : Instr) (s : State) (f : State → State) (h : bundleFaults s [i] = []) :
    issueWord i s f = .next (perform i s f) := by
  unfold issueWord
  split
  · rfl
  · simp [h, firstFault]

/-- Everything issuing a word can do. -/
theorem issueWord_cases (i : Instr) (s t : State) (f : State → State) (h : issueWord i s f = .next t) :
    (s.vetted = false ∧ ∃ x, firstFault (bundleFaults s [i]) = some x ∧ t = takeTrap s x) ∨
    (predOf s i = true ∧ t = f (occupy i s)) ∨ (predOf s i = false ∧ t = markLatch i (occupy i s)) := by
  have key : t = perform i s f ∨ (s.vetted = false ∧ ∃ x, firstFault (bundleFaults s [i]) = some x ∧ t = takeTrap s x) := by
    unfold issueWord at h
    split at h
    · left; injection h with h; exact h.symm
    · rename_i hv
      split at h
      · rename_i x hx
        right; refine ⟨by simpa using hv, x, hx, ?_⟩; injection h with h; exact h.symm
      · left; injection h with h; exact h.symm
  rcases key with h | h
  · right
    unfold perform at h
    split at h
    · left; exact ⟨by assumption, h⟩
    · right; exact ⟨by simpa using ‹¬predOf s i = true›, h⟩
  · left; exact h

/-- A word that passes, under a predicate that reads 1, has its effect on the state that its occupancy leaves. -/
theorem issueWord_runs (i : Instr) (s : State) (f : State → State)
    (h : s.vetted = true ∨ bundleFaults s [i] = []) (hp : predOf s i = true) :
    issueWord i s f = .next (f (occupy i s)) := by
  have h' : issueWord i s f = .next (perform i s f) := h.elim (issueWord_vetted i s f) (issueWord_alone i s f)
  simp [h', perform, hp]

/-- A word of one beat that loads no Hadamard latch occupies nothing. -/
theorem occupy_single (i : Instr) (s : State) (u : Use) (hu : useOf i = some u) (hb : ¬ 1 < u.beats)
    (hd : ∀ l, u.dest ≠ .hadamard l) : occupy i s = s := by
  unfold occupy
  rw [hu]
  simp only [hb, if_false]
  simp only [State.mapCtl, State.mapCore]

end Sys2Proof.Machine
end

