-- ==== Sys2Proof/Laws/State.lean ====
section
/-! SUPPORT. One lemma per field for each named update of the state, so that no later proof unfolds a record update. -/

namespace Sys2Proof.Machine

/-! ### The tile checked out -/

@[simp] theorem mapCore_clock (s : State) (f : Tile → Tile) : (s.mapCore f).clock = s.clock := rfl
@[simp] theorem mapCore_turn (s : State) (f : Tile → Tile) : (s.mapCore f).turn = s.turn := rfl
@[simp] theorem mapCore_cur (s : State) (f : Tile → Tile) : (s.mapCore f).cur = s.cur := rfl
@[simp] theorem mapCore_core (s : State) (f : Tile → Tile) : (s.mapCore f).core = f s.core := rfl
@[simp] theorem mapCore_tiles (s : State) (f : Tile → Tile) : (s.mapCore f).tiles = s.tiles := rfl
@[simp] theorem mapCore_vetted (s : State) (f : Tile → Tile) : (s.mapCore f).vetted = s.vetted := rfl
@[simp] theorem mapCore_fresh (s : State) (f : Tile → Tile) : (s.mapCore f).fresh = s.fresh := rfl
@[simp] theorem mapCore_agenda (s : State) (f : Tile → Tile) : (s.mapCore f).agenda = s.agenda := rfl
@[simp] theorem mapCore_flights (s : State) (f : Tile → Tile) : (s.mapCore f).flights = s.flights := rfl
@[simp] theorem mapCore_saved (s : State) (f : Tile → Tile) : (s.mapCore f).saved = s.saved := rfl
@[simp] theorem mapCore_gangs (s : State) (f : Tile → Tile) : (s.mapCore f).gangs = s.gangs := rfl
@[simp] theorem mapCore_jobs (s : State) (f : Tile → Tile) : (s.mapCore f).jobs = s.jobs := rfl
@[simp] theorem mapCore_lk (s : State) (f : Tile → Tile) : (s.mapCore f).lk = s.lk := rfl
@[simp] theorem mapCore_fabric (s : State) (f : Tile → Tile) : (s.mapCore f).fabric = s.fabric := rfl
@[simp] theorem mapCore_platform (s : State) (f : Tile → Tile) : (s.mapCore f).platform = s.platform := rfl
@[simp] theorem mapCore_mem (s : State) (f : Tile → Tile) : (s.mapCore f).mem = s.mem := rfl

/-! ### mapCtl -/

@[simp] theorem mapCtl_clock (s : State) (f : Ctl → Ctl) : (s.mapCtl f).clock = s.clock := rfl
@[simp] theorem mapCtl_turn (s : State) (f : Ctl → Ctl) : (s.mapCtl f).turn = s.turn := rfl
@[simp] theorem mapCtl_cur (s : State) (f : Ctl → Ctl) : (s.mapCtl f).cur = s.cur := rfl
@[simp] theorem mapCtl_tiles (s : State) (f : Ctl → Ctl) : (s.mapCtl f).tiles = s.tiles := rfl
@[simp] theorem mapCtl_vetted (s : State) (f : Ctl → Ctl) : (s.mapCtl f).vetted = s.vetted := rfl
@[simp] theorem mapCtl_fresh (s : State) (f : Ctl → Ctl) : (s.mapCtl f).fresh = s.fresh := rfl
@[simp] theorem mapCtl_agenda (s : State) (f : Ctl → Ctl) : (s.mapCtl f).agenda = s.agenda := rfl
@[simp] theorem mapCtl_flights (s : State) (f : Ctl → Ctl) : (s.mapCtl f).flights = s.flights := rfl
@[simp] theorem mapCtl_saved (s : State) (f : Ctl → Ctl) : (s.mapCtl f).saved = s.saved := rfl
@[simp] theorem mapCtl_gangs (s : State) (f : Ctl → Ctl) : (s.mapCtl f).gangs = s.gangs := rfl
@[simp] theorem mapCtl_jobs (s : State) (f : Ctl → Ctl) : (s.mapCtl f).jobs = s.jobs := rfl
@[simp] theorem mapCtl_lk (s : State) (f : Ctl → Ctl) : (s.mapCtl f).lk = s.lk := rfl
@[simp] theorem mapCtl_fabric (s : State) (f : Ctl → Ctl) : (s.mapCtl f).fabric = s.fabric := rfl
@[simp] theorem mapCtl_platform (s : State) (f : Ctl → Ctl) : (s.mapCtl f).platform = s.platform := rfl
@[simp] theorem mapCtl_mem (s : State) (f : Ctl → Ctl) : (s.mapCtl f).mem = s.mem := rfl
@[simp] theorem mapCtl_core_ctl (s : State) (f : Ctl → Ctl) : (s.mapCtl f).core.ctl = f s.core.ctl := rfl
@[simp] theorem mapCtl_core_task (s : State) (f : Ctl → Ctl) : (s.mapCtl f).core.task = s.core.task := rfl
@[simp] theorem mapCtl_core_regs (s : State) (f : Ctl → Ctl) : (s.mapCtl f).core.regs = s.core.regs := rfl
@[simp] theorem mapCtl_core_results (s : State) (f : Ctl → Ctl) : (s.mapCtl f).core.results = s.core.results := rfl
@[simp] theorem mapCtl_core_staging (s : State) (f : Ctl → Ctl) : (s.mapCtl f).core.staging = s.core.staging := rfl
@[simp] theorem mapCtl_core_isram (s : State) (f : Ctl → Ctl) : (s.mapCtl f).core.isram = s.core.isram := rfl
@[simp] theorem mapCtl_core_vault (s : State) (f : Ctl → Ctl) : (s.mapCtl f).core.vault = s.core.vault := rfl
@[simp] theorem mapCtl_core_canal (s : State) (f : Ctl → Ctl) : (s.mapCtl f).core.canal = s.core.canal := rfl
@[simp] theorem mapCtl_core_barge (s : State) (f : Ctl → Ctl) : (s.mapCtl f).core.barge = s.core.barge := rfl

/-! ### mapRegs -/

@[simp] theorem mapRegs_clock (s : State) (f : Regs → Regs) : (s.mapRegs f).clock = s.clock := rfl
@[simp] theorem mapRegs_turn (s : State) (f : Regs → Regs) : (s.mapRegs f).turn = s.turn := rfl
@[simp] theorem mapRegs_cur (s : State) (f : Regs → Regs) : (s.mapRegs f).cur = s.cur := rfl
@[simp] theorem mapRegs_tiles (s : State) (f : Regs → Regs) : (s.mapRegs f).tiles = s.tiles := rfl
@[simp] theorem mapRegs_vetted (s : State) (f : Regs → Regs) : (s.mapRegs f).vetted = s.vetted := rfl
@[simp] theorem mapRegs_fresh (s : State) (f : Regs → Regs) : (s.mapRegs f).fresh = s.fresh := rfl
@[simp] theorem mapRegs_agenda (s : State) (f : Regs → Regs) : (s.mapRegs f).agenda = s.agenda := rfl
@[simp] theorem mapRegs_flights (s : State) (f : Regs → Regs) : (s.mapRegs f).flights = s.flights := rfl
@[simp] theorem mapRegs_saved (s : State) (f : Regs → Regs) : (s.mapRegs f).saved = s.saved := rfl
@[simp] theorem mapRegs_gangs (s : State) (f : Regs → Regs) : (s.mapRegs f).gangs = s.gangs := rfl
@[simp] theorem mapRegs_jobs (s : State) (f : Regs → Regs) : (s.mapRegs f).jobs = s.jobs := rfl
@[simp] theorem mapRegs_lk (s : State) (f : Regs → Regs) : (s.mapRegs f).lk = s.lk := rfl
@[simp] theorem mapRegs_fabric (s : State) (f : Regs → Regs) : (s.mapRegs f).fabric = s.fabric := rfl
@[simp] theorem mapRegs_platform (s : State) (f : Regs → Regs) : (s.mapRegs f).platform = s.platform := rfl
@[simp] theorem mapRegs_mem (s : State) (f : Regs → Regs) : (s.mapRegs f).mem = s.mem := rfl
@[simp] theorem mapRegs_core_ctl (s : State) (f : Regs → Regs) : (s.mapRegs f).core.ctl = s.core.ctl := rfl
@[simp] theorem mapRegs_core_task (s : State) (f : Regs → Regs) : (s.mapRegs f).core.task = s.core.task := rfl
@[simp] theorem mapRegs_core_regs (s : State) (f : Regs → Regs) : (s.mapRegs f).core.regs = f s.core.regs := rfl
@[simp] theorem mapRegs_core_results (s : State) (f : Regs → Regs) : (s.mapRegs f).core.results = s.core.results := rfl
@[simp] theorem mapRegs_core_staging (s : State) (f : Regs → Regs) : (s.mapRegs f).core.staging = s.core.staging := rfl
@[simp] theorem mapRegs_core_isram (s : State) (f : Regs → Regs) : (s.mapRegs f).core.isram = s.core.isram := rfl
@[simp] theorem mapRegs_core_vault (s : State) (f : Regs → Regs) : (s.mapRegs f).core.vault = s.core.vault := rfl
@[simp] theorem mapRegs_core_canal (s : State) (f : Regs → Regs) : (s.mapRegs f).core.canal = s.core.canal := rfl
@[simp] theorem mapRegs_core_barge (s : State) (f : Regs → Regs) : (s.mapRegs f).core.barge = s.core.barge := rfl

/-! ### mapStaging -/

@[simp] theorem mapStaging_clock (s : State) (f : Staging → Staging) : (s.mapStaging f).clock = s.clock := rfl
@[simp] theorem mapStaging_turn (s : State) (f : Staging → Staging) : (s.mapStaging f).turn = s.turn := rfl
@[simp] theorem mapStaging_cur (s : State) (f : Staging → Staging) : (s.mapStaging f).cur = s.cur := rfl
@[simp] theorem mapStaging_tiles (s : State) (f : Staging → Staging) : (s.mapStaging f).tiles = s.tiles := rfl
@[simp] theorem mapStaging_vetted (s : State) (f : Staging → Staging) : (s.mapStaging f).vetted = s.vetted := rfl
@[simp] theorem mapStaging_fresh (s : State) (f : Staging → Staging) : (s.mapStaging f).fresh = s.fresh := rfl
@[simp] theorem mapStaging_agenda (s : State) (f : Staging → Staging) : (s.mapStaging f).agenda = s.agenda := rfl
@[simp] theorem mapStaging_flights (s : State) (f : Staging → Staging) : (s.mapStaging f).flights = s.flights := rfl
@[simp] theorem mapStaging_saved (s : State) (f : Staging → Staging) : (s.mapStaging f).saved = s.saved := rfl
@[simp] theorem mapStaging_gangs (s : State) (f : Staging → Staging) : (s.mapStaging f).gangs = s.gangs := rfl
@[simp] theorem mapStaging_jobs (s : State) (f : Staging → Staging) : (s.mapStaging f).jobs = s.jobs := rfl
@[simp] theorem mapStaging_lk (s : State) (f : Staging → Staging) : (s.mapStaging f).lk = s.lk := rfl
@[simp] theorem mapStaging_fabric (s : State) (f : Staging → Staging) : (s.mapStaging f).fabric = s.fabric := rfl
@[simp] theorem mapStaging_platform (s : State) (f : Staging → Staging) : (s.mapStaging f).platform = s.platform := rfl
@[simp] theorem mapStaging_mem (s : State) (f : Staging → Staging) : (s.mapStaging f).mem = s.mem := rfl
@[simp] theorem mapStaging_core_ctl (s : State) (f : Staging → Staging) : (s.mapStaging f).core.ctl = s.core.ctl := rfl
@[simp] theorem mapStaging_core_task (s : State) (f : Staging → Staging) : (s.mapStaging f).core.task = s.core.task := rfl
@[simp] theorem mapStaging_core_regs (s : State) (f : Staging → Staging) : (s.mapStaging f).core.regs = s.core.regs := rfl
@[simp] theorem mapStaging_core_results (s : State) (f : Staging → Staging) : (s.mapStaging f).core.results = s.core.results := rfl
@[simp] theorem mapStaging_core_staging (s : State) (f : Staging → Staging) : (s.mapStaging f).core.staging = f s.core.staging := rfl
@[simp] theorem mapStaging_core_isram (s : State) (f : Staging → Staging) : (s.mapStaging f).core.isram = s.core.isram := rfl
@[simp] theorem mapStaging_core_vault (s : State) (f : Staging → Staging) : (s.mapStaging f).core.vault = s.core.vault := rfl
@[simp] theorem mapStaging_core_canal (s : State) (f : Staging → Staging) : (s.mapStaging f).core.canal = s.core.canal := rfl
@[simp] theorem mapStaging_core_barge (s : State) (f : Staging → Staging) : (s.mapStaging f).core.barge = s.core.barge := rfl

/-! ### mapVault -/

@[simp] theorem mapVault_clock (s : State) (f : Vault → Vault) : (s.mapVault f).clock = s.clock := rfl
@[simp] theorem mapVault_turn (s : State) (f : Vault → Vault) : (s.mapVault f).turn = s.turn := rfl
@[simp] theorem mapVault_cur (s : State) (f : Vault → Vault) : (s.mapVault f).cur = s.cur := rfl
@[simp] theorem mapVault_tiles (s : State) (f : Vault → Vault) : (s.mapVault f).tiles = s.tiles := rfl
@[simp] theorem mapVault_vetted (s : State) (f : Vault → Vault) : (s.mapVault f).vetted = s.vetted := rfl
@[simp] theorem mapVault_fresh (s : State) (f : Vault → Vault) : (s.mapVault f).fresh = s.fresh := rfl
@[simp] theorem mapVault_agenda (s : State) (f : Vault → Vault) : (s.mapVault f).agenda = s.agenda := rfl
@[simp] theorem mapVault_flights (s : State) (f : Vault → Vault) : (s.mapVault f).flights = s.flights := rfl
@[simp] theorem mapVault_saved (s : State) (f : Vault → Vault) : (s.mapVault f).saved = s.saved := rfl
@[simp] theorem mapVault_gangs (s : State) (f : Vault → Vault) : (s.mapVault f).gangs = s.gangs := rfl
@[simp] theorem mapVault_jobs (s : State) (f : Vault → Vault) : (s.mapVault f).jobs = s.jobs := rfl
@[simp] theorem mapVault_lk (s : State) (f : Vault → Vault) : (s.mapVault f).lk = s.lk := rfl
@[simp] theorem mapVault_fabric (s : State) (f : Vault → Vault) : (s.mapVault f).fabric = s.fabric := rfl
@[simp] theorem mapVault_platform (s : State) (f : Vault → Vault) : (s.mapVault f).platform = s.platform := rfl
@[simp] theorem mapVault_mem (s : State) (f : Vault → Vault) : (s.mapVault f).mem = s.mem := rfl
@[simp] theorem mapVault_core_ctl (s : State) (f : Vault → Vault) : (s.mapVault f).core.ctl = s.core.ctl := rfl
@[simp] theorem mapVault_core_task (s : State) (f : Vault → Vault) : (s.mapVault f).core.task = s.core.task := rfl
@[simp] theorem mapVault_core_regs (s : State) (f : Vault → Vault) : (s.mapVault f).core.regs = s.core.regs := rfl
@[simp] theorem mapVault_core_results (s : State) (f : Vault → Vault) : (s.mapVault f).core.results = s.core.results := rfl
@[simp] theorem mapVault_core_staging (s : State) (f : Vault → Vault) : (s.mapVault f).core.staging = s.core.staging := rfl
@[simp] theorem mapVault_core_isram (s : State) (f : Vault → Vault) : (s.mapVault f).core.isram = s.core.isram := rfl
@[simp] theorem mapVault_core_vault (s : State) (f : Vault → Vault) : (s.mapVault f).core.vault = f s.core.vault := rfl
@[simp] theorem mapVault_core_canal (s : State) (f : Vault → Vault) : (s.mapVault f).core.canal = s.core.canal := rfl
@[simp] theorem mapVault_core_barge (s : State) (f : Vault → Vault) : (s.mapVault f).core.barge = s.core.barge := rfl

/-! ### mapCanal -/

@[simp] theorem mapCanal_clock (s : State) (f : Canal → Canal) : (s.mapCanal f).clock = s.clock := rfl
@[simp] theorem mapCanal_turn (s : State) (f : Canal → Canal) : (s.mapCanal f).turn = s.turn := rfl
@[simp] theorem mapCanal_cur (s : State) (f : Canal → Canal) : (s.mapCanal f).cur = s.cur := rfl
@[simp] theorem mapCanal_tiles (s : State) (f : Canal → Canal) : (s.mapCanal f).tiles = s.tiles := rfl
@[simp] theorem mapCanal_vetted (s : State) (f : Canal → Canal) : (s.mapCanal f).vetted = s.vetted := rfl
@[simp] theorem mapCanal_fresh (s : State) (f : Canal → Canal) : (s.mapCanal f).fresh = s.fresh := rfl
@[simp] theorem mapCanal_agenda (s : State) (f : Canal → Canal) : (s.mapCanal f).agenda = s.agenda := rfl
@[simp] theorem mapCanal_flights (s : State) (f : Canal → Canal) : (s.mapCanal f).flights = s.flights := rfl
@[simp] theorem mapCanal_saved (s : State) (f : Canal → Canal) : (s.mapCanal f).saved = s.saved := rfl
@[simp] theorem mapCanal_gangs (s : State) (f : Canal → Canal) : (s.mapCanal f).gangs = s.gangs := rfl
@[simp] theorem mapCanal_jobs (s : State) (f : Canal → Canal) : (s.mapCanal f).jobs = s.jobs := rfl
@[simp] theorem mapCanal_lk (s : State) (f : Canal → Canal) : (s.mapCanal f).lk = s.lk := rfl
@[simp] theorem mapCanal_fabric (s : State) (f : Canal → Canal) : (s.mapCanal f).fabric = s.fabric := rfl
@[simp] theorem mapCanal_platform (s : State) (f : Canal → Canal) : (s.mapCanal f).platform = s.platform := rfl
@[simp] theorem mapCanal_mem (s : State) (f : Canal → Canal) : (s.mapCanal f).mem = s.mem := rfl
@[simp] theorem mapCanal_core_ctl (s : State) (f : Canal → Canal) : (s.mapCanal f).core.ctl = s.core.ctl := rfl
@[simp] theorem mapCanal_core_task (s : State) (f : Canal → Canal) : (s.mapCanal f).core.task = s.core.task := rfl
@[simp] theorem mapCanal_core_regs (s : State) (f : Canal → Canal) : (s.mapCanal f).core.regs = s.core.regs := rfl
@[simp] theorem mapCanal_core_results (s : State) (f : Canal → Canal) : (s.mapCanal f).core.results = s.core.results := rfl
@[simp] theorem mapCanal_core_staging (s : State) (f : Canal → Canal) : (s.mapCanal f).core.staging = s.core.staging := rfl
@[simp] theorem mapCanal_core_isram (s : State) (f : Canal → Canal) : (s.mapCanal f).core.isram = s.core.isram := rfl
@[simp] theorem mapCanal_core_vault (s : State) (f : Canal → Canal) : (s.mapCanal f).core.vault = s.core.vault := rfl
@[simp] theorem mapCanal_core_canal (s : State) (f : Canal → Canal) : (s.mapCanal f).core.canal = f s.core.canal := rfl
@[simp] theorem mapCanal_core_barge (s : State) (f : Canal → Canal) : (s.mapCanal f).core.barge = s.core.barge := rfl

/-! ### mapBarge -/

@[simp] theorem mapBarge_clock (s : State) (f : Barge → Barge) : (s.mapBarge f).clock = s.clock := rfl
@[simp] theorem mapBarge_turn (s : State) (f : Barge → Barge) : (s.mapBarge f).turn = s.turn := rfl
@[simp] theorem mapBarge_cur (s : State) (f : Barge → Barge) : (s.mapBarge f).cur = s.cur := rfl
@[simp] theorem mapBarge_tiles (s : State) (f : Barge → Barge) : (s.mapBarge f).tiles = s.tiles := rfl
@[simp] theorem mapBarge_vetted (s : State) (f : Barge → Barge) : (s.mapBarge f).vetted = s.vetted := rfl
@[simp] theorem mapBarge_fresh (s : State) (f : Barge → Barge) : (s.mapBarge f).fresh = s.fresh := rfl
@[simp] theorem mapBarge_agenda (s : State) (f : Barge → Barge) : (s.mapBarge f).agenda = s.agenda := rfl
@[simp] theorem mapBarge_flights (s : State) (f : Barge → Barge) : (s.mapBarge f).flights = s.flights := rfl
@[simp] theorem mapBarge_saved (s : State) (f : Barge → Barge) : (s.mapBarge f).saved = s.saved := rfl
@[simp] theorem mapBarge_gangs (s : State) (f : Barge → Barge) : (s.mapBarge f).gangs = s.gangs := rfl
@[simp] theorem mapBarge_jobs (s : State) (f : Barge → Barge) : (s.mapBarge f).jobs = s.jobs := rfl
@[simp] theorem mapBarge_lk (s : State) (f : Barge → Barge) : (s.mapBarge f).lk = s.lk := rfl
@[simp] theorem mapBarge_fabric (s : State) (f : Barge → Barge) : (s.mapBarge f).fabric = s.fabric := rfl
@[simp] theorem mapBarge_platform (s : State) (f : Barge → Barge) : (s.mapBarge f).platform = s.platform := rfl
@[simp] theorem mapBarge_mem (s : State) (f : Barge → Barge) : (s.mapBarge f).mem = s.mem := rfl
@[simp] theorem mapBarge_core_ctl (s : State) (f : Barge → Barge) : (s.mapBarge f).core.ctl = s.core.ctl := rfl
@[simp] theorem mapBarge_core_task (s : State) (f : Barge → Barge) : (s.mapBarge f).core.task = s.core.task := rfl
@[simp] theorem mapBarge_core_regs (s : State) (f : Barge → Barge) : (s.mapBarge f).core.regs = s.core.regs := rfl
@[simp] theorem mapBarge_core_results (s : State) (f : Barge → Barge) : (s.mapBarge f).core.results = s.core.results := rfl
@[simp] theorem mapBarge_core_staging (s : State) (f : Barge → Barge) : (s.mapBarge f).core.staging = s.core.staging := rfl
@[simp] theorem mapBarge_core_isram (s : State) (f : Barge → Barge) : (s.mapBarge f).core.isram = s.core.isram := rfl
@[simp] theorem mapBarge_core_vault (s : State) (f : Barge → Barge) : (s.mapBarge f).core.vault = s.core.vault := rfl
@[simp] theorem mapBarge_core_canal (s : State) (f : Barge → Barge) : (s.mapBarge f).core.canal = s.core.canal := rfl
@[simp] theorem mapBarge_core_barge (s : State) (f : Barge → Barge) : (s.mapBarge f).core.barge = f s.core.barge := rfl

/-! ### mapTask -/

@[simp] theorem mapTask_clock (s : State) (f : Task → Task) : (s.mapTask f).clock = s.clock := rfl
@[simp] theorem mapTask_turn (s : State) (f : Task → Task) : (s.mapTask f).turn = s.turn := rfl
@[simp] theorem mapTask_cur (s : State) (f : Task → Task) : (s.mapTask f).cur = s.cur := rfl
@[simp] theorem mapTask_tiles (s : State) (f : Task → Task) : (s.mapTask f).tiles = s.tiles := rfl
@[simp] theorem mapTask_vetted (s : State) (f : Task → Task) : (s.mapTask f).vetted = s.vetted := rfl
@[simp] theorem mapTask_fresh (s : State) (f : Task → Task) : (s.mapTask f).fresh = s.fresh := rfl
@[simp] theorem mapTask_agenda (s : State) (f : Task → Task) : (s.mapTask f).agenda = s.agenda := rfl
@[simp] theorem mapTask_flights (s : State) (f : Task → Task) : (s.mapTask f).flights = s.flights := rfl
@[simp] theorem mapTask_saved (s : State) (f : Task → Task) : (s.mapTask f).saved = s.saved := rfl
@[simp] theorem mapTask_gangs (s : State) (f : Task → Task) : (s.mapTask f).gangs = s.gangs := rfl
@[simp] theorem mapTask_jobs (s : State) (f : Task → Task) : (s.mapTask f).jobs = s.jobs := rfl
@[simp] theorem mapTask_lk (s : State) (f : Task → Task) : (s.mapTask f).lk = s.lk := rfl
@[simp] theorem mapTask_fabric (s : State) (f : Task → Task) : (s.mapTask f).fabric = s.fabric := rfl
@[simp] theorem mapTask_platform (s : State) (f : Task → Task) : (s.mapTask f).platform = s.platform := rfl
@[simp] theorem mapTask_mem (s : State) (f : Task → Task) : (s.mapTask f).mem = s.mem := rfl
@[simp] theorem mapTask_core_ctl (s : State) (f : Task → Task) : (s.mapTask f).core.ctl = s.core.ctl := rfl
@[simp] theorem mapTask_core_task (s : State) (f : Task → Task) : (s.mapTask f).core.task = f s.core.task := rfl
@[simp] theorem mapTask_core_regs (s : State) (f : Task → Task) : (s.mapTask f).core.regs = s.core.regs := rfl
@[simp] theorem mapTask_core_results (s : State) (f : Task → Task) : (s.mapTask f).core.results = s.core.results := rfl
@[simp] theorem mapTask_core_staging (s : State) (f : Task → Task) : (s.mapTask f).core.staging = s.core.staging := rfl
@[simp] theorem mapTask_core_isram (s : State) (f : Task → Task) : (s.mapTask f).core.isram = s.core.isram := rfl
@[simp] theorem mapTask_core_vault (s : State) (f : Task → Task) : (s.mapTask f).core.vault = s.core.vault := rfl
@[simp] theorem mapTask_core_canal (s : State) (f : Task → Task) : (s.mapTask f).core.canal = s.core.canal := rfl
@[simp] theorem mapTask_core_barge (s : State) (f : Task → Task) : (s.mapTask f).core.barge = s.core.barge := rfl

/-! ### mapLk -/

@[simp] theorem mapLk_clock (s : State) (f : Lockkeeper → Lockkeeper) : (s.mapLk f).clock = s.clock := rfl
@[simp] theorem mapLk_turn (s : State) (f : Lockkeeper → Lockkeeper) : (s.mapLk f).turn = s.turn := rfl
@[simp] theorem mapLk_cur (s : State) (f : Lockkeeper → Lockkeeper) : (s.mapLk f).cur = s.cur := rfl
@[simp] theorem mapLk_core (s : State) (f : Lockkeeper → Lockkeeper) : (s.mapLk f).core = s.core := rfl
@[simp] theorem mapLk_tiles (s : State) (f : Lockkeeper → Lockkeeper) : (s.mapLk f).tiles = s.tiles := rfl
@[simp] theorem mapLk_vetted (s : State) (f : Lockkeeper → Lockkeeper) : (s.mapLk f).vetted = s.vetted := rfl
@[simp] theorem mapLk_fresh (s : State) (f : Lockkeeper → Lockkeeper) : (s.mapLk f).fresh = s.fresh := rfl
@[simp] theorem mapLk_agenda (s : State) (f : Lockkeeper → Lockkeeper) : (s.mapLk f).agenda = s.agenda := rfl
@[simp] theorem mapLk_flights (s : State) (f : Lockkeeper → Lockkeeper) : (s.mapLk f).flights = s.flights := rfl
@[simp] theorem mapLk_saved (s : State) (f : Lockkeeper → Lockkeeper) : (s.mapLk f).saved = s.saved := rfl
@[simp] theorem mapLk_gangs (s : State) (f : Lockkeeper → Lockkeeper) : (s.mapLk f).gangs = s.gangs := rfl
@[simp] theorem mapLk_jobs (s : State) (f : Lockkeeper → Lockkeeper) : (s.mapLk f).jobs = s.jobs := rfl
@[simp] theorem mapLk_lk (s : State) (f : Lockkeeper → Lockkeeper) : (s.mapLk f).lk = f s.lk := rfl
@[simp] theorem mapLk_fabric (s : State) (f : Lockkeeper → Lockkeeper) : (s.mapLk f).fabric = s.fabric := rfl
@[simp] theorem mapLk_platform (s : State) (f : Lockkeeper → Lockkeeper) : (s.mapLk f).platform = s.platform := rfl
@[simp] theorem mapLk_mem (s : State) (f : Lockkeeper → Lockkeeper) : (s.mapLk f).mem = s.mem := rfl

/-! ### mapMem -/

@[simp] theorem mapMem_clock (s : State) (f : Mem → Mem) : (s.mapMem f).clock = s.clock := rfl
@[simp] theorem mapMem_turn (s : State) (f : Mem → Mem) : (s.mapMem f).turn = s.turn := rfl
@[simp] theorem mapMem_cur (s : State) (f : Mem → Mem) : (s.mapMem f).cur = s.cur := rfl
@[simp] theorem mapMem_core (s : State) (f : Mem → Mem) : (s.mapMem f).core = s.core := rfl
@[simp] theorem mapMem_tiles (s : State) (f : Mem → Mem) : (s.mapMem f).tiles = s.tiles := rfl
@[simp] theorem mapMem_vetted (s : State) (f : Mem → Mem) : (s.mapMem f).vetted = s.vetted := rfl
@[simp] theorem mapMem_fresh (s : State) (f : Mem → Mem) : (s.mapMem f).fresh = s.fresh := rfl
@[simp] theorem mapMem_agenda (s : State) (f : Mem → Mem) : (s.mapMem f).agenda = s.agenda := rfl
@[simp] theorem mapMem_flights (s : State) (f : Mem → Mem) : (s.mapMem f).flights = s.flights := rfl
@[simp] theorem mapMem_saved (s : State) (f : Mem → Mem) : (s.mapMem f).saved = s.saved := rfl
@[simp] theorem mapMem_gangs (s : State) (f : Mem → Mem) : (s.mapMem f).gangs = s.gangs := rfl
@[simp] theorem mapMem_jobs (s : State) (f : Mem → Mem) : (s.mapMem f).jobs = s.jobs := rfl
@[simp] theorem mapMem_lk (s : State) (f : Mem → Mem) : (s.mapMem f).lk = s.lk := rfl
@[simp] theorem mapMem_fabric (s : State) (f : Mem → Mem) : (s.mapMem f).fabric = s.fabric := rfl
@[simp] theorem mapMem_platform (s : State) (f : Mem → Mem) : (s.mapMem f).platform = s.platform := rfl
@[simp] theorem mapMem_mem (s : State) (f : Mem → Mem) : (s.mapMem f).mem = f s.mem := rfl

/-! ### mapPlatform -/

@[simp] theorem mapPlatform_clock (s : State) (f : Platform → Platform) : (s.mapPlatform f).clock = s.clock := rfl
@[simp] theorem mapPlatform_turn (s : State) (f : Platform → Platform) : (s.mapPlatform f).turn = s.turn := rfl
@[simp] theorem mapPlatform_cur (s : State) (f : Platform → Platform) : (s.mapPlatform f).cur = s.cur := rfl
@[simp] theorem mapPlatform_core (s : State) (f : Platform → Platform) : (s.mapPlatform f).core = s.core := rfl
@[simp] theorem mapPlatform_tiles (s : State) (f : Platform → Platform) : (s.mapPlatform f).tiles = s.tiles := rfl
@[simp] theorem mapPlatform_vetted (s : State) (f : Platform → Platform) : (s.mapPlatform f).vetted = s.vetted := rfl
@[simp] theorem mapPlatform_fresh (s : State) (f : Platform → Platform) : (s.mapPlatform f).fresh = s.fresh := rfl
@[simp] theorem mapPlatform_agenda (s : State) (f : Platform → Platform) : (s.mapPlatform f).agenda = s.agenda := rfl
@[simp] theorem mapPlatform_flights (s : State) (f : Platform → Platform) : (s.mapPlatform f).flights = s.flights := rfl
@[simp] theorem mapPlatform_saved (s : State) (f : Platform → Platform) : (s.mapPlatform f).saved = s.saved := rfl
@[simp] theorem mapPlatform_gangs (s : State) (f : Platform → Platform) : (s.mapPlatform f).gangs = s.gangs := rfl
@[simp] theorem mapPlatform_jobs (s : State) (f : Platform → Platform) : (s.mapPlatform f).jobs = s.jobs := rfl
@[simp] theorem mapPlatform_lk (s : State) (f : Platform → Platform) : (s.mapPlatform f).lk = s.lk := rfl
@[simp] theorem mapPlatform_fabric (s : State) (f : Platform → Platform) : (s.mapPlatform f).fabric = s.fabric := rfl
@[simp] theorem mapPlatform_platform (s : State) (f : Platform → Platform) : (s.mapPlatform f).platform = f s.platform := rfl
@[simp] theorem mapPlatform_mem (s : State) (f : Platform → Platform) : (s.mapPlatform f).mem = s.mem := rfl

/-! ### mapFabric -/

@[simp] theorem mapFabric_clock (s : State) (f : Fabric → Fabric) : (s.mapFabric f).clock = s.clock := rfl
@[simp] theorem mapFabric_turn (s : State) (f : Fabric → Fabric) : (s.mapFabric f).turn = s.turn := rfl
@[simp] theorem mapFabric_cur (s : State) (f : Fabric → Fabric) : (s.mapFabric f).cur = s.cur := rfl
@[simp] theorem mapFabric_core (s : State) (f : Fabric → Fabric) : (s.mapFabric f).core = s.core := rfl
@[simp] theorem mapFabric_tiles (s : State) (f : Fabric → Fabric) : (s.mapFabric f).tiles = s.tiles := rfl
@[simp] theorem mapFabric_vetted (s : State) (f : Fabric → Fabric) : (s.mapFabric f).vetted = s.vetted := rfl
@[simp] theorem mapFabric_fresh (s : State) (f : Fabric → Fabric) : (s.mapFabric f).fresh = s.fresh := rfl
@[simp] theorem mapFabric_agenda (s : State) (f : Fabric → Fabric) : (s.mapFabric f).agenda = s.agenda := rfl
@[simp] theorem mapFabric_flights (s : State) (f : Fabric → Fabric) : (s.mapFabric f).flights = s.flights := rfl
@[simp] theorem mapFabric_saved (s : State) (f : Fabric → Fabric) : (s.mapFabric f).saved = s.saved := rfl
@[simp] theorem mapFabric_gangs (s : State) (f : Fabric → Fabric) : (s.mapFabric f).gangs = s.gangs := rfl
@[simp] theorem mapFabric_jobs (s : State) (f : Fabric → Fabric) : (s.mapFabric f).jobs = s.jobs := rfl
@[simp] theorem mapFabric_lk (s : State) (f : Fabric → Fabric) : (s.mapFabric f).lk = s.lk := rfl
@[simp] theorem mapFabric_fabric (s : State) (f : Fabric → Fabric) : (s.mapFabric f).fabric = f s.fabric := rfl
@[simp] theorem mapFabric_platform (s : State) (f : Fabric → Fabric) : (s.mapFabric f).platform = s.platform := rfl
@[simp] theorem mapFabric_mem (s : State) (f : Fabric → Fabric) : (s.mapFabric f).mem = s.mem := rfl

/-! ### mapGang -/

@[simp] theorem mapGang_clock (s : State) (n : Nat) (f : Gang → Gang) : (s.mapGang n f).clock = s.clock := rfl
@[simp] theorem mapGang_turn (s : State) (n : Nat) (f : Gang → Gang) : (s.mapGang n f).turn = s.turn := rfl
@[simp] theorem mapGang_cur (s : State) (n : Nat) (f : Gang → Gang) : (s.mapGang n f).cur = s.cur := rfl
@[simp] theorem mapGang_core (s : State) (n : Nat) (f : Gang → Gang) : (s.mapGang n f).core = s.core := rfl
@[simp] theorem mapGang_tiles (s : State) (n : Nat) (f : Gang → Gang) : (s.mapGang n f).tiles = s.tiles := rfl
@[simp] theorem mapGang_vetted (s : State) (n : Nat) (f : Gang → Gang) : (s.mapGang n f).vetted = s.vetted := rfl
@[simp] theorem mapGang_fresh (s : State) (n : Nat) (f : Gang → Gang) : (s.mapGang n f).fresh = s.fresh := rfl
@[simp] theorem mapGang_agenda (s : State) (n : Nat) (f : Gang → Gang) : (s.mapGang n f).agenda = s.agenda := rfl
@[simp] theorem mapGang_flights (s : State) (n : Nat) (f : Gang → Gang) : (s.mapGang n f).flights = s.flights := rfl
@[simp] theorem mapGang_saved (s : State) (n : Nat) (f : Gang → Gang) : (s.mapGang n f).saved = s.saved := rfl
@[simp] theorem mapGang_jobs (s : State) (n : Nat) (f : Gang → Gang) : (s.mapGang n f).jobs = s.jobs := rfl
@[simp] theorem mapGang_lk (s : State) (n : Nat) (f : Gang → Gang) : (s.mapGang n f).lk = s.lk := rfl
@[simp] theorem mapGang_fabric (s : State) (n : Nat) (f : Gang → Gang) : (s.mapGang n f).fabric = s.fabric := rfl
@[simp] theorem mapGang_platform (s : State) (n : Nat) (f : Gang → Gang) : (s.mapGang n f).platform = s.platform := rfl
@[simp] theorem mapGang_mem (s : State) (n : Nat) (f : Gang → Gang) : (s.mapGang n f).mem = s.mem := rfl

/-! ### mapJob -/

@[simp] theorem mapJob_clock (s : State) (n : Nat) (f : Job → Job) : (s.mapJob n f).clock = s.clock := rfl
@[simp] theorem mapJob_turn (s : State) (n : Nat) (f : Job → Job) : (s.mapJob n f).turn = s.turn := rfl
@[simp] theorem mapJob_cur (s : State) (n : Nat) (f : Job → Job) : (s.mapJob n f).cur = s.cur := rfl
@[simp] theorem mapJob_core (s : State) (n : Nat) (f : Job → Job) : (s.mapJob n f).core = s.core := rfl
@[simp] theorem mapJob_tiles (s : State) (n : Nat) (f : Job → Job) : (s.mapJob n f).tiles = s.tiles := rfl
@[simp] theorem mapJob_vetted (s : State) (n : Nat) (f : Job → Job) : (s.mapJob n f).vetted = s.vetted := rfl
@[simp] theorem mapJob_fresh (s : State) (n : Nat) (f : Job → Job) : (s.mapJob n f).fresh = s.fresh := rfl
@[simp] theorem mapJob_agenda (s : State) (n : Nat) (f : Job → Job) : (s.mapJob n f).agenda = s.agenda := rfl
@[simp] theorem mapJob_flights (s : State) (n : Nat) (f : Job → Job) : (s.mapJob n f).flights = s.flights := rfl
@[simp] theorem mapJob_saved (s : State) (n : Nat) (f : Job → Job) : (s.mapJob n f).saved = s.saved := rfl
@[simp] theorem mapJob_gangs (s : State) (n : Nat) (f : Job → Job) : (s.mapJob n f).gangs = s.gangs := rfl
@[simp] theorem mapJob_lk (s : State) (n : Nat) (f : Job → Job) : (s.mapJob n f).lk = s.lk := rfl
@[simp] theorem mapJob_fabric (s : State) (n : Nat) (f : Job → Job) : (s.mapJob n f).fabric = s.fabric := rfl
@[simp] theorem mapJob_platform (s : State) (n : Nat) (f : Job → Job) : (s.mapJob n f).platform = s.platform := rfl
@[simp] theorem mapJob_mem (s : State) (n : Nat) (f : Job → Job) : (s.mapJob n f).mem = s.mem := rfl

/-! ### mapNode -/

@[simp] theorem mapNode_clock (s : State) (n : Nat) (f : Node → Node) : (s.mapNode n f).clock = s.clock := rfl
@[simp] theorem mapNode_turn (s : State) (n : Nat) (f : Node → Node) : (s.mapNode n f).turn = s.turn := rfl
@[simp] theorem mapNode_cur (s : State) (n : Nat) (f : Node → Node) : (s.mapNode n f).cur = s.cur := rfl
@[simp] theorem mapNode_core (s : State) (n : Nat) (f : Node → Node) : (s.mapNode n f).core = s.core := rfl
@[simp] theorem mapNode_tiles (s : State) (n : Nat) (f : Node → Node) : (s.mapNode n f).tiles = s.tiles := rfl
@[simp] theorem mapNode_vetted (s : State) (n : Nat) (f : Node → Node) : (s.mapNode n f).vetted = s.vetted := rfl
@[simp] theorem mapNode_fresh (s : State) (n : Nat) (f : Node → Node) : (s.mapNode n f).fresh = s.fresh := rfl
@[simp] theorem mapNode_agenda (s : State) (n : Nat) (f : Node → Node) : (s.mapNode n f).agenda = s.agenda := rfl
@[simp] theorem mapNode_flights (s : State) (n : Nat) (f : Node → Node) : (s.mapNode n f).flights = s.flights := rfl
@[simp] theorem mapNode_saved (s : State) (n : Nat) (f : Node → Node) : (s.mapNode n f).saved = s.saved := rfl
@[simp] theorem mapNode_gangs (s : State) (n : Nat) (f : Node → Node) : (s.mapNode n f).gangs = s.gangs := rfl
@[simp] theorem mapNode_jobs (s : State) (n : Nat) (f : Node → Node) : (s.mapNode n f).jobs = s.jobs := rfl
@[simp] theorem mapNode_fabric (s : State) (n : Nat) (f : Node → Node) : (s.mapNode n f).fabric = s.fabric := rfl
@[simp] theorem mapNode_platform (s : State) (n : Nat) (f : Node → Node) : (s.mapNode n f).platform = s.platform := rfl
@[simp] theorem mapNode_mem (s : State) (n : Nat) (f : Node → Node) : (s.mapNode n f).mem = s.mem := rfl

end Sys2Proof.Machine
end

