-- ==== Sys2Proof/Laws/Tables.lean ====
section
/-! SUPPORT. The laws of sparse tables: what a read finds after a write, and that every write keeps the canonical form. -/

namespace Sys2Proof.Machine

variable {α : Type}

/-! ### Reads after writes -/

theorem tget_tput_same (d : α) (t : Table α) (k : Nat) (v : α) : tget d (tput t k v) k = v := by
  induction t with
  | nil => simp [tput, tget]
  | cons c t ih =>
    obtain ⟨a, x⟩ := c
    simp only [tput]
    split
    · simp [tget]
    · split
      · simp [tget]
      · simp [tget, *]

theorem tget_tput_ne (d : α) (t : Table α) (k j : Nat) (v : α) (h : j ≠ k) : tget d (tput t k v) j = tget d t j := by
  induction t with
  | nil => simp [tput, tget, Ne.symm h]
  | cons c t ih =>
    obtain ⟨a, x⟩ := c
    simp only [tput]
    split
    · simp [tget, Ne.symm h]
    · split
      · subst a; simp [tget, Ne.symm h]
      · simp only [tget, ih]

theorem tget_tdel_ne (d : α) (t : Table α) (k j : Nat) (h : j ≠ k) : tget d (tdel t k) j = tget d t j := by
  induction t with
  | nil => rfl
  | cons c t ih =>
    obtain ⟨a, x⟩ := c
    simp only [tdel]
    split
    · subst a; simp [tget, Ne.symm h]
    · split
      · rfl
      · simp only [tget, ih]

section Deq

variable [DecidableEq α]

theorem tget_tset_ne (d : α) (t : Table α) (k j : Nat) (v : α) (h : j ≠ k) : tget d (tset d t k v) j = tget d t j := by
  unfold tset
  split
  · exact tget_tdel_ne d t k j h
  · exact tget_tput_ne d t k j v h

/-- A write of anything but the default is read back, whatever the table. -/
theorem tget_tset_listed (d : α) (t : Table α) (k : Nat) (v : α) (h : v ≠ d) : tget d (tset d t k v) k = v := by
  simp [tset, h, tget_tput_same]

theorem tget_below (d : α) (t : Table α) (lo k : Nat) (h : tsorted d lo t = true) (hk : k < lo) : tget d t k = d := by
  induction t generalizing lo with
  | nil => rfl
  | cons c t ih =>
    obtain ⟨a, x⟩ := c
    simp only [tsorted, Bool.and_eq_true, decide_eq_true_eq] at h
    have : a ≠ k := by omega
    simp only [tget, this, if_false]
    exact ih (a + 1) h.2 (by omega)

theorem tsorted_mono (d : α) (t : Table α) (lo lo' : Nat) (h : tsorted d lo t = true) (hl : lo' ≤ lo) : tsorted d lo' t = true := by
  cases t with
  | nil => rfl
  | cons c t =>
    obtain ⟨a, x⟩ := c
    simp only [tsorted, Bool.and_eq_true, decide_eq_true_eq] at h ⊢
    exact ⟨⟨by omega, h.1.2⟩, h.2⟩

theorem tget_tdel_same (d : α) (t : Table α) (lo k : Nat) (h : tsorted d lo t = true) : tget d (tdel t k) k = d := by
  induction t generalizing lo with
  | nil => rfl
  | cons c t ih =>
    obtain ⟨a, x⟩ := c
    have h' := h
    simp only [tsorted, Bool.and_eq_true, decide_eq_true_eq] at h
    simp only [tdel]
    split
    · exact tget_below d t (a + 1) k h.2 (by omega)
    · split
      · exact tget_below d _ a k (by simpa [tsorted, h.1.2] using h.2) (by assumption)
      · simp only [tget, *, if_false]
        exact ih (a + 1) h.2

/-- A table in canonical form reads back what is written. -/
theorem tget_tset_same (d : α) (t : Table α) (k : Nat) (v : α) (h : twf d t = true) : tget d (tset d t k v) k = v := by
  unfold tset
  split
  · subst v; exact tget_tdel_same d t 0 k h
  · exact tget_tput_same d t k v

theorem tget_tset (d : α) (t : Table α) (k j : Nat) (v : α) (h : twf d t = true) :
    tget d (tset d t k v) j = if j = k then v else tget d t j := by
  split
  · subst j; exact tget_tset_same d t k v h
  · exact tget_tset_ne d t k j v ‹_›

/-! ### The canonical form is kept -/

theorem tsorted_tdel (d : α) (t : Table α) (lo k : Nat) (h : tsorted d lo t = true) : tsorted d lo (tdel t k) = true := by
  induction t generalizing lo with
  | nil => rfl
  | cons c t ih =>
    obtain ⟨a, x⟩ := c
    have h' := h
    simp only [tsorted, Bool.and_eq_true, decide_eq_true_eq] at h
    simp only [tdel]
    split
    · exact tsorted_mono d t (a + 1) lo h.2 (by omega)
    · split
      · exact h'
      · simp only [tsorted, Bool.and_eq_true, decide_eq_true_eq]
        exact ⟨h.1, ih (a + 1) h.2⟩

theorem tsorted_tput (d : α) (t : Table α) (lo k : Nat) (v : α) (h : tsorted d lo t = true) (hk : lo ≤ k) (hv : v ≠ d) :
    tsorted d lo (tput t k v) = true := by
  induction t generalizing lo with
  | nil => simp [tput, tsorted, hk, hv]
  | cons c t ih =>
    obtain ⟨a, x⟩ := c
    simp only [tsorted, Bool.and_eq_true, decide_eq_true_eq, Bool.not_eq_true', decide_eq_false_iff_not] at h
    simp only [tput]
    split
    · simp only [tsorted, Bool.and_eq_true, decide_eq_true_eq, Bool.not_eq_true', decide_eq_false_iff_not]
      exact ⟨⟨hk, hv⟩, ⟨by omega, h.1.2⟩, h.2⟩
    · split
      · subst a
        simp only [tsorted, Bool.and_eq_true, decide_eq_true_eq, Bool.not_eq_true', decide_eq_false_iff_not]
        exact ⟨⟨hk, hv⟩, h.2⟩
      · simp only [tsorted, Bool.and_eq_true, decide_eq_true_eq, Bool.not_eq_true', decide_eq_false_iff_not]
        exact ⟨h.1, ih (a + 1) h.2 (by omega)⟩

theorem twf_nil (d : α) : twf d ([] : Table α) = true := rfl

theorem twf_tdel (d : α) (t : Table α) (k : Nat) (h : twf d t = true) : twf d (tdel t k) = true := tsorted_tdel d t 0 k h

theorem twf_tset (d : α) (t : Table α) (k : Nat) (v : α) (h : twf d t = true) : twf d (tset d t k v) = true := by
  unfold tset
  split
  · exact twf_tdel d t k h
  · exact tsorted_tput d t 0 k v h (by omega) ‹_›

theorem tsorted_filter (d : α) (t : Table α) (lo : Nat) (f : Nat × α → Bool) (h : tsorted d lo t = true) :
    tsorted d lo (t.filter f) = true := by
  induction t generalizing lo with
  | nil => rfl
  | cons c t ih =>
    obtain ⟨a, x⟩ := c
    simp only [tsorted, Bool.and_eq_true, decide_eq_true_eq] at h
    simp only [List.filter_cons]
    split
    · simp only [tsorted, Bool.and_eq_true, decide_eq_true_eq]
      exact ⟨h.1, ih (a + 1) h.2⟩
    · exact tsorted_mono d _ (a + 1) lo (ih (a + 1) h.2) (by omega)

theorem twf_filter (d : α) (t : Table α) (f : Nat × α → Bool) (h : twf d t = true) : twf d (t.filter f) = true :=
  tsorted_filter d t 0 f h

theorem twf_tclear (d : α) (t : Table α) (lo hi : Nat) (h : twf d t = true) : twf d (tclear t lo hi) = true :=
  twf_filter d t _ h

theorem twf_tsetList (d : α) (f : Nat → Nat) (k : Nat) (vs : List α) (t : Table α) (h : twf d t = true) :
    twf d (tsetList d f k vs t) = true := by
  induction vs generalizing k t with
  | nil => exact h
  | cons v vs ih => exact ih (k + 1) _ (twf_tset d t (f k) v h)

/-- A fold of writes keeps the canonical form. -/
theorem twf_foldl {β : Type} (d : α) (g : Table α → β → Table α) (xs : List β) (t : Table α)
    (hg : ∀ t x, twf d t = true → twf d (g t x) = true) (h : twf d t = true) : twf d (xs.foldl g t) = true := by
  induction xs generalizing t with
  | nil => exact h
  | cons x xs ih => exact ih _ (hg t x h)

/-! ### Ranges -/

omit [DecidableEq α] in
theorem tget_filter (d : α) (t : Table α) (f : Nat × α → Bool) (k : Nat) (g : Nat → Bool) (hf : ∀ c, f c = g c.1) :
    tget d (t.filter f) k = if g k then tget d t k else d := by
  induction t with
  | nil => simp [tget]
  | cons c t ih =>
    obtain ⟨a, x⟩ := c
    simp only [List.filter_cons, hf]
    by_cases ha : a = k
    · subst ha
      by_cases hg : g a = true
      · simp [hg, tget]
      · simp only [hg, Bool.false_eq_true, if_false]
        rw [ih]
        simp [hg]
    · by_cases hg : g a = true
      · simp only [hg, if_true, tget, ha, if_false, ih]
      · simp only [hg, Bool.false_eq_true, if_false, ih, tget, ha]

omit [DecidableEq α] in
theorem tget_tclear (d : α) (t : Table α) (lo hi k : Nat) :
    tget d (tclear t lo hi) k = if lo ≤ k ∧ k < hi then d else tget d t k := by
  unfold tclear
  rw [tget_filter d t _ k (fun a => decide (a < lo) || decide (hi ≤ a)) (fun _ => rfl)]
  by_cases h : lo ≤ k ∧ k < hi
  · have : (decide (k < lo) || decide (hi ≤ k)) = false := by simp; omega
    simp [h, this]
  · have : (decide (k < lo) || decide (hi ≤ k)) = true := by simp; omega
    simp [h, this]

/-- Writing a list leaves every key that it does not name. -/
theorem tget_tsetList_ne (d : α) (f : Nat → Nat) (k : Nat) (vs : List α) (t : Table α) (j : Nat)
    (h : ∀ i, i < vs.length → f (k + i) ≠ j) : tget d (tsetList d f k vs t) j = tget d t j := by
  induction vs generalizing k t with
  | nil => rfl
  | cons v vs ih =>
    simp only [tsetList]
    rw [ih (k + 1) _ (fun i hi => by have := h (i + 1) (by simp; omega); rwa [Nat.add_comm i 1, ← Nat.add_assoc] at this)]
    exact tget_tset_ne d t (f k) j v (fun e => h 0 (by simp) (by simpa using e.symm))

/-- Writing a list at distinct keys is read back. -/
theorem tget_tsetList_mem (d : α) (f : Nat → Nat) (k : Nat) (vs : List α) (t : Table α) (h : twf d t = true)
    (hf : ∀ i j, i < vs.length → j < vs.length → f (k + i) = f (k + j) → i = j) (i : Nat) (hi : i < vs.length) :
    tget d (tsetList d f k vs t) (f (k + i)) = vs[i] := by
  induction vs generalizing k t i with
  | nil => simp at hi
  | cons v vs ih =>
    simp only [tsetList]
    cases i with
    | zero =>
      rw [tget_tsetList_ne d f (k + 1) vs _ _ (fun j hj e => by
        have := hf (j + 1) 0 (by simp; omega) (by simp) (by rw [Nat.add_comm j 1, ← Nat.add_assoc]; simpa using e)
        omega)]
      simp [tget_tset_same d t (f k) v h]
    | succ i =>
      have e : k + (i + 1) = k + 1 + i := by omega
      rw [e]
      simp only [List.getElem_cons_succ]
      refine ih (k + 1) _ (twf_tset d t (f k) v h) ?_ i (by simpa using hi)
      intro a b ha hb hab
      have := hf (a + 1) (b + 1) (by simp; omega) (by simp; omega) (by rw [show k + (a + 1) = k + 1 + a by omega, show k + (b + 1) = k + 1 + b by omega]; exact hab)
      omega

end Deq

theorem tgetList_length (d : α) (f : Nat → Nat) (t : Table α) (k n : Nat) : (tgetList d f t k n).length = n := by
  induction n generalizing k with
  | zero => rfl
  | succ n ih => simp [tgetList, ih]

theorem tgetList_eq (d : α) (f : Nat → Nat) (t : Table α) (k n : Nat) :
    tgetList d f t k n = (List.range n).map fun i => tget d t (f (k + i)) := by
  induction n generalizing k with
  | zero => rfl
  | succ n ih =>
    rw [tgetList, ih, List.range_succ_eq_map]
    simp [Nat.add_comm, Nat.add_left_comm]

end Sys2Proof.Machine
end

