-- ==== Sys2Proof/Laws/Memory.lean ====
section
/-! SUPPORT. Every operation on the memories outside the tiles, on staging and on the vault keeps the canonical form; reset has it. -/

namespace Sys2Proof.Machine

/-! ### Tables whose entries all have a property -/

theorem all_tdel {α : Type} (t : Table α) (k : Nat) (q : Nat × α → Bool) (h : t.all q = true) : (tdel t k).all q = true := by
  induction t with
  | nil => exact h
  | cons c t ih =>
    obtain ⟨a, x⟩ := c
    have h' := h
    simp only [List.all_cons, Bool.and_eq_true] at h
    simp only [tdel]
    split
    · exact h.2
    · split
      · exact h'
      · simp [h.1, ih h.2]

theorem all_tput {α : Type} (t : Table α) (k : Nat) (v : α) (q : Nat × α → Bool) (h : t.all q = true) (hv : q (k, v) = true) :
    (tput t k v).all q = true := by
  induction t with
  | nil => simp [tput, hv]
  | cons c t ih =>
    obtain ⟨a, x⟩ := c
    have h' := h
    simp only [List.all_cons, Bool.and_eq_true] at h
    simp only [tput]
    split
    · simp [hv, h.1, h.2]
    · split
      · simp [hv, h.2]
      · simp [h.1, ih h.2]

/-- A write of a value with the property keeps the property of every entry. -/
theorem all_tset {α : Type} [DecidableEq α] (d : α) (t : Table α) (k : Nat) (v : α) (q : Nat × α → Bool) (h : t.all q = true)
    (hv : q (k, v) = true) : (tset d t k v).all q = true := by
  unfold tset
  split
  · exact all_tdel t k q h
  · exact all_tput t k v q h hv

/-- A value read has the property of the entries, when the default has it. -/
theorem tget_all {α : Type} (d : α) (t : Table α) (k : Nat) (q : α → Bool) (h : t.all (fun x => q x.2) = true) (hd : q d = true) :
    q (tget d t k) = true := by
  induction t with
  | nil => exact hd
  | cons c t ih =>
    obtain ⟨a, x⟩ := c
    simp only [List.all_cons, Bool.and_eq_true] at h
    simp only [tget]
    split
    · exact h.1
    · exact ih h.2

/-! ### The parts of the canonical form -/

theorem Memory.wf_iff (m : Mem) :
    Memory.wf m = true ↔
      twf 0 m.res = true ∧ twf .good m.marks = true ∧ twf [] m.host = true ∧ m.host.all (fun p => twf 0 p.2) = true ∧ twf 0 m.qsram = true ∧
        twf [] m.peers = true ∧ m.peers.all (fun p => twf 0 p.2) = true ∧ twf (0, 0) m.frames = true := by
  simp only [Memory.wf, Bool.and_eq_true, and_assoc]

/-- A change of reservoir bytes that keeps their form keeps the form of the memories. -/
theorem Memory.wf_res (m : Mem) (t : Table Byte) (h : Memory.wf m = true) (ht : twf 0 t = true) :
    Memory.wf { m with res := t } = true := by
  rw [Memory.wf_iff] at h ⊢
  exact ⟨ht, h.2⟩

theorem Memory.wf_marks (m : Mem) (t : Table Mark) (h : Memory.wf m = true) (ht : twf .good t = true) :
    Memory.wf { m with marks := t } = true := by
  rw [Memory.wf_iff] at h ⊢
  exact ⟨h.1, ht, h.2.2⟩

theorem Memory.wf_frames (m : Mem) (t : Table (Nat × Nat)) (h : Memory.wf m = true) (ht : twf (0, 0) t = true) :
    Memory.wf { m with frames := t } = true := by
  rw [Memory.wf_iff] at h ⊢
  exact ⟨h.1, h.2.1, h.2.2.1, h.2.2.2.1, h.2.2.2.2.1, h.2.2.2.2.2.1, h.2.2.2.2.2.2.1, ht⟩

/-- Nothing but the tables that the form names matters to it. -/
theorem Memory.wf_books (m : Mem) (us : List Unfenced) (f : Nat) (rs : List (Nat × Nat)) (h : Memory.wf m = true) :
    Memory.wf { m with unfenced := us, nextFrame := f, freed := rs } = true := h

/-! ### Bytes -/

theorem twf_writeBytes (t : Table Byte) (a : Nat) (bs : List Byte) (h : twf 0 t = true) : twf 0 (writeBytes t a bs) = true :=
  twf_tsetList 0 id a bs t h

theorem twf_writeWord (t : Table Byte) (a : Nat) (x : Scalar) (h : twf 0 t = true) : twf 0 (writeWord t a x) = true :=
  twf_writeBytes t a _ h

theorem twf_copyEntries {α : Type} [DecidableEq α] (d : α) (f : α → α) (src dst n : Nat) (a b : Table α) (h : twf d b = true) :
    twf d (copyEntries d f src dst n a b) = true :=
  twf_foldl d _ _ _ (fun t x ht => twf_tset d t _ (f x.2) ht) (twf_tclear d b _ _ h)

/-- What a write makes of the marks keeps their form: it removes entries, or turns one into a poisoned one. -/
theorem tsorted_storedMark (sp : MemSpace) (a n : Nat) (t : Table Mark) (lo : Nat) (h : tsorted .good lo t = true) :
    tsorted .good lo (t.filterMap (storedMark sp a n)) = true := by
  induction t generalizing lo with
  | nil => rfl
  | cons c t ih =>
    obtain ⟨k, x⟩ := c
    simp only [tsorted, Bool.and_eq_true, decide_eq_true_eq, Bool.not_eq_true', decide_eq_false_iff_not] at h
    have keep (y : Mark) (hy : y ≠ .good) : tsorted .good lo ((k, y) :: t.filterMap (storedMark sp a n)) = true := by
      simp only [tsorted, Bool.and_eq_true, decide_eq_true_eq, Bool.not_eq_true', decide_eq_false_iff_not]
      exact ⟨⟨h.1.1, hy⟩, ih (k + 1) h.2⟩
    simp only [List.filterMap_cons]
    unfold storedMark
    simp only
    split
    · exact tsorted_mono _ _ _ _ (ih (k + 1) h.2) (by omega)
    · rename_i y hy
      split at hy
      · cases hy; exact keep x h.1.2
      · split at hy
        · cases hy
        · cases hy; exact keep .poisoned (by decide)

/-- A byte written is read back, and every other byte stays. -/
theorem tget_writeBytes (t : Table Byte) (a : Nat) (bs : List Byte) (h : twf 0 t = true) (k : Nat) :
    tget 0 (writeBytes t a bs) k = if a ≤ k ∧ k < a + bs.length then bs.getD (k - a) 0 else tget 0 t k := by
  unfold writeBytes
  split
  · rename_i hk
    have e := tget_tsetList_mem 0 id a bs t h (fun i j _ _ hij => by simpa using hij) (k - a) (by omega)
    rw [show id (a + (k - a)) = k by simp; omega] at e
    rw [e, List.getD_eq_getElem?_getD, List.getElem?_eq_getElem (by omega)]
    rfl
  · rename_i hk
    exact tget_tsetList_ne 0 id a bs t k (fun i hi => by simp; omega)

/-! ### Spaces -/

theorem Mem.twf_space (m : Mem) (sp : MemSpace) (h : Memory.wf m = true) : twf 0 (m.space sp) = true := by
  rw [Memory.wf_iff] at h
  cases sp with
  | reservoir => exact h.1
  | host p => exact tget_all [] m.host p (twf 0) h.2.2.2.1 rfl
  | queueSram => exact h.2.2.2.2.1
  | peer n => exact tget_all [] m.peers n (twf 0) h.2.2.2.2.2.2.1 rfl

theorem Mem.wf_setSpace (m : Mem) (sp : MemSpace) (t : Table Byte) (h : Memory.wf m = true) (ht : twf 0 t = true) :
    Memory.wf (m.setSpace sp t) = true := by
  rw [Memory.wf_iff] at h
  obtain ⟨h1, h2, h3, h4, h5, h6, h7, h8⟩ := h
  cases sp <;> rw [Memory.wf_iff]
  · exact ⟨ht, h2, h3, h4, h5, h6, h7, h8⟩
  case host p => exact ⟨h1, h2, twf_tset [] m.host p t h3, all_tset [] m.host p t _ h4 ht, h5, h6, h7, h8⟩
  case queueSram => exact ⟨h1, h2, h3, h4, ht, h6, h7, h8⟩
  case peer n => exact ⟨h1, h2, h3, h4, h5, twf_tset [] m.peers n t h6, all_tset [] m.peers n t _ h7 ht, h8⟩

theorem Mem.wf_zeroFrames (m : Mem) (f k : Nat) (h : Memory.wf m = true) : Memory.wf (m.zeroFrames f k) = true := by
  rw [Memory.wf_iff] at h ⊢
  exact ⟨twf_tclear _ _ _ _ h.1, twf_tclear _ _ _ _ h.2.1, h.2.2⟩

/-- What an allocation does: some run of frames is filled with zeros under fresh check symbols, and beside the MMP's books of frames nothing
else changes (R203). -/
theorem allocateAligned_eq (m : Mem) (k n : Nat) : ∃ f g rs, (m.allocateAligned k n).1 = f * Config.frameBytes ∧
    (m.allocateAligned k n).2 = { m.zeroFrames f (framesOf n) with nextFrame := g, freed := rs } := by
  unfold Mem.allocateAligned
  simp only
  split
  · exact ⟨_, _, _, rfl, rfl⟩
  · exact ⟨_, _, _, rfl, rfl⟩

theorem Mem.wf_allocateAligned (m : Mem) (k n : Nat) (h : Memory.wf m = true) : Memory.wf (m.allocateAligned k n).2 = true := by
  obtain ⟨f, g, rs, -, e⟩ := allocateAligned_eq m k n
  rw [e]
  exact Mem.wf_zeroFrames m f _ h

theorem Mem.wf_allocate (m : Mem) (n : Nat) (h : Memory.wf m = true) : Memory.wf (m.allocate n).2 = true :=
  Mem.wf_allocateAligned m 16 n h

theorem Mem.wf_allocateFrames (m : Mem) (k : Nat) (h : Memory.wf m = true) : Memory.wf (m.allocateFrames k).2 = true := by
  have fill : ∀ (rs : List (Nat × Nat)) (m : Mem), Memory.wf m = true → Memory.wf (rs.foldl (fun m r => m.zeroFrames r.1 r.2) m) = true := by
    intro rs
    induction rs with
    | nil => exact fun m h => h
    | cons r rs ih => exact fun m h => ih _ (Mem.wf_zeroFrames m _ _ h)
  exact fill _ m h

theorem Mem.wf_giveBack (m : Mem) (f k : Nat) (h : Memory.wf m = true) : Memory.wf (m.giveBack f k) = true := h

/-- A frame that the MMP has allocated reads zero, and every byte outside it as before (R203). -/
theorem tget_allocate (m : Mem) (n k : Nat) :
    tget 0 (m.allocate n).2.res k =
      if (m.allocate n).1 ≤ k ∧ k < (m.allocate n).1 + framesOf n * Config.frameBytes then 0 else tget 0 m.res k := by
  obtain ⟨f, g, rs, e1, e2⟩ := allocateAligned_eq m 16 n
  unfold Mem.allocate
  rw [e2, e1, ← Nat.add_mul]
  exact tget_tclear 0 m.res _ _ k

/-- No allocation takes a frame back from the ones that the MMP has handed out: `nextFrame` does not fall. -/
theorem nextFrame_allocate (m : Mem) (k n : Nat) (hk : 16 ≤ k) : m.nextFrame ≤ (m.allocateAligned k n).2.nextFrame := by
  have hu : 0 < 2 ^ k / Config.frameBytes := Nat.div_pos (Nat.pow_le_pow_right (n := 2) (by decide) hk) (by decide)
  unfold Mem.allocateAligned
  simp only
  split
  · exact Nat.le_refl _
  · have h := Nat.div_add_mod (m.nextFrame + 2 ^ k / Config.frameBytes - 1) (2 ^ k / Config.frameBytes)
    have := Nat.mod_lt (m.nextFrame + 2 ^ k / Config.frameBytes - 1) hu
    show m.nextFrame ≤ (m.nextFrame + 2 ^ k / Config.frameBytes - 1) / (2 ^ k / Config.frameBytes) * (2 ^ k / Config.frameBytes) + framesOf n
    rw [Nat.mul_comm] at h
    omega

/-- A write of bytes into a memory space keeps the form of the memories. -/
theorem Mem.wf_store (m : Mem) (sp : MemSpace) (a : Nat) (bs : List Byte) (h : Memory.wf m = true) :
    Memory.wf (m.store sp a bs) = true := by
  unfold Mem.store
  split
  · exact h
  · refine Memory.wf_marks _ _ (Mem.wf_setSpace m sp _ h (twf_writeBytes _ _ _ (Mem.twf_space m sp h))) ?_
    exact tsorted_storedMark sp a _ _ 0 ((Memory.wf_iff m).mp h).2.1

theorem Mem.wf_storeWord (m : Mem) (a : Nat) (x : Scalar) (h : Memory.wf m = true) : Memory.wf (m.storeWord a x) = true :=
  Mem.wf_store m _ a _ h

theorem Mem.wf_copyRun (m : Mem) (sp : MemSpace) (src : Nat) (sq : MemSpace) (dst n : Nat) (h : Memory.wf m = true) :
    Memory.wf (m.copyRun sp src sq dst n) = true :=
  Memory.wf_marks _ _ (Mem.wf_setSpace m sq _ h (twf_copyEntries 0 id _ _ _ _ _ (Mem.twf_space m sq h)))
    (twf_copyEntries .good Mark.copied _ _ _ _ _ ((Memory.wf_iff m).mp h).2.1)

theorem Mem.wf_copyFrame (m : Mem) (f g : Nat) (h : Memory.wf m = true) : Memory.wf (m.copyFrame f g) = true :=
  Mem.wf_copyRun m _ _ _ _ _ h

theorem wf_markFailed (m : Mem) (g : Gen) (h : Memory.wf m = true) : Memory.wf (markFailed m g) = true := by
  unfold markFailed
  split
  · exact h
  · exact Mem.wf_storeWord _ _ _ (Mem.wf_storeWord _ _ _ h)

/-! ### Writes by an agent -/

theorem mem_mapTile (s : State) (n : Nat) (f : Tile → Tile) : (s.mapTile n f).mem = s.mem := by
  unfold State.mapTile
  split <;> rfl

theorem mem_mapJob (s : State) (p : Nat) (f : Job → Job) : (s.mapJob p f).mem = s.mem := rfl

theorem mem_cleanRows (s : State) (p : Nat) : (s.cleanRows p).mem = s.mem := by
  unfold State.cleanRows
  simp only [mem_mapJob]
  generalize (s.job p).parts = xs
  induction xs generalizing s with
  | nil => rfl
  | cons x xs ih => rw [List.foldl_cons, ih, mem_mapTile]

theorem wf_failGens (s : State) (p : Nat) (f : Gen → Bool) (h : Memory.wf s.mem = true) :
    Memory.wf (s.failGens p f).mem = true := by
  have key : ∀ (gs : List Gen) (m : Mem), Memory.wf m = true → Memory.wf (gs.foldl markFailed m) = true := by
    intro gs
    induction gs with
    | nil => exact fun m hm => hm
    | cons g gs ih => exact fun m hm => ih _ (wf_markFailed m g hm)
  unfold State.failGens
  simp only
  split
  · rw [mem_cleanRows]; exact key _ _ h
  · exact key _ _ h

/-- The copy that a shared frame gets before its first write keeps the canonical form (R230). -/
theorem wf_copyOnWrite (s : State) (frame : Nat) (h : Memory.wf s.mem = true) : Memory.wf (s.copyOnWrite frame).mem = true := by
  have hr := (Memory.wf_iff s.mem).mp h
  have hf (v : Nat × Nat) : Memory.wf { s.mem with frames := tset (0, 0) s.mem.frames frame v } = true :=
    Memory.wf_frames _ _ h (twf_tset _ _ _ _ hr.2.2.2.2.2.2.2)
  unfold State.copyOnWrite
  simp only
  split
  · exact h
  · split
    · exact h
    · split
      · exact hf _
      · split
        · exact wf_failGens _ _ _ (hf _)
        · rw [mem_mapJob]
          have hm (v : Nat × Nat) (g : Nat) := Mem.wf_copyFrame _ frame g (Mem.wf_allocate _ Config.frameBytes (hf v))
          have lists : ∀ (gs : List Gen) (m : Mem) (f : Gen → List Byte), Memory.wf m = true →
              Memory.wf (gs.foldl (fun m g => m.store .reservoir g.flist (f g)) m) = true := by
            intro gs
            induction gs with
            | nil => exact fun m f hm => hm
            | cons g gs ih => exact fun m f hm => ih _ f (Mem.wf_store m _ _ _ hm)
          exact lists _ _ (fun g => copyListBytes g.copies) (hm _ _)

theorem wf_copyFrames (s : State) (a n : Nat) (h : Memory.wf s.mem = true) : Memory.wf (s.copyFrames a n).mem = true := by
  unfold State.copyFrames
  generalize List.range _ = ks
  induction ks generalizing s with
  | nil => exact h
  | cons k ks ih => exact ih _ (wf_copyOnWrite s _ h)

theorem wf_copyShared (s : State) (sp : MemSpace) (a n : Nat) (h : Memory.wf s.mem = true) :
    Memory.wf (s.copyShared sp a n).mem = true := by
  unfold State.copyShared
  split
  · split
    · exact h
    · exact wf_copyFrames s _ _ h
  · exact h

/-- A report changes only what the Lockkeeper has been told and the note of what is not yet visible. -/
theorem report_frame (s : State) (sp : MemSpace) (a n : Nat) : ∃ us rs,
    s.report sp a n = { s with mem := { s.mem with unfenced := us }, lk := { s.lk with reports := rs } } := by
  unfold State.report
  split
  · exact ⟨s.mem.unfenced, s.lk.reports, rfl⟩
  · exact ⟨_, _, rfl⟩

/-- With nothing watched, nothing is reported. -/
theorem report_none (s : State) (sp : MemSpace) (a n : Nat) (h : s.watched = []) : s.report sp a n = s := by
  unfold State.report
  rw [h]
  rfl

theorem wf_report (s : State) (sp : MemSpace) (a n : Nat) (h : Memory.wf s.mem = true) : Memory.wf (s.report sp a n).mem = true := by
  obtain ⟨us, rs, hr⟩ := report_frame s sp a n
  rw [hr]
  exact h

/-- A write of bytes into any memory space keeps the canonical form. -/
theorem wf_writeSpace (s : State) (sp : MemSpace) (a : Nat) (bs : List Byte) (h : Memory.wf s.mem = true) :
    Memory.wf (s.writeSpace sp a bs).mem = true := wf_report _ _ _ _ (Mem.wf_store _ sp a bs (wf_copyShared s sp a _ h))

theorem wf_writeSpaceWord (s : State) (sp : MemSpace) (a : Nat) (x : Scalar) (h : Memory.wf s.mem = true) :
    Memory.wf (s.writeSpaceWord sp a x).mem = true := wf_writeSpace s sp a _ h

theorem wf_writeTrapRecord (s : State) (h : Memory.wf s.mem = true) : Memory.wf (writeTrapRecord s).mem = true := by
  unfold writeTrapRecord
  split
  · exact h
  · simp only [mapGang_mem, mapMem_mem]; exact Mem.wf_store _ _ _ _ h

/-! ### Staging and the vault -/

theorem wf_stored (t : Staging) (a n : Nat) (poison : Bool) (h : Safety.stagingWf t = true) :
    Safety.stagingWf (t.stored a n poison) = true := by
  simp only [Safety.stagingWf, Bool.and_eq_true] at h ⊢
  exact ⟨⟨h.1.1, twf_foldl false _ _ _ (fun m l hm => twf_tset false m l _ hm) h.1.2⟩,
    twf_foldl Mark.good _ _ _ (fun m u hm => twf_tset Mark.good m u _ hm) h.2⟩

theorem wf_put (t : Staging) (a : Nat) (bs : List Byte) (poison : Bool) (h : Safety.stagingWf t = true) :
    Safety.stagingWf (t.put a bs poison) = true := by
  have h' := wf_stored t a bs.length poison h
  simp only [Safety.stagingWf, Bool.and_eq_true] at h' ⊢
  exact ⟨⟨twf_tsetList 0 stageAddr a bs _ h'.1.1, h'.1.2⟩, h'.2⟩

theorem wf_spoilUnits (us : List Nat) (s : State) (h : Safety.stagingWf s.core.staging = true) :
    Safety.stagingWf (spoilUnits us s).core.staging = true := by
  induction us generalizing s with
  | nil => exact h
  | cons u us ih =>
    refine ih _ ?_
    simp only [Safety.stagingWf, Bool.and_eq_true] at h ⊢
    exact ⟨⟨twf_tsetList 0 id _ _ _ h.1.1, h.1.2⟩, h.2⟩

/-- A write of bytes into staging keeps it in canonical form. -/
theorem wf_putStaging (s : State) (a : Nat) (bs : List Byte) (poison : Bool) (h : Safety.stagingWf s.core.staging = true) :
    Safety.stagingWf (putStaging s a bs poison).core.staging = true :=
  wf_put _ a bs poison (wf_spoilUnits _ s h)

theorem wf_spoilRange (s : State) (a n : Nat) (h : Safety.stagingWf s.core.staging = true) :
    Safety.stagingWf (spoilRange s a n).core.staging = true := wf_spoilUnits _ s h

/-- What reads of the units cost: the free values they used. -/
theorem chooseAmong_core {α : Type} (s : State) (cur : α) (xs : List α) : (s.chooseAmong cur xs).2.core = s.core := by
  induction xs with
  | nil => rfl
  | cons x xs ih => exact ih

theorem wf_keepUnit (t now : Staging) (u : Nat) (h : Safety.stagingWf now = true) : Safety.stagingWf (t.keepUnit now u) = true := by
  simp only [Safety.stagingWf, Bool.and_eq_true] at h ⊢
  exact ⟨⟨twf_tsetList 0 id _ _ _ h.1.1, h.1.2⟩, twf_tset _ _ _ _ h.2⟩

theorem wf_keepTags (t now : Staging) (us : List Nat) (h : Safety.stagingWf now = true) : Safety.stagingWf (t.keepTags now us) = true := by
  simp only [Safety.stagingWf, Bool.and_eq_true] at h ⊢
  refine ⟨⟨h.1.1, twf_foldl false _ _ _ (fun p u hp => ?_) h.1.2⟩, h.2⟩
  split
  · exact twf_tset _ _ _ _ hp
  · exact hp

/-- A unit of a core store that goes on holding it: its bytes, tags and marks stand. -/
theorem wf_storeStands (old : Staging) (s : State) (u : Nat) (h : Safety.stagingWf s.core.staging = true) :
    Safety.stagingWf (storeStands old s u).core.staging = true := h

/-- A unit of a core store that goes back to a landing. -/
theorem wf_landingStands (old : Staging) (s : State) (u k : Nat) (h : Safety.stagingWf s.core.staging = true) :
    Safety.stagingWf (landingStands old s u k).core.staging = true := wf_keepUnit old s.core.staging u h

/-- A unit of a core store, whichever write it ends with, leaves staging in canonical form. -/
theorem wf_settleStore (old : Staging) (r : State × List Nat) (u : Nat) (h : Safety.stagingWf r.1.core.staging = true) :
    Safety.stagingWf (settleStore old r u).1.core.staging = true := by
  have hx (n : Nat) : Safety.stagingWf (r.1.chooseAmong n (List.range n)).2.core.staging = true := by
    rw [chooseAmong_core]; exact h
  simp only [settleStore]
  split
  · exact wf_storeStands old _ u (hx _)
  · exact wf_landingStands old _ u _ (hx _)

/-- A core store keeps staging in canonical form. -/
theorem wf_coreStore (s : State) (a : Nat) (bs : List Byte) (poison : Bool) (h : Safety.stagingWf s.core.staging = true) :
    Safety.stagingWf (coreStore s a bs poison).core.staging = true := by
  have hs : ∀ b : Bool, ((s.correctIf b).core.staging) = s.core.staging := by
    intro b; cases b <;> rfl
  have key : ∀ (old : Staging) (us : List Nat) (r : State × List Nat), Safety.stagingWf r.1.core.staging = true →
      Safety.stagingWf (us.foldl (settleStore old) r).1.core.staging = true := by
    intro old us
    induction us with
    | nil => exact fun r hr => hr
    | cons u us ih => exact fun r hr => ih _ (wf_settleStore old r u hr)
  unfold coreStore
  refine wf_keepTags _ _ _ (key _ _ _ (wf_put _ a bs poison (wf_spoilRange _ a _ ?_)))
  rw [hs]; exact h

theorem wf_landingHidden (old : Staging) (s : State) (u : Nat) (h : Safety.stagingWf s.core.staging = true) :
    Safety.stagingWf (landingHidden old s u).core.staging = true := by
  have hk := wf_keepUnit old s.core.staging u h
  simp only [Safety.stagingWf, Bool.and_eq_true] at hk
  have : Safety.stagingWf { old.keepUnit s.core.staging u with
      poison := tset false (old.keepUnit s.core.staging u).poison (u / 4)
        (tget false old.poison (u / 4) || tget false (old.keepUnit s.core.staging u).poison (u / 4)) } = true := by
    simp only [Safety.stagingWf, Bool.and_eq_true]
    exact ⟨⟨hk.1.1, twf_tset _ _ _ _ hk.1.2⟩, hk.2⟩
  exact this

/-- The values that commands may still read stand beside staging. -/
theorem replaceAt_staging (s : State) (id u n k : Nat) (was now : UnitValue) :
    (replaceAt s id u n k was now).core.staging = s.core.staging := rfl

/-- A unit of a landing, whichever write it ends with, leaves staging in canonical form. -/
theorem wf_settleLanding (old : Staging) (id : Nat) (s : State) (x : Nat × Nat) (h : Safety.stagingWf s.core.staging = true) :
    Safety.stagingWf (settleLanding old id s x).core.staging = true := by
  have hx (n : Nat) (k : Nat) (v w : UnitValue) :
      Safety.stagingWf (replaceAt (s.chooseAmong n (List.range n)).2 id x.1 n k v w).core.staging = true := by
    rw [replaceAt_staging, chooseAmong_core]; exact h
  simp only [settleLanding]
  split
  · exact hx _ _ _ _
  · exact wf_landingHidden old _ x.1 (hx _ _ _ _)

/-- A landing of the barge keeps staging in canonical form. -/
theorem wf_landStaging (s : State) (id wp a : Nat) (bs : List Byte) (h : Safety.stagingWf s.core.staging = true) :
    Safety.stagingWf (landStaging s id wp a bs).core.staging = true := by
  have key : ∀ (old : Staging) (us : List (Nat × Nat)) (s : State), Safety.stagingWf s.core.staging = true →
      Safety.stagingWf (us.foldl (settleLanding old id) s).core.staging = true := by
    intro old us
    induction us with
    | nil => exact fun s hs => hs
    | cons u us ih => exact fun s hs => ih _ (wf_settleLanding old id s u hs)
  exact key _ _ _ (wf_put _ a bs false (wf_spoilRange s a _ h))

theorem wf_setColumn (v : Vault) (k : Nat) (x : Row) (poison : Bool) (h : Safety.vaultWf v = true) :
    Safety.vaultWf (setColumn v k x poison) = true := by
  simp only [Safety.vaultWf, Bool.and_eq_true] at h ⊢
  obtain ⟨⟨⟨⟨⟨⟨⟨⟨h1, h2⟩, h3⟩, h4⟩, h5⟩, h6⟩, h7⟩, h8⟩, h9⟩ := h
  exact ⟨⟨⟨⟨⟨⟨⟨⟨twf_writeBytes _ _ _ h1, twf_tset Mark.good _ _ _ h2⟩, h3⟩, h4⟩, h5⟩, h6⟩, h7⟩, h8⟩, h9⟩

/-! ### Tiles -/

/-- A tile with nothing in it is in canonical form. -/
theorem wf_emptyTile : Safety.tileWf ({} : Tile) = true := rfl

/-- Every tile of a state in canonical form is in canonical form. -/
theorem wf_tile (s : State) (n : Nat) (h : Safety.wf s = true) : Safety.tileWf (s.tile n) = true := by
  simp only [Safety.wf, Bool.and_eq_true] at h
  obtain ⟨⟨⟨⟨⟨⟨⟨⟨⟨⟨⟨⟨⟨-, hc⟩, -⟩, ha⟩, -⟩, -⟩, -⟩, -⟩, -⟩, -⟩, -⟩, -⟩, -⟩, -⟩ := h
  unfold State.tile
  by_cases hn : n = s.cur
  · rw [if_pos hn]; exact hc
  · rw [if_neg hn]; exact tget_all _ s.tiles n Safety.tileWf ha wf_emptyTile

/-! ### Reset -/

theorem wf_reset_memory : Memory.wf State.reset.mem = true := by decide

end Sys2Proof.Machine
end

