-- ==== Sys2Proof/Laws/Ops.lean ====
section
/-! SUPPORT. What each shared operation can do, said once: checking tiles out, reading staging, results in flight, holds and traps. -/

namespace Sys2Proof.Machine

/-! ### Memory that is there, and writes that are not yet visible -/

/-- What goes on only where memory is there answers a next state exactly when it is and the rest does. -/
theorem fitted_next (ok : Bool) (r : Out) (t : State) : fitted ok r = .next t ↔ ok = true ∧ r = .next t := by
  cases ok <;> simp [fitted]

/-- A run of bytes is there when it lies in the fitted frames or is none of the reservoir. -/
theorem Mem.fits_iff (m : Mem) (sp : MemSpace) (a n : Nat) :
    m.fits sp a n = true ↔ (sp = .reservoir → a + n ≤ m.capacity * Config.frameBytes) := by
  simp only [Mem.fits, Bool.or_eq_true, Bool.not_eq_true', beq_eq_false_iff_ne, decide_eq_true_eq, ne_eq]
  tauto

/-- Making writes visible at a scope changes only the note of what is not yet visible. -/
theorem showAt_frame (s : State) (fabric : Bool) (p : Unfenced → Bool) :
    ∃ us, s.showAt fabric p = { s with mem := { s.mem with unfenced := us } } := by
  cases fabric <;> exact ⟨_, rfl⟩

/-! ### Checking a tile out -/

/-- Checking a tile out changes no tile. -/
theorem tile_select (s : State) (n k : Nat) (h : twf {} s.tiles = true) : (s.select n).tile k = s.tile k := by
  unfold State.select
  by_cases hn : n = s.cur
  · rw [if_pos hn]
  · rw [if_neg hn]
    unfold State.tile
    by_cases hk : k = n
    · subst hk; simp only [if_true]; rw [if_neg hn]; exact tget_tset_ne _ _ _ _ _ hn
    · simp only [if_neg hk]
      rw [tget_tdel_ne _ _ _ _ hk, tget_tset _ _ _ _ _ h]

theorem select_cur (s : State) (n : Nat) : (s.select n).cur = n := by
  unfold State.select
  split
  · exact Eq.symm ‹_›
  · rfl

/-- The tile checked out is the tile of its number. -/
theorem select_core (s : State) (n : Nat) (h : twf {} s.tiles = true) : (s.select n).core = s.tile n := by
  have := tile_select s n n h
  unfold State.tile at this
  rw [if_pos (select_cur s n).symm] at this
  exact this

theorem select_tiles_wf (s : State) (n : Nat) (h : twf {} s.tiles = true) : twf {} (s.select n).tiles = true := by
  unfold State.select
  split
  · exact h
  · exact twf_tdel _ _ _ (twf_tset _ _ _ _ h)

/-- Checking a tile out leaves everything but the tiles. -/
theorem select_frame (s : State) (n : Nat) :
    (s.select n).clock = s.clock ∧ (s.select n).mem = s.mem ∧ (s.select n).gangs = s.gangs ∧ (s.select n).jobs = s.jobs ∧
      (s.select n).lk = s.lk ∧ (s.select n).platform = s.platform ∧ (s.select n).fabric = s.fabric ∧
      (s.select n).flights = s.flights ∧ (s.select n).fresh = s.fresh ∧ (s.select n).agenda = s.agenda := by
  unfold State.select
  split <;> exact ⟨rfl, rfl, rfl, rfl, rfl, rfl, rfl, rfl, rfl, rfl⟩

/-- What is done to tile `n` leaves every tile that the change, with `n` checked out, leaves. -/
theorem tile_onTile (s : State) (n k : Nat) (f : State → State) (h : twf {} (f (s.select n)).tiles = true) :
    (s.onTile n f).tile k = (f (s.select n)).tile k := tile_select _ _ _ h

/-! ### What a reader observes -/

/-- What a reader has observed leaves no write listed that was not: each that stays is one of before, or that one visible at device scope. -/
theorem dropFirst_sub {α : Type} (p : α → Bool) (n : Nat) (xs : List α) : ∀ x ∈ dropFirst p n xs, x ∈ xs := by
  induction xs generalizing n with
  | nil => cases n <;> simp [dropFirst]
  | cons y ys ih =>
    cases n with
    | zero => exact fun x h => h
    | succ n =>
      intro x h
      simp only [dropFirst] at h
      split at h
      · exact List.mem_cons_of_mem _ (ih n x h)
      · rcases List.mem_cons.mp h with h | h
        · exact h ▸ List.mem_cons_self
        · exact List.mem_cons_of_mem _ (ih _ x h)

theorem inDeviceFirst_sub (p : Unfenced → Bool) (n : Nat) (us : List Unfenced) :
    ∀ u ∈ inDeviceFirst p n us, ∃ v ∈ us, u = v ∨ u = { v with dev := true } := by
  induction us generalizing n with
  | nil => cases n <;> simp [inDeviceFirst]
  | cons y ys ih =>
    cases n with
    | zero => exact fun u h => ⟨u, h, .inl rfl⟩
    | succ n =>
      intro u h
      simp only [inDeviceFirst] at h
      split at h
      · rcases List.mem_cons.mp h with h | h
        · exact ⟨y, List.mem_cons_self, .inr h⟩
        · obtain ⟨v, hv, e⟩ := ih n u h; exact ⟨v, List.mem_cons_of_mem _ hv, e⟩
      · rcases List.mem_cons.mp h with h | h
        · exact ⟨y, List.mem_cons_self, .inl h⟩
        · obtain ⟨v, hv, e⟩ := ih _ u h; exact ⟨v, List.mem_cons_of_mem _ hv, e⟩

/-- See `dropFirst_sub`: an observation at any scope. -/
theorem observes_sub (r : Reader) (s : State) (p : Unfenced → Bool) (n : Nat) :
    ∀ u ∈ r.observes s p n, ∃ v ∈ s.mem.unfenced, u = v ∨ u = { v with dev := true } := by
  intro u h
  have dropped (h : u ∈ dropFirst p n s.mem.unfenced) : ∃ v ∈ s.mem.unfenced, u = v ∨ u = { v with dev := true } :=
    ⟨u, dropFirst_sub p n _ u h, .inl rfl⟩
  unfold Reader.observes at h
  simp only at h
  split at h
  · exact ⟨u, h, .inl rfl⟩
  · split at h
    · exact ⟨u, h, .inl rfl⟩
    · split at h
      · exact dropped h
      · split at h
        · exact ⟨u, h, .inl rfl⟩
        · exact inDeviceFirst_sub p _ _ u h
  · exact dropped h

/-! ### Reading staging -/

/-- A free choice uses at most free values. -/
theorem choose_frame {α : Type} (s : State) (a b : α) : ∃ k, (s.choose a b).2 = { s with fresh := k } := ⟨_, rfl⟩

theorem chooseAmong_frame {α : Type} (s : State) (cur : α) (xs : List α) :
    ∃ k, (s.chooseAmong cur xs).2 = { s with fresh := k } := by
  induction xs with
  | nil => exact ⟨s.fresh, rfl⟩
  | cons x xs ih =>
    obtain ⟨k, hk⟩ := ih
    refine ⟨k + 1, ?_⟩
    simp only [State.chooseAmong, State.choose, State.takeFree, hk]

/-- A read of an element changes only what is noted as not yet visible, and takes free values. -/
theorem readElement_frame (s : State) (who : Reader) (sp : MemSpace) (a n : Nat) :
    ∃ us k, (readElement s who sp a n).2 = { s with mem := { s.mem with unfenced := us }, fresh := k } := by
  obtain ⟨k, h⟩ := chooseAmong_frame s (unseenWrites s who sp a).length (List.range (unseenWrites s who sp a).length)
  simp only [readElement, h, State.mapMem]
  exact ⟨_, k, rfl⟩

/-- A read by an agent that is no tile changes no byte and no register. -/
theorem readRun_frame (s : State) (who : Reader) (sp : MemSpace) (a n : Nat) :
    ∃ us k, (readRun s who sp a n).2 = { s with mem := { s.mem with unfenced := us }, fresh := k } := by
  suffices h : ∀ (es : List (Nat × Nat)) (r : List Byte × State), ∃ us k,
      (es.foldl (fun r e => let x := readElement r.2 who sp e.1 e.2
        (spliceBytes r.1 (e.1 - a) (x.1.drop (a - e.1)), x.2)) r).2 = { r.2 with mem := { r.2.mem with unfenced := us }, fresh := k } from
    h _ (readBytes (s.mem.space sp) a n, s)
  intro es
  induction es with
  | nil => exact fun r => ⟨r.2.mem.unfenced, r.2.fresh, rfl⟩
  | cons e es ih =>
    intro r
    obtain ⟨us, k, h1⟩ := readElement_frame r.2 who sp e.1 e.2
    obtain ⟨vs, j, h2⟩ := ih (spliceBytes r.1 (e.1 - a) ((readElement r.2 who sp e.1 e.2).1.drop (a - e.1)), (readElement r.2 who sp e.1 e.2).2)
    refine ⟨vs, j, ?_⟩
    rw [List.foldl_cons, h2]
    simp only [h1]

/-- A read of a unit as it stands changes nothing but the free values it used and the tags of lines with an error it cannot correct. -/
theorem readHeld_frame (s : State) (u : Nat) :
    ∃ k ps, (readHeld s u).2 = { s with fresh := k }.mapStaging fun t => { t with poison := ps } := by
  unfold readHeld
  split
  · exact ⟨_, _, rfl⟩
  · exact ⟨s.fresh, s.core.staging.poison, rfl⟩

/-- A core read of a unit changes nothing but the free values it used, the old values that it may still see and the tags of lines with an
error it cannot correct (R177, R208, R213). -/
theorem readUnit_frame (s : State) (u : Nat) :
    ∃ k xs ps, (readUnit s u).2 = { s with fresh := k }.mapStaging fun t => { t with unseen := xs, poison := ps } := by
  obtain ⟨k, hk⟩ := chooseAmong_frame s (s.core.staging.unseen.filter fun x => x.unit == u).length (List.range _)
  unfold readUnit
  simp only
  split
  · rw [hk]; exact ⟨k, _, s.core.staging.poison, rfl⟩
  · rw [hk]
    generalize (s.chooseAmong _ _).1 = c
    obtain ⟨j, ps, hj⟩ := readHeld_frame ({ s with fresh := k }.mapStaging fun t => { t with
      unseen := dropFirst (fun x : StaleUnit => x.unit == u) c t.unseen }) u
    exact ⟨j, _, ps, hj⟩

theorem readUnits_frame (s : State) (us : List Nat) :
    ∃ k xs ps, (readUnits s us).2 = { s with fresh := k }.mapStaging fun t => { t with unseen := xs, poison := ps } := by
  induction us generalizing s with
  | nil => exact ⟨s.fresh, s.core.staging.unseen, s.core.staging.poison, rfl⟩
  | cons u us ih =>
    obtain ⟨k, xs, ps, hk⟩ := readUnit_frame s u
    obtain ⟨j, ys, qs, hj⟩ := ih (readUnit s u).2
    refine ⟨j, ys, qs, ?_⟩
    simp only [readUnits, hj]
    rw [hk]
    rfl

/-- A core read of staging changes nothing but the free values it used, the old values that it may still see, the tags of lines with
an error it cannot correct, and the verdict, which it can only raise (R177, R295). -/
theorem stageLoad_frame (s : State) (a n : Nat) :
    ∃ k v xs ps, (stageLoad s a n).2 = ({ s with fresh := k }.mapCtl fun c => { c with verdict := v }).mapStaging fun t =>
      { t with unseen := xs, poison := ps } := by
  obtain ⟨k, xs, ps, hk⟩ := readUnits_frame s (unitsOf a n)
  simp only [stageLoad, hk]
  generalize List.any _ UnitValue.fixed = b
  cases b
  · exact ⟨k, s.core.ctl.verdict, xs, ps, rfl⟩
  · exact ⟨k, s.core.ctl.verdict.worst .corrected, xs, ps, rfl⟩

/-! ### Results in flight -/

/-- A result in flight is added behind those already there, and nothing else changes. -/
theorem after_eq (s : State) (lat : Nat) (e : Effect) :
    s.after lat e = s.mapCore fun t => { t with results := t.results ++ [{ ready := s.core.ctl.cyc + lat, eff := e }] } := rfl

/-- Nothing lands while no readable cycle has come. -/
theorem land_none (s : State) (h : ∀ r ∈ s.core.results, s.core.ctl.cyc < r.ready) : land s = s := by
  have h1 : (s.core.results.filter fun r => decide (r.ready ≤ s.core.ctl.cyc)) = [] := by
    rw [List.filter_eq_nil_iff]; intro r hr; have := h r hr; simp; omega
  have h2 : (s.core.results.filter fun r => !decide (r.ready ≤ s.core.ctl.cyc)) = s.core.results := by
    rw [List.filter_eq_self]; intro r hr; have := h r hr; simp; omega
  simp only [land, h1, List.filter_nil, landList, List.foldl_nil, State.mapCore, h2]

/-- A scalar result: its slot's latch always, its register unless it is s0 (R64, R68). -/
theorem scalarResult_results (s : State) (n : Nat) (d : BitVec 6) (lat : Nat) (x : Scalar × Bool) :
    (scalarResult s n d lat x).core.results = s.core.results ++
      (if d = 0 then [] else [{ ready := s.core.ctl.cyc + lat, eff := .scalar d.toNat x.1 x.2 }]) ++
      [{ ready := s.core.ctl.cyc + lat, eff := .latch n false true (x.1.zeroExtend 768) x.2 }] := by
  unfold scalarResult
  by_cases h : d = 0
  · simp only [if_pos h]; simp [State.after, State.push]
  · simp only [if_neg h]; simp [State.after, State.push]

/-- A vector result: its slot's latch always, its register unless the code is 63 (R60, R64). -/
theorem vectorResult_results (s : State) (n : Nat) (d : BitVec 6) (lat : Nat) (x : Row × Bool) :
    (vectorResult s n d lat x).core.results = s.core.results ++
      (if d = 63 then [] else [{ ready := s.core.ctl.cyc + lat, eff := .vector (physV s.core.ctl.rrb d.toNat) x.1 x.2 }]) ++
      [{ ready := s.core.ctl.cyc + lat, eff := .latch n true true x.1 x.2 }] := by
  unfold vectorResult
  by_cases h : d = 63
  · simp only [if_pos h]; simp [State.after, State.push]
  · simp only [if_neg h]; simp [State.after, State.push]

/-! ### Holds -/

/-- A request of a hold names no other gang. -/
theorem requestHold_other (s : State) (g k : Nat) (c : HoldCause) (h : k ≠ g) : (s.requestHold g c).gang k = s.gang k :=
  tget_tset_ne _ _ _ _ _ h

/-- A hold that no cause had requested takes effect 16 + P cycles later (R38). -/
theorem requestHold_first (s : State) (g : Nat) (c : HoldCause) (hw : twf {} s.gangs = true) (h : (s.gang g).causes = [])
    (hh : (s.gang g).held = false) (he : (s.gang g).effectAt = none) :
    (s.requestHold g c).gang g =
      { s.gang g with causes := [c], effectAt := some (s.clock + 16 + (s.gang g).pad) } := by
  unfold State.requestHold State.mapGang State.gang
  rw [tget_tset_same _ _ _ _ hw]
  unfold State.gang at h hh he
  simp [h, hh, he]

/-- The last cause of a hold in effect clears: the gang resumes 16 + P cycles later (R38). -/
theorem clearHold_last (s : State) (g : Nat) (c : HoldCause) (hw : twf {} s.gangs = true) (h : (s.gang g).causes = [c])
    (hh : (s.gang g).held = true) :
    (s.clearHold g c).gang g = { s.gang g with causes := [], resumeAt := some (s.clock + 16 + (s.gang g).pad) } := by
  unfold State.clearHold State.mapGang State.gang
  rw [tget_tset_same _ _ _ _ hw]
  unfold State.gang at h hh
  simp [h, hh]

/-! ### Taking a trap -/

theorem raise_frame (s : State) (v : Verdict) : (s.raise v).mem = s.mem ∧ (s.raise v).core.regs = s.core.regs ∧
    (s.raise v).core.staging = s.core.staging ∧ (s.raise v).core.vault = s.core.vault := ⟨rfl, rfl, rfl, rfl⟩

theorem taintIf_core (s : State) (b : Bool) : ∃ v, s.taintIf b = s.mapCtl fun c => { c with verdict := v } := by
  cases b
  · exact ⟨s.core.ctl.verdict, rfl⟩
  · exact ⟨_, rfl⟩

/-- A later cause changes the control state alone, and none of it once the record is complete (R282). -/
theorem takeLate_frame (s : State) (r : TrapRec) (npc : Nat) : ∃ c, takeLate s r npc = s.mapCtl fun _ => c := by
  unfold takeLate
  split
  · exact ⟨s.core.ctl, rfl⟩
  · exact ⟨_, rfl⟩

/-- Taking a trap changes no register file, staging, vault or result in flight of the tile (R81). -/
theorem takeTrap_frame (s : State) (f : IssueFault) :
    (takeTrap s f).core.regs = s.core.regs ∧ (takeTrap s f).core.staging = s.core.staging ∧
      (takeTrap s f).core.vault = s.core.vault ∧ (takeTrap s f).core.results = s.core.results ∧
      (takeTrap s f).core.barge = s.core.barge ∧ (takeTrap s f).core.canal = s.core.canal ∧
      (takeTrap s f).core.task = s.core.task ∧ (takeTrap s f).clock = s.clock ∧ (takeTrap s f).cur = s.cur := by
  have hw : ∀ u : State, (writeTrapRecord u).core = u.core ∧ (writeTrapRecord u).clock = u.clock ∧ (writeTrapRecord u).cur = u.cur := by
    intro u; unfold writeTrapRecord; split
    · exact ⟨rfl, rfl, rfl⟩
    · exact ⟨by simp only [mapGang_core, mapMem_core], by simp only [mapGang_clock, mapMem_clock], by simp only [mapGang_cur, mapMem_cur]⟩
  unfold takeTrap
  split
  · rename_i r hr
    obtain ⟨v, hv⟩ := taintIf_core s (decide (f.cause = 5) && !r.final)
    obtain ⟨c, hc⟩ := takeLate_frame (s.taintIf (decide (f.cause = 5) && !r.final)) r s.core.ctl.pc
    rw [hc, hv]
    exact ⟨rfl, rfl, rfl, rfl, rfl, rfl, rfl, rfl, rfl⟩
  · obtain ⟨v, hv⟩ := taintIf_core s (decide (f.cause = 5))
    simp only [State.requestHold, State.mapGang, (hw _).1, (hw _).2.1, (hw _).2.2, hv]
    exact ⟨rfl, rfl, rfl, rfl, rfl, rfl, rfl, rfl, rfl⟩

/-- Taking a trap ends issue in a tile that has no complete record yet (R82, R282). -/
theorem takeTrap_stops (s : State) (f : IssueFault) (h : ∀ r, s.core.ctl.trap = some r → r.final = false) :
    (takeTrap s f).core.ctl.status = .stopped := by
  have hw : ∀ u : State, (writeTrapRecord u).core = u.core := by
    intro u; unfold writeTrapRecord; split
    · rfl
    · simp only [mapGang_core, mapMem_core]
  unfold takeTrap
  split
  · rename_i r hr
    simp [takeLate, h r hr]
  · simp only [State.requestHold, State.mapGang, hw]
    rfl

/-- Taking a trap keeps the canonical form of the memories. -/
theorem wf_takeTrap (s : State) (f : IssueFault) (h : Memory.wf s.mem = true) : Memory.wf (takeTrap s f).mem = true := by
  unfold takeTrap
  split
  · rename_i r hr
    obtain ⟨v, hv⟩ := taintIf_core s (decide (f.cause = 5) && !r.final)
    obtain ⟨c, hc⟩ := takeLate_frame (s.taintIf (decide (f.cause = 5) && !r.final)) r s.core.ctl.pc
    rw [hc, hv]
    exact h
  · obtain ⟨v, hv⟩ := taintIf_core s (decide (f.cause = 5))
    simp only [State.requestHold, mapGang_mem]
    refine wf_writeTrapRecord _ ?_
    simp only [mapCtl_mem, hv]; exact h

end Sys2Proof.Machine
end

