-- ==== Sys2Proof/Laws/Rows.lean ====
section
/-! SUPPORT. Rows by element: what element `j` of each row operation of the V slots is (R69, R428). -/

namespace Sys2Proof.Machine

/-- Packing the elements of a row changes nothing that a read of an element sees. -/
theorem elemAt_pack (w : Nat) (xs : List Nat) (j : Nat) (h : w * xs.length ≤ 96) :
    elemAt w (BitVec.ofNat 768 (ofElems w xs)).toNat j = xs.getD j 0 % 2 ^ (8 * w) :=
  elemAt_toNat_ofElems 768 w xs j (by rw [Nat.mul_assoc]; omega)

theorem getD_map_elems (w n x j : Nat) (f : Nat → Nat) (h : j < n) : ((elems w n x).map f).getD j 0 = f (elemAt w x j) := by
  rw [← elems_getD w n x j h]
  simp [List.getD_eq_getElem?_getD, elems_length, h]

theorem elemAt_mapRow (w : Nat) (f : Nat → Nat) (x : Row) (j : Nat) (h : j < 96 / w) :
    elemAt w (mapRow w f x).toNat j = f (elemAt w x.toNat j) % 2 ^ (8 * w) := by
  unfold mapRow
  rw [elemAt_pack _ _ _ (by simp [elems_length, Nat.mul_div_le]), getD_map_elems _ _ _ _ _ h]

theorem elemAt_zipRow (w : Nat) (f : Nat → Nat → Nat) (x y : Row) (j : Nat) (h : j < 96 / w) :
    elemAt w (zipRow w f x y).toNat j = f (elemAt w x.toNat j) (elemAt w y.toNat j) % 2 ^ (8 * w) := by
  unfold zipRow
  rw [elemAt_pack _ _ _ (by simp [elems_length, Nat.mul_div_le])]
  rw [← elems_getD w _ x.toNat j h, ← elems_getD w _ y.toNat j h]
  simp [List.getD_eq_getElem?_getD, elems_length, h]

/-- The union of the flags of a list, element by element. -/
theorem allFlags_eq_foldl (xs : List (Nat × Flags)) (a : Flags) : xs.foldl (fun a x => a ||| x.2) a = a ||| allFlags xs := by
  induction xs generalizing a with
  | nil => simp [allFlags]
  | cons x xs ih => simp only [List.foldl_cons, ih, allFlags, BitVec.or_assoc]

theorem elems_eq_map (w n x : Nat) : elems w n x = (List.range n).map (elemAt w x) := by
  apply List.ext_getElem (by simp [elems_length])
  intro j h1 h2
  have := elems_getD w n x j (by simpa [elems_length] using h1)
  rw [List.getD_eq_getElem?_getD, List.getElem?_eq_getElem h1] at this
  simpa using this

/-- A row of flagged elements: its elements and its flags. -/
theorem elemAt_flaggedRow (w : Nat) (xs : List (Nat × Flags)) (j : Nat) (h : w * xs.length ≤ 96) :
    elemAt w (flaggedRow w xs).1.toNat j = (xs.map Prod.fst).getD j 0 % 2 ^ (8 * w) :=
  elemAt_pack _ _ _ (by simpa using h)

theorem allFlags_map_range (n : Nat) (f : Nat → Nat × Flags) :
    allFlags ((List.range n).map f) = (List.range n).foldl (fun a j => a ||| (f j).2) 0 := by
  have := allFlags_eq_foldl ((List.range n).map f) 0
  rw [List.foldl_map] at this
  rw [this]
  simp

end Sys2Proof.Machine
end

