-- ==== Sys2Proof/Tests/Slice0.lean ====
section
/-! SUPPORT. Tests: ill-formed words, words written out bit by bit, one-step results taken from the manual, and witnesses that the
hypotheses of the statements can be met together. -/

namespace Sys2Proof.Tests

open Sys2Proof Sys2Proof.Machine Sys2Proof.Claims

set_option maxRecDepth 8000

/-- An outcome is the fault of a frame that is not there. -/
def faults (o : Out) : Bool :=
  match o with
  | .fault .noSuchFrame => true
  | .next _ | .refused _ => false

/-- A next state of which `f` holds. -/
def after (o : Out) (f : State → Bool) : Bool :=
  match o with
  | .next t => f t
  | _ => false

/-! ### Well-formedness: one ill-formed term for each check -/

/-- Destination and rounding codes outside Tables 15.1 and 4.4. -/
theorem test_illFormed_codes :
    [Instr.add 56 1 2 0, .genq 63 1 0, .lds 57 0 0 0, .mfs 0 60 0, .vaddI .v0 0 0 48 1 2 0, .ldv 62 0 0 0, .recv 50 0 0, .rd 0 0 0 55 0,
      .scls 0 49 0, .vaddF .v0 0 5 1 2 3 0, .maccF32 0 0 0 0 7 0 0, .vfma .v1 1 0 63 2 3 0, .vsel .v0 0 63 1 2 0, .cmp 1 2 3 6 0].all
      (fun i => !i.wellFormed) = true := by decide

/-- Format, width, order, register number, group, scale, delay and scope codes that the forms mark illegal. -/
theorem test_illFormed_fields :
    [Instr.vmaxe .v0 3 1 2 3 0, .vexps .v0 0 0 1 2 0, .vcvtFromFloat .v0 0 0 1 2 6 0 0, .vcvtFromInt .v0 0 0 0 1 2 0 6 0,
      .vcvtFromInt .v0 0 0 1 1 2 1 0 0, .vcvtWidenF8 .v0 3 1 2 0 0, .vcvtWidenF8 .v0 4 1 2 4 0, .mhad 0 3 2 0, .mhad 0 1 1 0,
      .msta 2 0 0 0 0, .mfs 0x05 1 0, .mts 0x00 1 0, .maccaF64 0 0 0 3 0 0 0 0, .maccaI8 0 0 0 1 0 0 0, .mdrainF32F32 3 0 0 0 0 0 0,
      .mdrainF32F16 0 0 0 2 0 0 0, .mdrainI32I8 0 0 1 0 0, .sdly 0 0 0 0 0, .scnt 0 0 63 1 0, .bcopy 0 0 3 0 0 0, .bcopy 0 0 0 1 1 0,
      .bcopy 0 0 1 1 0 0, .bgath 0 0 3 0, .breda 0 0 0 1 0 0, .breda 0 0 1 0 12 0, .breda 0 0 0 0 4 0, .batom 0 0 3 0 0, .batom 0 0 0 10 0,
      .bfence 0 0 3 0].all (fun i => !i.wellFormed) = true := by decide

/-! ### Decoding: a word of every instruction, its fields set apart as the manual's forms set them -/

/-- In a slot, each word decodes to the instruction beside it. -/
def reads (sl : Slot) (xs : List (SlotWord × Instr)) : Bool := xs.all fun x => decide ((decode sl x.1).toOption = some x.2)

/-- C-slot words written out from the forms of Table 15.3: opcode, then field by field. -/
theorem test_decode_c0 : reads .c [
    (0b000001_010100101111_00000000000_010#32, .br 1327 2),
    (0b000010_011001010010_110_00000000_001#32, .brp 1618 6 1),
    (0b000011_000100101001_00000000000_111#32, .call 297 7),
    (0b000100_00000000000000000000000_101#32, .ret 5),
    (0b000101_000110000010_00000000000_011#32, .loop 386 3),
    (0b000110_100101010100_01_111010010_101#32, .loopr 2388 1 466 5),
    (0b001000_00110111000_000010011010_001#32, .waitb 440 154 1),
    (0b001001_01101111001_011010110001_001#32, .arrb 889 1713 1),
    (0b001010_010000_00000000000000000_001#32, .waitt 16 1),
    (0b001011_100100_011100_00000000000_001#32, .waitp 36 28 1),
    (0b001100_00000000000000000000000_111#32, .trig 7),
    (0b001101_00000000000000000000000_101#32, .endTask 5),
    (0b010000_001000_111101_1_0000000000_110#32, .seg 8 61 1 6),
    (0b010001_00000000000000000000000_110#32, .sege 6),
    (0b010010_00000000000000000000000_101#32, .ifence 5),
    (0b010011_00000000000000000000000_001#32, .snap 1)] = true := by decide

/-- C-slot words written out from the forms of Table 15.3: opcode, then field by field. -/
theorem test_decode_c1 : reads .c [
    (0b010100_100011_100110_00000000000_100#32, .genq 35 38 4),
    (0b011000_00001101_000000000000000_010#32, .brk 13 2),
    (0b011001_00001100_000000000000000_101#32, .trap 12 5),
    (0b011100_111_010_011_00000000000000_100#32, .pand 7 2 3 4),
    (0b011101_010_101_001_00000000000000_101#32, .por 2 5 1 5),
    (0b011110_011_101_111_00000000000000_110#32, .pxor 3 5 7 6),
    (0b011111_010_001_00000000000000000_101#32, .pnot 2 1 5)] = true := by decide

/-- A-slot words written out from the forms of Table 15.4: opcode, then field by field. -/
theorem test_decode_a0 : reads .a [
    (0b000001_100011_101001_001101_00000_011#32, .add 35 41 13 3),
    (0b000010_010100_100100_101110_00000_001#32, .sub 20 36 46 1),
    (0b000011_100011_000100_101000_00000_010#32, .andS 35 4 40 2),
    (0b000100_100000_101100_100011_00000_100#32, .orS 32 44 35 4),
    (0b000101_101001_010101_011110_00000_101#32, .xorS 41 21 30 5),
    (0b000110_101110_011110_011000_00000_011#32, .shl 46 30 24 3),
    (0b000111_011000_110011_001100_00000_110#32, .shr 24 51 12 6),
    (0b001000_101001_010000_000110_00000_101#32, .sra 41 16 6 5),
    (0b001001_011010_100010_100000_00000_011#32, .mul 26 34 32 3),
    (0b001010_101000_011101_010011_00000_101#32, .mulh 40 29 19 5),
    (0b001011_010011_001000_100001_00000_100#32, .mulhu 19 8 33 4),
    (0b001100_010110_110001_010110_0000_1_100#32, .maxS 22 49 22 1 4),
    (0b001101_011110_000011_111110_0000_1_111#32, .minS 30 3 62 1 7),
    (0b001110_100010_100101_00000000000_111#32, .clz 34 37 7),
    (0b001111_101101_110101_00000000000_011#32, .ffs 45 53 3),
    (0b010000_011011_101101_00000000000_011#32, .popc 27 45 3)] = true := by decide

/-- A-slot words written out from the forms of Table 15.4: opcode, then field by field. -/
theorem test_decode_a1 : reads .a [
    (0b010001_100100_100000_100110_00_111_100#32, .sel 36 32 38 7 4),
    (0b010010_001_000_110110_000110_00100_011#32, .cmp 1 54 6 4 3),
    (0b011000_100000_101101_10101010001_001#32, .addi 32 45 1361 1),
    (0b011001_010010_101111_10110011101_011#32, .lds 18 47 1437 3),
    (0b011010_100101_100101_11111110010_110#32, .sts 37 37 2034 6),
    (0b011100_101011_01110010000101100_011#32, .li 43 58412 3),
    (0b011101_100111_01100010110000111_110#32, .lih 39 50567 6)] = true := by decide

/-- V-slot words written out from the forms of Table 15.6: opcode, then field by field. -/
theorem test_decode_v0 : reads .v1 [
    (0b000001_10_001_011111_010111_001011_101#32, .vaddF .v1 2 1 31 23 11 5),
    (0b000010_01_100_010010_001110_110010_011#32, .vsubF .v1 1 4 18 14 50 3),
    (0b000011_01_010_011101_011010_111011_111#32, .vmulF .v1 1 2 29 26 59 7),
    (0b000100_10_001_010110_011101_011010_101#32, .vfma .v1 2 1 22 29 26 5),
    (0b000101_10_000_101101_001001_110101_100#32, .vmaxF .v1 2 45 9 53 4),
    (0b000110_11_000_011001_101110_011011_011#32, .vminF .v1 3 25 46 27 3),
    (0b000111_11_000_101101_011001_111110_010#32, .vcpys .v1 3 45 25 62 2),
    (0b001000_01_000_010011_001100_001010_010#32, .vcmpEqF .v1 1 19 12 10 2),
    (0b001001_11_000_011000_000001_100000_111#32, .vcmpLtF .v1 3 24 1 32 7),
    (0b001010_11_000_010110_010001_010011_001#32, .vcmpLeF .v1 3 22 17 19 1),
    (0b001011_01_000_011110_100011_000000_011#32, .vabsF .v1 1 30 35 3),
    (0b001100_11_000_100011_010101_000000_010#32, .vnegF .v1 3 35 21 2),
    (0b001101_11_001_011111_111010_000000_111#32, .vrint .v1 3 1 31 58 7),
    (0b001110_11_100_011101_011010_000000_100#32, .vredF .v1 3 4 29 26 4),
    (0b001111_01_100_100101_011010_000100_010#32, .vscale .v1 1 4 37 26 4 2),
    (0b010000_01_010_011111_001011_000000_001#32, .vrcp .v1 1 2 31 11 1)] = true := by decide

/-- V-slot words written out from the forms of Table 15.6: opcode, then field by field. -/
theorem test_decode_v1 : reads .v1 [
    (0b010001_10_001_010100_000001_000000_101#32, .vsqrt .v1 2 1 20 1 5),
    (0b010010_01_001_011100_101000_000000_001#32, .vrsq .v1 1 1 28 40 1),
    (0b010011_01_010_100100_011001_000000_010#32, .vexp2 .v1 1 2 36 25 2),
    (0b010100_11_011_011100_100111_000000_011#32, .vlog2 .v1 3 3 28 39 3),
    (0b010101_10_001_010100_110111_000000_100#32, .vsin .v1 2 1 20 55 4),
    (0b010110_10_100_100000_010100_000000_001#32, .vcos .v1 2 4 32 20 1),
    (0b010111_01_001_101000_010110_000000_110#32, .vtanh .v1 1 1 40 22 6),
    (0b100000_011_1_0_101011_101101_001011_101#32, .vaddI .v1 3 1 43 45 11 5),
    (0b100001_001_1_0_100001_011000_001010_110#32, .vsubI .v1 1 1 33 24 10 6),
    (0b100010_101_1_0_101001_100010_010100_110#32, .vmulI .v1 5 1 41 34 20 6),
    (0b100011_111_00_010011_101101_110111_011#32, .vmulh .v1 7 19 45 55 3),
    (0b100100_101_00_011100_111011_001011_011#32, .vmaxI .v1 5 28 59 11 3),
    (0b100101_111_00_011000_100011_100011_111#32, .vminI .v1 7 24 35 35 7),
    (0b100110_101_00_011011_101001_001111_101#32, .vand .v1 5 27 41 15 5),
    (0b100111_111_00_101010_110001_110111_010#32, .vor .v1 7 42 49 55 2),
    (0b101000_111_00_011000_110101_011010_110#32, .vxor .v1 7 24 53 26 6)] = true := by decide

/-- V-slot words written out from the forms of Table 15.6: opcode, then field by field. -/
theorem test_decode_v2 : reads .v1 [
    (0b101001_111_00_011000_001101_100010_100#32, .vshl .v1 7 24 13 34 4),
    (0b101010_011_00_101000_000010_000010_111#32, .vshr .v1 3 40 2 2 7),
    (0b101011_011_1_0_011001_001101_000000_110#32, .vabsI .v1 3 1 25 13 6),
    (0b101100_101_1_0_011111_110100_000000_110#32, .vnegI .v1 5 1 31 52 6),
    (0b101101_011_00_011100_000110_000000_010#32, .vclz .v1 3 28 6 2),
    (0b101110_001_00_011000_011111_000000_010#32, .vffs .v1 1 24 31 2),
    (0b101111_011_00_010111_011111_000000_101#32, .vpopc .v1 3 23 31 5),
    (0b110000_101_00_101011_000001_011111_110#32, .vcmpEqI .v1 5 43 1 31 6),
    (0b110001_011_00_101010_101010_000110_111#32, .vcmpLtI .v1 3 42 42 6 7),
    (0b110010_110_00_010100_111011_011001_111#32, .vcmpLeI .v1 6 20 59 25 7),
    (0b110011_110_1_0_100000_111001_000000_010#32, .vredI .v1 6 1 32 57 2),
    (0b110100_100_00_011110_110011_101001_011#32, .vmaxe .v1 4 30 51 41 3),
    (0b110101_011_0_1_101010_111101_000000_110#32, .vexps .v1 3 1 42 61 6),
    (0b110110_100_00_011111_011010_110000_001#32, .vsel .v1 4 31 26 48 1),
    (0b110111_110_00_010110_001011_001001_001#32, .vshuf .v1 6 22 11 9 1),
    (0b111000_010_00_100011_111010_011110_111#32, .vdup .v1 2 35 58 30 7)] = true := by decide

/-- V-slot words written out from the forms of Table 15.6: opcode, then field by field. -/
theorem test_decode_v3 : reads .v1 [
    (0b111010_11_010_100100_110101_1101_1_0_110#32, .vcvtFromFloat .v1 3 2 36 53 13 1 6),
    (0b111011_101_1_0_001001_100010_010_101_011#32, .vcvtFromInt .v1 5 1 0 9 34 2 5 3),
    (0b111100_0101_0_101111_110001_0010_00_110#32, .vcvtWidenF8 .v1 5 47 49 2 6)] = true := by decide

/-- M-slot words written out from the forms of Table 5.2 and 15.7: opcode, then field by field. -/
theorem test_decode_m0 : reads .m [
    (0b000001_10_00_001010_100010_0000000_101#32, .mpush 2 10 34 5),
    (0b000010_10_00_01_0011_0000000000000_101#32, .mhad 2 1 3 5),
    (0b000011_01_00100010_000010_001_0000_111#32, .msta 1 34 2 1 7),
    (0b000100_11_10100111_0000000000000_001#32, .mzero 3 167 1),
    (0b000110_00_01000101_100001_0000000_110#32, .mfs 69 33 6),
    (0b000111_00_00100011_111100_0000000_010#32, .mts 35 60 2),
    (0b001000_10_11111101_101100_010_010_1_011#32, .maccF64 2 253 44 2 2 1 3),
    (0b001001_01_01001011_100001_010_011_1_101#32, .maccF32 1 75 33 2 3 1 5),
    (0b001010_10_11010110_010101_001_011_1_110#32, .maccF16 2 214 21 1 3 1 6),
    (0b001011_11_11010001_101101_101_100_1_101#32, .maccB16 3 209 45 5 4 1 5),
    (0b001100_01_10000111_100001_001_100_1_101#32, .maccF8e4 1 135 33 1 4 1 5),
    (0b001101_01_11000111_101010_010_010_1_100#32, .maccF8e5 1 199 42 2 2 1 4),
    (0b001110_11_10111010_010100_101_000_1_011#32, .maccI8 3 186 20 5 1 3),
    (0b001111_11_10000101_100001_101_000_1_111#32, .maccN8 3 133 33 5 1 7),
    (0b010000_01_11100011_1001_10_001_010_1_011#32, .maccaF64 1 227 9 2 1 2 1 3),
    (0b010001_01_11000110_0010_10_101_100_1_111#32, .maccaF32 1 198 2 2 5 4 1 7)] = true := by decide

/-- M-slot words written out from the forms of Table 5.2 and 15.7: opcode, then field by field. -/
theorem test_decode_m1 : reads .m [
    (0b010010_01_01110010_0110_01_101_010_1_100#32, .maccaF16 1 114 6 1 5 2 1 4),
    (0b010011_11_10001001_1101_01_100_010_1_101#32, .maccaB16 3 137 13 1 4 2 1 5),
    (0b010100_01_11011000_1000_00_010_100_1_100#32, .maccaF8e4 1 216 8 0 2 4 1 4),
    (0b010101_10_01010001_0010_00_110_010_1_001#32, .maccaF8e5 2 81 2 0 6 2 1 1),
    (0b010110_01_10101100_0101_00_111_000_1_111#32, .maccaI8 1 172 5 0 7 1 7),
    (0b010111_01_11110001_1100_00_110_000_1_010#32, .maccaN8 1 241 12 0 6 1 2),
    (0b011000_10_01000001_101101_010_010_1_010#32, .mdrainF32F32 2 65 45 2 2 1 2),
    (0b011001_10_11000000_010100_001_100_1_010#32, .mdrainF32F16 2 192 20 1 4 1 2),
    (0b011010_10_11111110_100110_001_010_1_110#32, .mdrainF32B16 2 254 38 1 2 1 6),
    (0b011011_10_01101111_100001_000_100_1_100#32, .mdrainF32F8e4 2 111 33 0 4 1 4),
    (0b011100_10_00110011_011100_000_011_1_110#32, .mdrainF32F8e5 2 51 28 0 3 1 6),
    (0b011101_10_01011110_010001_010_011_1_100#32, .mdrainF64F64 2 94 17 2 3 1 4),
    (0b011110_10_10110101_010001_001_100_1_101#32, .mdrainF64F32 2 181 17 1 4 1 5),
    (0b011111_00_10100000_011010_010_000_1_001#32, .mdrainI32I32 160 26 2 1 1),
    (0b100000_00_11111101_101110_001_000_1_001#32, .mdrainI32I16 253 46 1 1 1),
    (0b100001_00_00010110_011001_000_000_1_001#32, .mdrainI32I8 22 25 0 1 1)] = true := by decide

/-- D-slot words written out from the forms of Table 6.4: opcode, then field by field. -/
theorem test_decode_d : reads .d [
    (0b000001_10_1111_110010_00000000000_010#32, .act 2 15 50 2),
    (0b000010_10_0101_110001_00000000000_010#32, .actw 2 5 49 2),
    (0b000011_10_1110_000000_0111_101100_0_110#32, .rd 2 14 7 44 6),
    (0b000100_10_1110_000000_0101_011101_0_010#32, .wr 2 14 5 29 2),
    (0b000101_10_1001_00000000000000000_101#32, .pre 2 9 5),
    (0b000110_10_000000000000000000000_101#32, .prea 2 5),
    (0b000111_10_000000000000000000000_100#32, .ref 2 4),
    (0b001000_10_1100_00000000000000000_011#32, .refb 2 12 3)] = true := by decide

/-- F-slot words written out from the forms of Table 7.3: opcode, then field by field. -/
theorem test_decode_f : reads .f [
    (0b000001_001_000000_10_0_0001_101010_0_110#32, .sgen 1 2 1 42 6),
    (0b000010_010_000000_10_0_1111_010011_0_011#32, .sgenb 2 2 15 19 3),
    (0b000011_001_110_000_01_0_1101_0000000_011#32, .sregen 1 6 1 13 3),
    (0b000100_001_101_111_01_1_00000000000_001#32, .sand 1 5 7 1 1 1),
    (0b000101_011_111_001_10_1_00000000000_001#32, .sor 3 7 1 2 1 1),
    (0b000110_011_101_100_10_1_00000000000_101#32, .sxor 3 5 4 2 1 5),
    (0b000111_010_001_101_11_1_00000000000_010#32, .sxnor 2 1 5 3 1 2),
    (0b001000_001_010_011_01_1_0_010_0000000_010#32, .smux 1 2 3 1 1 2 2),
    (0b001001_011_110_000_10_000000000000_101#32, .snot 3 6 2 5),
    (0b001010_111_010_000_10_000000000000_100#32, .smov 7 2 2 4),
    (0b001011_101_110_000_01_0_1011_0000000_011#32, .sdly 5 6 1 11 3),
    (0b001100_000_011_000_01_00000_011001_1_001#32, .scnt 3 1 25 1 1),
    (0b001101_000_001_0000000000_010001_0_110#32, .scls 1 17 6),
    (0b001110_101_000000_11_00000_111111_0_010#32, .sld 5 3 63 2),
    (0b001111_000_101_000_10_00000_010000_0_100#32, .sst 5 2 16 4)] = true := by decide

/-- X-slot words written out from the forms of Table 8.2 and 15.8: opcode, then field by field. -/
theorem test_decode_x : reads .x [
    (0b000001_010100_101011_11010001110_110#32, .ldv 20 43 1678 6),
    (0b000010_011110_101011_01111110110_101#32, .stv 30 43 1014 5),
    (0b001000_101001_101011_00000000000_100#32, .send 41 43 4),
    (0b001001_100001_10_000000000000000_110#32, .recv 33 2 6),
    (0b001010_000000_001110_00000000000_010#32, .croute 14 2),
    (0b010000_010110_001101_00_0_1_0000000_111#32, .bcopy 22 13 0 0 1 7),
    (0b010001_111001_101110_10_000000000_110#32, .bgath 57 46 2 6),
    (0b010010_101001_001001_00000000000_100#32, .bscat 41 9 4),
    (0b010011_100001_010100_100_0_00_0010_0_001#32, .breda 33 20 4 0 2 1),
    (0b010100_010111_111111_10_0000_01001_001#32, .batom 23 63 2 9 1),
    (0b010101_110110_001001_10_000000000_001#32, .bfence 54 9 2 1),
    (0b010110_000101_101001_00000000000_110#32, .bmark 5 41 6),
    (0b010111_111001_010001_00000000000_100#32, .bseal 57 17 4),
    (0b011000_001011_000100_00000000000_001#32, .bopen 11 4 1)] = true := by decide
/-- A word of the V0 slot: `VFMA.f32.rtz v6, v2, v3` (R324). -/
theorem test_decode_v0slot : reads .v0 [(0b000100_01_001_000110_000010_000011_000#32, .vfma .v0 1 1 6 2 3 0)] = true := by decide

/-- Rejected by name: opcode 0 with a bit set, an unassigned opcode, a set reserved bit, an illegal field (Table 15.2). -/
theorem test_decode_rejects :
    [decode .c 1, decode .c 0x80000000, decode .d 0x06028008, decode .a 0x07810500, decode .x 0x8C000000, decode .f 0x40000000].all
      (fun x => x.toOption.isNone) = true := by decide

/-- A word of the table is read in the first slot in which it is an instruction (log entry 1). -/
theorem test_decodeTableWord : decodeTableWord 32 0x04190003 = some (.br 100 3) ∧ decodeTableWord 32 0 = some .nop ∧
    decodeTableWord 32 0xFFFFFFFF = none := by decide

/-! ### Witnesses: words -/

/-- A device that has booted, with no task. -/
def booted : State := { State.reset with platform := { phase := 5 } }

/-- A tile inside a bundle that has passed every check. -/
def ready : State := { booted with vetted := true }

/-- One task running on tile 0, with an all-zero image. -/
def one : State := State.reset.withFetchWord 32 0

/-- A word written in a memory. -/
def poke (sp : MemSpace) (xs : List (Nat × Nat)) (s : State) : State :=
  xs.foldl (fun s x => s.writeSpaceWord sp x.1 (BitVec.ofNat 64 x.2)) s

/-- A launch packet for node 2: one task, one variant of one bundle at 0x10000, priority `prio`, `nargs` arguments (Table 12.5). -/
def launch (prio : Nat) : List Scalar :=
  [BitVec.ofNat 64 (2 * 2 ^ 32 + 1 * 2 ^ 27 + prio * 2 ^ 4 + 1), BitVec.ofNat 64 (1 * 2 ^ 50 + 0x10000), 0, 0, 0, 0, 0, 0, 0, 0, 0, 0, 0, 0, 0]

/-- Every word takes its full effect in a bundle that passed the checks. -/
theorem test_runs : ∀ i, Runs i 0 ready := fun _ => ⟨Or.inl rfl, rfl⟩

/-- Words of every family take their full effect alone, right after a gang start. -/
theorem test_runs_alone :
    [Instr.nop, .br 5 0, .call 7 0, .loop 3 0, .loopr 3 1 2 0, .arrb 3 1 0, .waitb 2047 1 0, .trig 0, .endTask 0,
      .seg 1 2 1 0, .ifence 0, .snap 0, .genq 5 6 0, .brk 7 0, .trap 255 0, .pand 1 2 3 0, .pnot 0 7 0, .add 1 2 3 0, .mulhu 55 47 48 0,
      .cmp 0 1 2 5 0, .addi 1 1 0x7FF 0, .lds 0 0 0x7FF 0, .sts 1 2 3 0, .lih 4 0 0, .vaddF .v0 0 4 1 2 3 0, .vfma .v1 3 0 47 2 3 0,
      .vtanh .v0 0 0 63 1 0, .vaddI .v1 7 1 1 2 3 0, .vredI .v0 0 0 1 2 0, .vcvtFromInt .v0 2 0 0 1 2 0 1 0, .mpush 3 63 1 0,
      .mhad 0 0 1 0, .msta 1 255 1 0 0, .mzero 3 255 0, .mfs 0x7F 1 0, .mts 0x27 1 0, .maccB16 1 12 4 0 0 0 0, .maccaF64 0 0 15 2 0 0 0 0,
      .mdrainI32I8 255 63 0 1 0, .act 3 15 0 0, .actw 0 0 0 0, .pre 0 0 0, .prea 3 0, .ref 0 0, .refb 1 2 0,
      .sgen 0 3 15 1 0, .scls 7 63 0, .sld 1 0 2 0, .sst 1 0 2 0, .ldv 63 0 0x7FF 0, .stv 47 0 1 0, .croute 0 0, .bcopy 3 12 2 0 0 0,
      .bfence 63 0 2 0, .bmark 0 0 0].all (fun i => (bundleFaults one [i]).isEmpty) = true := by decide

/-- `LDS`, `LDV` and `CROUTE` over staging without error or unordered landing, at the last unit of staging. -/
theorem test_plain : Plain ready 0xFFFF8 8 ∧ Plain ready (stageAt ready 0 (32 * 2047) 32) 96 ∧ Plain ready 0 512 ∧
    (∀ k, k < 16 → tget false ready.core.staging.poison (stageAt ready 0 0 512 / 32 + k) = false) := by
  unfold Plain; exact ⟨by decide, by decide, by decide, fun _ _ => rfl⟩

/-- `CMP` at its last condition, and a Hadamard pair at its largest order. -/
theorem test_lastCodes : ((5 : BitVec 5).toNat < 6 ∧ Runs (.cmp 7 1 2 5 0) 0 ready) ∧
    (hadamardPair 8 2 = true ∧ Runs (.mhad 3 2 8 0) 0 ready) :=
  ⟨⟨by decide, test_runs _⟩, by decide, test_runs _⟩

/-- `RET` with one return on the stack. -/
def returns : State := ready.mapCtl fun c => { c with ret := [9] }

theorem test_returns : returns.core.ctl.ret = 9 :: [] ∧ Runs (.ret 0) 0 returns := ⟨rfl, Or.inl rfl, rfl⟩

/-- A job in generation 3 that retains generation 1. -/
def cuts : State :=
  let s := ready.mapTask fun t => { t with pasid := 1 }
  let s := s.mapRegs fun r => { r with s := [(1, 1), (2, 3), (3, 4)] }
  { s with jobs := [(1, { live := true, gen := 3, gens := [
    { num := 1, state := .drained, dev := false, cutClock := 0, record := 64, vdir := 0, flist := 0, dlist := 0, iflist := 0, inflight := 0,
      poisoned := 0, copies := [], images := [], descs := [] }] })] }

/-- `GENQ` of an earlier, the live and a later generation, and `SNAP`. -/
theorem test_cutWords :
    Runs (.genq 5 1 0) 0 cuts ∧ (readScalar cuts 1).1.toNat % 2 ^ 32 < (cuts.job cuts.core.task.pasid).gen ∧
    ((cuts.job 1).gens.find? fun y => y.num == 1).isSome ∧ (cuts.job 1).gen = (readScalar cuts 2).1.toNat % 2 ^ 32 ∧
    (cuts.job 1).gen < (readScalar cuts 3).1.toNat % 2 ^ 32 := ⟨⟨Or.inl rfl, rfl⟩, by decide⟩

/-- `BRK` on a tile that holds no trap record, in a gang neither held nor being held. -/
theorem test_traps : one.core.ctl.trap = none ∧ (one.gang 1).held = false ∧ (one.gang 1).effectAt = none ∧ one.core.task.gid = 1 ∧
    bundleFaults one [.brk 255 0] = [] := by decide

/-- A produced token: the waits take their full effect on it. -/
theorem test_tokens : [Instr.waitt 63 0, .waitp 63 1 0].all (fun i => (bundleFaults
    (one.mapBarge fun b => { b with nextId := 1, issuedBy := [(63, 1)] }) [i]).isEmpty) = true := by decide

/-- A beat of i8 over two columns of depth 2. -/
def beat : Beat :=
  { fmt := 6, rm := 0, fresh := false, row := 2047, depth := 2, cols := 2, a := 0x0302, latch := [0x0504, 0xFF01], poison := false, flags := 0 }

theorem test_beat : Safety.wf ready = true ∧ beat.fmt < 8 ∧ beat.latch.length = beat.cols ∧ beat.cols ≤ tableN beat.fmt ∧
    beat.depth ≤ tableK beat.fmt ∧ 0 < beat.cols ∧ ({ beat with cols := 0, latch := [] } : Beat).latch.length = 0 := by decide

/-- A fresh beat over all 32 columns clears a poison tag, and a poisoned operand of no column sets none (R122). -/
theorem test_beat_tag : let s := ready.mapRegs fun r => { r with accPoison := [(5, true)] }
    let b : Beat := { beat with fmt := 0, fresh := true, row := 5, depth := 0, cols := 32, latch := List.replicate 32 0 }
    tget false (landEffect s (.beat b)).core.regs.accPoison 5 = false ∧
    tget false (landEffect s (.beat { b with fresh := false, cols := 0, latch := [], poison := true, row := 6 })).core.regs.accPoison 6 = false := by
  decide

/-- 2·4 + 3·5 and 2·1 + 3·(-1), added to an empty row (R104). -/
theorem test_beat_value :
    tget 0 (landEffect ready (.beat beat)).core.regs.acc 2047 = 0xFFFFFFFF00000017#2048 := by decide

/-- `ACTW` of a row that is undrained and has no clone, after a cut of a job with generations; of a row with a clone; and of a row
that has never been due. -/
def drains : Gen :=
  { num := 0, state := .draining, dev := false, cutClock := 0, record := 64, vdir := 0, flist := 0, dlist := 0, iflist := 0, inflight := 0,
    poisoned := 0, copies := [], images := [(0, { vpl := 32768, rowsLeft := 1 })], descs := [] }

/-- See `drains`. -/
def actwAt (cuts : Nat) (rows : Table RowGen) : State :=
  { (one.mapVault fun v => { v with rows := rows }).mapJob 1 fun j =>
      { j with gen := cuts, cuts := cuts, gens := if cuts = 0 then [] else [drains] } with vetted := true }

theorem test_clones :
    (Safety.wf (actwAt 1 []) = true ∧ (drainedRow (actwAt 1 []) 0 0 || (tget {} (actwAt 1 []).core.vault.rows 0).cloned) = false) ∧
    (Safety.wf (actwAt 1 [(0, { cloned := true })]) = true ∧
      (tget {} (actwAt 1 [(0, { cloned := true })]).core.vault.rows 0).cloned = true) ∧
    drainedRow (actwAt 0 []) 0 0 = true ∧ readPred (actwAt 1 []) 0 = true ∧ readPred (actwAt 0 []) 0 = true := by decide

/-- The first clone of a bank takes one spare row of 4,096; a gang with a padded latency of 600,000 cycles then asks for the hold (R233). -/
theorem test_spareHold : after (exec (.actw 0 0 0 0) ((actwAt 1 []).mapGang 1 fun g => { g with pad := 600000 }))
    (fun t => decide (t.core.vault.exhausted = [0] ∧ .spare ∈ (t.gang 1).causes)) = true ∧ 4096 - 1 < 2 + (15 + 600000) / 140 := by decide

/-- `RD` of a good and of a poisoned column, in a state where the bank was opened long ago. -/
def opened : State :=
  { one with clock := 200 }.mapVault fun v => { v with
    banks := [(0, { mode := .active, row := 1 })],
    marks := [(colKey 0 1 5, .poisoned), (colKey 0 1 6, .correctable), (colKey 0 1 15, .uncorrectable)] }

theorem test_columns : bundleFaults opened [.rd 0 0 0 1 0] = [] ∧ bundleFaults opened [.rd 0 0 15 63 0] = [] ∧
    opened.core.vault.lanes = [] ∧ tget .good opened.core.vault.marks (colKey 0 1 0) = .good ∧
    tget .good opened.core.vault.marks (colKey 0 1 5) = .poisoned ∧ tget .good opened.core.vault.marks (colKey 0 1 6) = .correctable ∧
    tget .good opened.core.vault.marks (colKey 0 1 15) = .uncorrectable ∧
    bundleFaults (opened.mapVault fun v => { v with banks := [(0, { mode := .active, row := 1, intent := true })] }) [.wr 0 0 15 0 0] = [] ∧
    Safety.wf opened = true := by decide

/-- `RECV` of a latch that holds a row. -/
def received : State := one.mapCanal fun c => { c with latches := [(3, [{ row := 7, poison := false, since := 0 }])] }

theorem test_received : tget [] received.core.canal.latches 3 = { row := 7, poison := false, since := 0 } :: [] ∧
    bundleFaults received [.recv 1 3 0] = [] := by decide

/-- `SEND` by a route whose entry sends rows of the tile to a latch. -/
theorem test_sends : bundleFaults (one.mapCanal fun c => { c with routes := [(5, 0x8080)] }) [.send 5 1 0] = [] := by decide

/-- `RECV` of an empty latch; `CROUTE` of an image whose first entry is valid and has a reserved bit set; no image has been read. -/
theorem test_canalFaults : (tget [] one.core.canal.latches 3 = [] ∧ readPred one 0 = true) ∧
    (let s := one.mapStaging fun t => { t with cells := [(0, 1), (1, 0x80)] }
     s.core.canal.image = none ∧ readPred s 0 = true ∧ Plain s 0 512 ∧ BitVec.ofNat 64 (ofBytes (s.core.staging.bytes 0 8)) = 0x8001 ∧
      s.core.staging.poison = []) ∧ ready.core.canal.image = none := by
  unfold Plain; decide

/-- 2.0 and 4.0 in f16: 2 to the 2 is 4, and the logarithm of 4 is 2. -/
theorem test_transcendentals : finiteAt 2 0x4000 ∧ finiteAt 2 0x4400 ∧ magAt 2 0x4000 ≠ 0 ∧ negAt 2 0x4000 = false ∧ negAt 2 0x4400 = false ∧
    Spells 2 0x4000 ((2 : ℤ) : ℝ) ∧ Spells 2 0x4400 ((2 : ℝ) ^ (2 : ℤ)) ∧ (4 : BitVec 3).toNat < 5 := by
  have h : magAt 2 0x4000 = 2 ^ 25 ∧ magAt 2 0x4400 = 2 ^ 26 ∧ unitExp 2 = -24 ∧ negAt 2 0x4000 = false ∧ negAt 2 0x4400 = false := by decide
  refine ⟨by unfold finiteAt; decide, by unfold finiteAt; decide, by decide, h.2.2.2.1, h.2.2.2.2, ?_, ?_, by decide⟩ <;>
    simp only [Spells, h.1, h.2.1, h.2.2.1, h.2.2.2.1, h.2.2.2.2] <;> norm_num

/-- 2.0 in f16 and 3.0 in f32: 2^2 and 2^3 lie in the finite range, and 3 below the limit of sin and cos. -/
theorem test_boundsWitness : finiteAt 1 0x40400000 ∧ magAt 1 0x40400000 ≠ 0 ∧ Spells 1 0x40400000 (3 : ℝ) ∧ ¬ (2 : ℝ) ^ 20 ≤ |(3 : ℝ)| ∧
    |(2 : ℝ) ^ (3 : ℝ)| * (1 + (2 : ℝ) ^ (-90 : ℤ)) ≤ ((2 ^ (fracBits 1 + 1) - 1) * 2 ^ (expTop 1 - 2) : Nat) * (2 : ℝ) ^ unitExp 1 := by
  have h : magAt 1 0x40400000 = 3 * 2 ^ 149 ∧ unitExp 1 = -149 ∧ negAt 1 0x40400000 = false ∧ fracBits 1 = 23 ∧ expTop 1 = 255 := by decide
  refine ⟨by unfold finiteAt; decide, by decide, ?_, by norm_num, ?_⟩
  · simp only [Spells, h.1, h.2.1, h.2.2.1]; norm_num
  · rw [show (2 : ℝ) ^ (3 : ℝ) = 8 by norm_num, h.2.1, h.2.2.2.1, h.2.2.2.2]; norm_num

/-! ### Witnesses: bundles, results and frames -/

/-- A word under a predicate that reads 0. -/
theorem test_falsePredicate : useOf (.add 1 2 3 4) ≠ none ∧ ready.vetted = true ∧ readPred ready 4 = false ∧
    (∀ u ∈ useOf (.add 1 2 3 4), u.pr = 4) := by decide

/-- Two faults in one bundle: a wait on an unproduced token and an illegal word; the gang does not stop there. -/
def badBundle : List (Slot × Except Reject Instr) := [(.c, .ok (.waitt 3 0)), (.a, .error .unassigned)]

theorem test_suppressed : takeImage one (badBundle.filterMap fun d => d.2.toOption) = one ∧ illegalWords badBundle ++ bundleFaults one (badBundle.filterMap fun d => d.2.toOption) ≠ [] ∧
    stopsHere one (badBundle.filterMap fun d => d.2.toOption) = false ∧ one.core.ctl.trap = none := by decide

/-- The record names cause 1 and slot 1 (Table 3.8: illegal instruction comes first). -/
theorem test_suppressed_record : after (issueDecoded one badBundle) (fun t =>
    (t.core.ctl.trap.map fun r => (r.cause, r.slot, r.detail)) == some (1, 1, 0)) = true := by decide

/-- A `SEGE` whose count is one too many and whose signature agrees faults with DETAIL 1 (R79, R410); the record counts its bundle, and the task
is tainted (R283). -/
theorem test_segmentFault : let s := one.mapCtl fun c => { c with inseg := true, sgsc := 5, ecnt := 5, esig := 0x8A9136AA }
    bundleFaults s [.sege 0] = [{ order := 7, cause := 5, detail := 1, slot := 0 }] ∧
    after (issueDecoded s [(.c, .ok (.sege 0))]) (fun t => decide
      (t.core.ctl.verdict = .tainted ∧ t.core.ctl.trap.map TrapRec.sgsc = some 6 ∧ t.core.ctl.sgsc = 5)) = true := by decide

/-- Words that name s0 and p0 as destinations. -/
theorem test_discarded : (useOf (.add 0 2 3 0)).map Use.dest = some (.scalar 0) ∧ (useOf (.cmp 0 2 3 5 0)).map Use.dest = some (.pred 0) ∧
    ready.vetted = true := by decide

/-- A word that is executed in a vetted bundle, for the frame of every word. -/
theorem test_wordFrame : useOf (.add 1 2 3 0) ≠ none ∧ ready.vetted = true ∧ (∃ t, exec (.add 1 2 3 0) ready = .next t) :=
  ⟨by decide, rfl, _, rfl⟩

/-- A step from a canonical state answers a next state. -/
theorem test_canonical : Safety.wf one = true ∧ ∃ t, step one = .next t := ⟨by decide, _, rfl⟩

/-- Tile 0 is the next to issue, its bundle decodes, and no check fails. -/
theorem test_step : let y := { one.select 0 with turn := 1 }.mapCtl fun c => { c with ir := 0 }
    let ws := (decodeBundle 0).filterMap fun d => d.2.toOption
    (∀ e ∈ one.agenda, one.clock < e.1) ∧ booting one = false ∧ dueEvent one = none ∧ nextTile one = some 0 ∧
    y.core.ctl.pc < 3072 ∧ tget .good y.core.isram.marks 0 = .good ∧ (∀ e ∈ y.core.isram.unseen, e.1 ≠ 0) ∧
    (∀ d ∈ decodeBundle 0, d.2.toOption ≠ none) ∧ bundleFaults y ws = [] ∧ stopsHere y ws = false ∧
    y.core.regs.sBad = [] ∧ y.core.regs.vBad = [] ∧ y.core.regs.mBad = [] ∧ Safety.wf one = true ∧ takeImage y ws = y := by decide

/-- A fetch past the last bundle, and one of a bundle that cannot be corrected (R56, R313). -/
theorem test_fetchFaults :
    (let s := one.mapCtl fun c => { c with pc := 3072 }
     Safety.wf s = true ∧ booting s = false ∧ dueEvent s = none ∧ nextTile s = some 0 ∧ (s.select 0).core.ctl.pc = 3072 ∧
      (s.select 0).core.ctl.trap = none ∧
      after (step s) (fun t => decide (t.core.ctl.trap.map (fun r => (r.cause, r.detail, r.slot)) = some (1, 1, 15))) = true) ∧
    (let s := one.mapCore fun c => { c with isram := { c.isram with marks := [(0, .uncorrectable)] } }
     Safety.wf s = true ∧ booting s = false ∧ dueEvent s = none ∧ nextTile s = some 0 ∧
      tget .good (s.select 0).core.isram.marks (s.select 0).core.ctl.pc = .uncorrectable ∧ (s.select 0).core.isram.unseen = [] ∧
      after (step s) (fun t => decide (t.core.ctl.trap.map (fun r => (r.cause, r.detail, r.slot)) = some (1, 2, 15))) = true) := by decide

/-- The other cases of a step: no tile is left in the turn, the boot sequence runs, an event is due. -/
theorem test_step_others :
    (booting booted = false ∧ dueEvent booted = none ∧ nextTile booted = none) ∧ booting State.reset = true ∧
    (let s := one.mapJob 1 fun j => { j with cut := some (.running false 0 0) }
     booting s = false ∧ Safety.wf s = true ∧ (∃ q ∈ s.jobs, q.2.cut = some (.running false 0 0)) ∧
      dueEvent { s with agenda := [(0, .trapqRead)] } = some (.cutInstant 1)) ∧
    dueEvent (one.mapCore fun c => { c with results := [{ ready := 0, eff := .scalar 1 5 false }] }) = some (.resultLand 0) := by decide

/-- `ADDI s3, s3, 5` alone in slot A, placed and stepped: CYC and PC count one, and 5 is due for s3 one cycle later (R27, R351). -/
theorem test_step_addi : after (step (State.reset.withFetchWord 32 0x6030C028)) (fun t => decide
    (t.core.ctl.pc = 1 ∧ t.core.ctl.cyc = 1 ∧ t.core.results.head? = some { ready := 1, eff := .scalar 3 5 false })) = true := by decide

/-! ### Witnesses: results, waits, holds -/

/-- `one` with a change of gang 1, at a clock. -/
def gangAt (c : Nat) (f : Gang → Gang) : State := { one.mapGang 1 f with clock := c }

/-- `one` with a change of tile 0's control state, at a clock. -/
def ctlAt (c : Nat) (f : Ctl → Ctl) : State := { one.mapCtl f with clock := c }

/-- A result that has come due on a running tile; a wait whose condition was met on an earlier clock. -/
def landing : State := one.mapCore fun c => { c with results := [{ ready := 0, eff := .scalar 1 5 false }, { ready := 1, eff := .flags 1 }] }

/-- The task ends with a result in flight: that result lands too (R372). -/
theorem test_endLands : after (exec (.resultLand 0) (one.mapCore fun c => { c with results :=
    [{ ready := 0, eff := .special 0x102 0 }, { ready := 2, eff := .scalar 1 5 false }, { ready := 1, eff := .scalar 1 6 false }] }))
    (fun t => decide (t.core.ctl.status = .ended ∧ tget 0 t.core.regs.s 1 = 5 ∧ t.core.results = [])) = true := by decide

/-- A store of eight bytes four below the end of staging wraps, and its partial write of a unit in error tags that line (R177). -/
theorem test_store : let s := ready.mapStaging fun g => { g with marks := [(0, .uncorrectable)] }
    let t := landEffect s (.store 0xFFFFC [1, 2, 3, 4, 5, 6, 7, 8] false)
    (landEffect ready (.store 0xFFFFC [1, 2, 3, 4, 5, 6, 7, 8] false)).core.staging.bytes 0xFFFFC 8 = [1, 2, 3, 4, 5, 6, 7, 8] ∧
    tget .good t.core.staging.marks 0 = .good ∧
    tget false t.core.staging.poison 0 = true ∧ tget false t.core.staging.poison 32767 = false := by decide

/-- See `landing`. -/
def waited : State := ctlAt 5 fun c => { c with status := .waiting, wait := some { on := .token 0, pc := 0, met := some 4 } }

theorem test_resultsAndWaits :
    (Safety.wf landing = true ∧ (landing.select 0).core.ctl.status = .running ∧
      ((landing.select 0).core.results.filter fun r => decide (r.ready ≤ (landing.select 0).core.ctl.cyc)) =
        [{ ready := 0, eff := .scalar 1 5 false }]) ∧
    (Safety.wf waited = true ∧ waited.core.ctl.status = .waiting ∧ (waited.gang (waited.select 0).core.task.gid).held = false ∧
      waited.core.ctl.wait = some { on := .token 0, pc := 0, met := some 4 } ∧ 4 < waited.clock) := by decide

/-- A completed phase, a hold that falls due, a gang that may resume, each on its own clock. -/
theorem test_barriersAndHolds :
    (let s := gangAt 24 fun g => { g with releases := [(2047, 0, 24)] }
     Safety.wf s = true ∧ (s.gang 1).held = false ∧ (s.gang 1).releases = [(2047, 0, s.clock)]) ∧
    (let s := gangAt 16 fun g => { g with effectAt := some 16, causes := [.trap] }
     Safety.wf s = true ∧ (s.gang 1).held = false ∧ (s.gang 1).effectAt = some s.clock) ∧
    (let s := gangAt 16 fun g => { g with held := true, resumeAt := some 16 }
     Safety.wf s = true ∧ (s.gang 1).held = true ∧ (s.gang 1).causes = [] ∧ (s.gang 1).resumeAt = some s.clock ∧
      (s.gang 1).ox + (s.gang 1).w ≤ 16 ∧ (s.gang 1).oy + (s.gang 1).h ≤ 16) := by decide

/-- The gang that resumes is no longer held, and a task stopped at a breakpoint goes on at NPC (R287). -/
theorem test_resume : after (exec (.gangResume 1) (gangAt 16 fun g => { g with held := true, resumeAt := some 16 }))
    (fun t => !(t.gang 1).held && (t.gang 1).resumeAt.isNone) = true := by decide

/-- The window of a row in a receive latch goes on where it stopped (R39, R247). -/
theorem test_resumeCanal : after (exec (.gangResume 1) ((gangAt 16 fun g => { g with held := true, heldSince := 6, resumeAt := some 16 }).mapCanal
    fun c => { c with latches := [(3, [{ row := 0, poison := false, since := 5 }])], conflictAt := some 6 }))
    (fun t => decide ((tget [] (t.tile 0).canal.latches 3).map Held.since = [15] ∧ (t.tile 0).canal.conflictAt = some 16)) = true := by decide

/-- The last bank on the clock on which its first refresh falls due, with no debt and with a debt of 8. -/
theorem test_refreshDebt :
    (let s := gangAt 8192 id
     Safety.wf s = true ∧ (s.gang s.core.task.gid).life = .started ∧ s.core.ctl.status ≠ .idle ∧ (bankAt s 63).due ≤ s.clock) ∧
    (let s := (gangAt 8192 id).mapVault fun v => { v with banks := [(63, { debt := 8 })] }
     Safety.wf s = true ∧ 8 ≤ (bankAt s 63).debt ∧ (bankAt s 63).due ≤ s.clock) := by decide

/-- The next due clock is one interval of grade 0 later, and the debt is one more (R146). -/
theorem test_refreshDebt_result : after (exec (.refreshDue 0 63) (gangAt 8192 id))
    (fun t => decide ((bankAt t 63).due = 16384 ∧ (bankAt t 63).debt = 1)) = true := by decide

/-- A gang held for refresh with a debt; a guard at its end; a spare drain at the end of its 358 cycles; a lane repair at a re-planning
point and on an idle tile; a row to copy in the first window of a CYC count (R234). -/
def drained : State :=
  ((ctlAt 0 fun c => { c with cyc := 3969 }).mapJob 1 fun j =>
    { j with gen := 1, cuts := 1, parts := [(0, (0, 2))], gens := [drains] })

theorem test_guardsAndDrains :
    (let s := (gangAt 9 fun g => { g with held := true, causes := [.refresh] }).mapVault fun v => { v with banks := [(0, { debt := 1 })] }
     Safety.wf s = true ∧ s.core.vault.guard = none ∧ guardStarts s = true) ∧
    (let s := (gangAt 9 fun g => { g with held := true, causes := [.refresh] }).mapVault fun v =>
        { v with guard := some { saved := [(63, 32767, true)], startAt := 0, endAt := 9 } }
     Safety.wf s = true ∧ s.core.vault.guard = some { saved := [(63, 32767, true)], startAt := 0, endAt := s.clock }) ∧
    (let s := gangAt 16 fun g => { g with held := true, causes := [.refresh] }
     Safety.wf s = true ∧ 0 ∈ (s.gang 1).tiles ∧ (s.gang 1).held = true ∧ .refresh ∈ (s.gang 1).causes ∧ s.core.ctl.status ≠ .idle ∧
      ∀ m ∈ (s.gang 1).tiles, (s.tile m).vault.guard = none ∧ ∀ k, k < 64 → (tget {} (s.tile m).vault.banks k).debt = 0) ∧
    (let s := (gangAt 358 fun g => { g with held := true, causes := [.spare] }).mapVault fun v => { v with exhausted := [63] }
     Safety.wf s = true ∧ (s.gang 1).held = true ∧ .spare ∈ (s.gang 1).causes ∧ s.core.vault.exhausted ≠ [] ∧
      s.core.vault.guard = none ∧ spareEnd s ≤ s.clock) ∧
    ((State.reset.select 255).core.ctl.status = .idle ∧
      (let s := gangAt 0 fun g => { g with held := true, causes := [.replan] }
       (s.gang 1).held = true ∧ .replan ∈ (s.gang 1).causes)) ∧
    (Safety.wf drained = true ∧ nextRow drained (drainParts drained) (banksOf 3) false = some (1, 48, 0) ∧ windowNow drained = 1 ∧
      tget 0 drained.core.vault.drained 3 ≠ windowNow drained ∧ (drained.job 1).gens = drains :: [] ∧
      (∀ i, i < 1536 → drains.record + 128 ≤ bits (wordAt drained .reservoir ((tget {} drains.images 0).imgtab +
        8 * ((98304 * 0 + 1536 * 48 + i) / 65536))).toNat 47 0 * 65536 + (98304 * 0 + 1536 * 48 + i) % 65536) ∧ tget false drained.core.vault.lanes 3 = false ∧
      ∀ c, c < 16 → tget .good drained.core.vault.marks (16 * (48 * 32768) + c) = .good) := by
  refine ⟨by decide, by decide, by decide, by decide, by decide, by decide, by decide, by decide, by decide, by decide, fun i h => ?_,
    by decide, by decide⟩
  simp only [show drains.record = 64 from rfl, show (tget {} drains.images 0).imgtab = 0 from rfl,
    show (98304 * 0 + 1536 * 48 + i) / 65536 = 1 by omega, show bits (wordAt drained .reservoir (0 + 8 * 1)).toNat 47 0 = 0 by decide]
  omega

/-- The row of bank 42 goes on in the second frame of its image, wherever the table places it (R473). -/
theorem test_imageFrames : let s := poke .reservoir [(0x100, 5), (0x108, 9)] one
    imageRuns s.mem { imgtab := 0x100 } (rowPlace { imgtab := 0x100 } 42 0) 1536 = [(5 * 65536 + 64512, 1024), (9 * 65536, 512)] ∧
    (let m := storeImage s.mem { imgtab := 0x100 } 65534 [1, 2, 3]
     readBytes m.res (5 * 65536 + 65534) 2 = [1, 2] ∧ readBytes m.res (9 * 65536) 1 = [3]) := by decide

/-- There are four channels (R235). -/
theorem test_drainChannel : after (exec (.drainRowCopy 0 3) drained) (fun t => decide ((tget {} t.core.vault.rows (48 * 32768)).dgen = 1)) = true ∧
    after (exec (.drainRowCopy 0 4) drained) (fun t => decide (t.core.vault.rows = drained.core.vault.rows)) = true := by decide

/-- A window is the last 127 cycles of every 4,096: at CYC 3,968 it is not open (R234). -/
theorem test_window : windowNow (drained.mapCtl fun c => { c with cyc := 3968 }) = 0 := by decide

/-! ### Witnesses: gangs -/

/-- Tile 0 at a bundle with a marked `SEG`; the gang, if it is counted, and the open count of its job's phase. -/
def segBundle : List (Slot × Except Reject Instr) := [(.c, .ok (.seg 0 0 1 0))]

/-- See `segBundle`. -/
def atSeg (counted : Bool) (left : Nat) (passes : Option Nat) : State :=
  ((one.mapGang 1 fun g => { g with counted := counted }).mapJob 1 fun j => { j with phaseLeft := left }).mapCtl fun c =>
    { c with passes := passes }

/-- A counted gang is held at the `SEG`, and so is one that is not while the phase is open; one that has just been let go on is not, and a
later bundle of the same phase holds it once more (Table 2.2, R43, R152, R408). -/
theorem test_segStops : (let held (s : State) : Bool := after (issueDecoded s segBundle) fun t => decide (.replan ∈ (t.gang 1).causes)
    held (atSeg true 1 none) = true ∧ held (atSeg false 1 none) = true ∧ held (atSeg false 1 (some 0)) = false ∧
    held (atSeg false 0 none) = false ∧ held ((atSeg false 1 (some 0)).mapCtl fun c => { c with cyc := 1 }) = true) ∧
    (.seg 0 0 1 0 ∈ segBundle.filterMap fun d => d.2.toOption) ∧ readPred one 0 = true ∧ one.core.ctl.inseg = false ∧
    (one.gang 1).stopAt = false ∧ canalFaults one [] = [] := by decide

/-- A gang of one task stands on its tile. -/
theorem place (s : State) (h : (s.gang 1).tiles = [0]) (h0 : (s.tile 0).task.gid = 1 ∧ (s.tile 0).task.tix = (s.gang 1).firstTix + 0) :
    inPlace s 1 := by
  intro i n e
  rw [h] at e
  match i, e with
  | 0, e => cases e; exact h0

/-- A held gang at a re-planning point; a pre-empted gang that is quiet; a placed gang with a saved context. -/
theorem test_replanAndPreempt :
    (let s := gangAt 0 fun g => { g with held := true, causes := [.replan] }
     Safety.wf s = true ∧ (s.gang 1).held = true ∧ .replan ∈ (s.gang 1).causes) ∧
    (let s := gangAt 0 fun g => { g with held := true, causes := [.preempt] }
     Safety.wf s = true ∧ onGrid (s.gang 1) ∧ drawBackDue s 1 = true) ∧
    (let s := (gangAt 0 fun g => { g with held := true, causes := [.preempt] }).mapVault fun v => { v with image := some 0 }
     Safety.wf s = true ∧ controlRuns s = true ∧ onGrid (s.gang 1) ∧ inPlace s 1 ∧ drawBackDue s 1 = false ∧ saveDue s 1 = true ∧
      (s.gang 1).tiles = [0] ∧ errorFree (s.tile 0)) ∧
    (let s := (gangAt 0 fun g => { g with life := .placed, held := true, causes := [.preempt] }).mapNode 1 fun x => { x with saved := true }
     Safety.wf s = true ∧ controlRuns s = true ∧ onGrid (s.gang 1) ∧ restoreDue s 1 = true) := by
  refine ⟨by decide, ⟨by decide, by unfold onGrid; decide, by decide⟩,
    ⟨by decide, by decide, by unfold onGrid; decide, place _ (by decide) (by decide), by decide, by decide, by decide,
      rfl, rfl, rfl, rfl, fun _ => rfl, rfl⟩,
    by decide, by decide, by unfold onGrid; decide, by decide⟩

/-- A variant to be swapped in, and one to be restored, whose image is there, and whose image is not (R2). -/
theorem test_images :
    (let s (w : Nat) := (gangAt 0 fun g => { g with held := true, causes := [.replan], variant := 2 }).mapNode 1 fun x =>
        { x with packet := [(launch 0).headD 0, BitVec.ofNat 64 w] }
     ∀ w ∈ [2 ^ 50 + 0x10000, 2 ^ 50 + 2 ^ 47], (((s w).gang 1).held = true ∧ .replan ∈ ((s w).gang 1).causes ∧
      pickVariant ((s w).node 1).packet (gangGrade (s w) ((s w).gang 1)) = 1 ∧ ((s w).gang 1).variant = 2) ∧
      (imageThere (s w) w ↔ w = 2 ^ 50 + 0x10000)) ∧
    (let s := (gangAt 0 fun g => { g with life := .placed, held := true, causes := [.preempt], variant := 1 }).mapNode 1 fun x =>
        { x with saved := true, packet := [(launch 0).headD 0, BitVec.ofNat 64 (2 ^ 50 + 2 ^ 47)] }
     controlRuns s = true ∧ restoreDue s 1 = true ∧ ((s.node 1).packet.getD 1 0).toNat = 2 ^ 50 + 2 ^ 47) := by decide

/-- A block of the context area in error: s0 and the registers beside it lie there, the first vector registers do not. -/
theorem test_unreadable : let s := one.mapMem fun m => { m with marks := [((0x1E7200 : Nat) / 64, .uncorrectable)] }
    (∃ y ∈ s.mem.marks, y.2.bad = true ∧ 0x1E7200 / 64 ≤ y.1 ∧ y.1 ≤ (0x1E7200 + 8 - 1) / 64) ∧
    ∀ y ∈ one.mem.marks, y.2.bad = true → 0 ≤ 64 * y.1 → 0x200000 ≤ 64 * y.1 := by decide

/-- A trap record of cause 10. -/
def record10 : TrapRec :=
  { cause := 10, detail := 7, slot := 0, pc := 0, npc := 1, tcyc := 0, tclk := 0, bundle := 0, fflg := 0, sgsc := 0, sgsh := 0, ecnt := 0,
    esig := 0, inseg := false, late := false, final := true, image := 0 }

/-- A held gang whose task holds a trap record, under a policy for cause 10 (Table 13.4), with a number of entries in TRAPQ. -/
def trappedAs (policy : BitVec 20) (n : Nat) : State :=
  (((gangAt 20 fun g => { g with held := true, causes := [.trap] }).mapCtl fun c => { c with trap := some record10 }).mapJob 1 fun j =>
    { j with policy := policy <<< 18 }).mapLk fun l => { l with trapq := List.replicate n 0 }

theorem test_trapHandling :
    (Safety.wf (trappedAs 0 63) = true ∧ controlRuns (trappedAs 0 63) = true ∧ signalDue (trappedAs 0 63) 1 = true ∧
      bits ((trappedAs 0 63).job 1).policy.toNat 19 18 = 0 ∧ bits ((trappedAs 3 0).job 1).policy.toNat 19 18 = 3 ∧
      lowestCause (trappedAs 0 63) 1 = 10 ∧ (trappedAs 0 63).lk.trapq.length < 64 ∧ signalDue (trappedAs 3 0) 1 = true) ∧
    (Safety.wf (trappedAs 1 0) = true ∧ onGrid ((trappedAs 1 0).gang 1) ∧ inPlace (trappedAs 1 0) 1 ∧
      signalDue (trappedAs 1 0) 1 = true ∧ signalDue (trappedAs 2 0) 1 = true ∧ bits ((trappedAs 1 0).job 1).policy.toNat 19 18 = 1 ∧
      bits ((trappedAs 2 0).job 1).policy.toNat 19 18 = 2) ∧
    ((trappedAs 0 1).lk.trapq = 0 :: [] ∧ (trappedAs 0 1).lk.trapWaits = [] ∧ (trappedAs 0 0).lk.trapq = [] ∧
      ((trappedAs 0 0).job 1).live = true ∧ ((trappedAs 0 0).job 0xFFFFF).live = false) := by
  refine ⟨by decide, ⟨by decide, by unfold onGrid; decide, place _ (by decide) (by decide), by decide⟩, by decide⟩

/-- A trap that finds TRAPQ full waits; one that no longer stands is passed over when a place frees (R287). -/
theorem test_trapWaits : (trappedAs 0 64).lk.trapq.length = 64 ∧ signalDue (trappedAs 0 64) 1 = true ∧ controlRuns (trappedAs 0 64) = true ∧
    after (exec (.trapSignal 1) (trappedAs 0 64)) (fun t => decide (t.lk.trapWaits = [1] ∧ t.lk.trapq.length = 64)) = true ∧
    (let s := ((trappedAs 0 64).mapGang 1 fun g => { g with signalled := true }).mapLk fun l => { l with trapWaits := [2, 1] }
     ¬ (.trap ∈ (s.gang 2).causes) ∧ (.trap ∈ (s.gang 1).causes ∧ (s.gang 1).signalled = true ∧ ∃ n ∈ (s.gang 1).tiles, (s.tile n).ctl.trap.isSome = true) ∧
      s.lk.trapq = 0 :: List.replicate 63 0 ∧
      after (exec .trapqRead s) (fun t => decide (t.lk.trapWaits = [] ∧ t.lk.trapq.length = 64 ∧ t.lk.msix = [])) = true) := by decide

/-- A task of such a gang whose counter is 0 and whose banks are still being closed. -/
theorem test_trapFinished : let s := (trappedAs 1 0).mapCtl fun c => { c with status := .ended }
    Safety.wf s = true ∧ controlRuns s = true ∧ signalDue s 1 = true ∧ 0 ∈ (s.gang 1).tiles ∧ (s.tile 0).task.complete = false ∧
      (s.tile 0).ctl.status = .ended ∧ (s.tile 0).barge.queue = [] := by decide

/-- The entry of TRAPQ: valid, GID 1, PASID 1, node 1, cause 10 (Table 13.6). -/
theorem test_trapEntry : after (exec (.trapSignal 1) (trappedAs 0 0)) (fun t =>
    decide (t.lk.trapq = [BitVec.ofNat 64 (2 ^ 63 + 1 * 2 ^ 48 + 1 * 2 ^ 20 + 1 * 2 ^ 8 + 10)] ∧ t.lk.msix = [0])) = true := by decide

/-- The policy of reissue within RMAX, and beyond it (R286). -/
theorem test_reissue : let s (n : Nat) := (trappedAs 2 0).mapJob 1 fun j => { j with rmax := n }
    after (exec (.trapSignal 1) (s 1)) (fun t => decide ((t.gang 1).reissue = true ∧ (t.gang 1).tainted = true)) = true ∧
    after (exec (.trapSignal 1) (s 0)) (fun t => decide ((t.gang 1).reissue = false ∧ (t.gang 1).tainted = true)) = true := by decide +kernel

/-- The second frame of an image is not there: the copy of row 0 of bank 48 stops, and so does the drain of a clone of bank 63 (R2). -/
theorem test_drainStops :
    (let s := poke .reservoir [(8, 2 ^ 40)] drained
     Safety.wf s = true ∧ s.mem.capacity * 65536 ≤ bits (wordAt s .reservoir 8).toNat 47 0 * 65536 + 8192 ∧
      faults (exec (.drainRowCopy 0 3) s) = true) ∧
    (let s := ({ poke .reservoir [(8, 2 ^ 40)] drained with clock := 65536 }.mapGang 1 fun g => { g with held := true, causes := [.spare] }).mapVault fun v =>
        { v with exhausted := [63], rows := (List.range 4033).map fun k => (63 * 32768 + k, { cloned := true, spare := k }) }
     Safety.wf s = true ∧ spareEnd s ≤ s.clock ∧ s.core.vault.guard = none ∧ (s.core.vault.exhausted.foldlM drainBank s).isSome = false ∧
      faults (exec (.spareExhaustionDrain 0) s) = true) := by decide +kernel

/-- DEBT goes on to 9 and no further (Table 6.5). -/
theorem test_debtTop : after (exec (.refreshDue 0 63) ((gangAt 8192 id).mapVault fun v => { v with banks := [(63, { debt := 9 })] }))
    (fun t => decide ((bankAt t 63).debt = 9)) = true := by decide

/-- A gang of a phase that swaps: it leaves the phase, which ends with it (R42). -/
theorem test_leavesPhase : after (exec (.variantSwap 1) ((gangAt 0 fun g => { g with held := true, causes := [.replan], counted := true }).mapJob 1 fun j =>
    { j with phaseLeft := 1 })) (fun t => decide ((t.job 1).phaseLeft = 0 ∧ (t.job 1).phaseNum = 1 ∧ (t.gang 1).counted = false)) = true := by decide +kernel

/-- A job with a cut that is pending, a cut at its instant, and a restore in progress. -/
theorem test_cutsAndRestores :
    (let s := one.mapJob 1 fun j => { j with cut := some (.pending false) }
     Safety.wf s = true ∧ (s.job 1).cut = some (.pending false) ∧ cutAllowed (s.job 1) = true) ∧
    (let s := one.mapJob 1 fun j => { j with cut := some (.pending true) }
     (∀ q ∈ s.jobs, q.2.live = true → q.2.cut = some (.pending true) ∧ cutAllowed q.2 = true) ∧ ∃ q ∈ s.jobs, q.2.live = true) ∧
    (∀ q ∈ one.jobs, q.2.live = true → q.2.cut ≠ some (.pending true)) ∧
    (let s := { one.mapJob 1 fun j => { j with cut := some (.running true 256 0) } with clock := 256 }
     Safety.wf s = true ∧ (s.job 1).cut = some (.running true s.clock 0)) ∧
    (let s := one.mapJob 1 fun j => { j with restoring := some 0, gens := [{ drains with state := .drained }] }
     Safety.wf s = true ∧ (s.job 1).restoring = some 0 ∧
      (s.job 1).gens.find? (fun y => y.num == 0) = some { drains with state := .drained }) ∧
    (let s := { one.mapJob 1 fun j => { j with cut := some (.closing false 16) } with clock := 16 }
     Safety.wf s = true ∧ (s.job 1).cut = some (.closing false s.clock)) := by decide

/-- A device cut of a job whose gang has a padded latency of 20: the instant, and the hold of the gang (R227). -/
theorem test_deviceCut : after (exec (.cutRequest true 1) ((gangAt 0 fun g => { g with pad := 20 }).mapJob 1 fun j => { j with cut := some (.pending true) }))
    (fun t => decide ((t.job 1).cut = some (.running true 276 20) ∧ (t.gang 1).causes = [.cut] ∧ (t.gang 1).effectAt = some 36)) = true ∧
    gangsOf one 1 = [1] := by decide

/-- The cut instant is 256 cycles after the request in a gang with no padding (R227). -/
theorem test_cutRequest : after (exec (.cutRequest false 1) (one.mapJob 1 fun j => { j with cut := some (.pending false) }))
    (fun t => decide ((t.job 1).cut = some (.running false 256 0) ∧ .cut ∈ (t.gang 1).causes)) = true := by decide

/-! ### Witnesses: barge and translation -/

/-- A view block at staging 256: tensor 5, rank 1, SBASE 4096, 16 elements from 0 (Table 8.3). -/
def viewCells : Table Byte := [(256, 5), (260, 1), (265, 0x10), (276, 16)]

/-- The first three words of that block. -/
def viewWords : List Scalar := [0x100000005, 0x1000, 0x1000000000]

/-- A `BCOPY` to staging that has just been issued. -/
def load0 : Cmd := { id := 0, word := 0x40330000#32, token := 3, base := 256, consume := [] }

/-- The command started, and with a piece read. -/
def load1 : Cmd := { load0 with started := true, view := viewWords }

/-- See `load1`. -/
def load2 : Cmd := { load1 with readPos := 16, pieces := [{
  frame := 0, offs := List.range 16, bytes := List.replicate 16 7, size := 1, entry := 0x8000000000000007 }] }

/-- Tile 0 of a job with tensor 5: i8, 16 elements, one tile of a whole frame; with a queue of one command. -/
def bargeOf (c : Cmd) : State :=
  ((one.mapStaging fun t => { t with cells := viewCells }).mapBarge fun b => { b with nextId := 2, queue := [c] }).mapJob 1 fun j =>
    { j with tensors := [(5, { live := true, fmt := 8, shape := [16], tile := [65536], root := 0x10000 })] }

/-- A lookaside entry for frame 0: V, local, frame 7. -/
def mapped (s : State) : State := s.mapBarge fun b =>
  { b with lookaside := [{ pasid := 1, tensor := 5, count := 0, frame := 0, entry := 0x8000000000000007 }] }

theorem outstanding (c : Cmd) (s : State) (h : s.core.barge.queue = [c]) : Outstanding s c := by
  unfold Outstanding; rw [h]; simp

/-- A command that may start: one whose consumed command failed, a `BMARK` of the same, one that passes every check, one of a dead
tensor; a read part, a write part and a completion. -/
theorem test_bargeStart :
    load0.word = 0x40330000#32 ∧ load0.kind = .load ∧ decode .x load0.word = .ok (.bcopy 3 12 0 0 0 0) ∧
    (let s := (bargeOf { load0 with consume := [1] }).mapBarge fun b => { b with words := [(1, 0x8000000000000000)] }
     let c := { load0 with consume := [1] }
     Safety.wf s = true ∧ s.core.barge.queue = [c] ∧ behindMark s c = false ∧ bits (tget 0 s.core.barge.words 1).toNat 63 61 = 4 ∧
      c.kind ≠ .mark ∧ ({ c with word := 0x58330000#32 } : Cmd).kind = .mark) ∧
    (let v := (readView (bargeOf load0) load0).1
     let c1 : Cmd := { load0 with started := true, view := v.map UnitValue.value }
     Safety.wf (bargeOf load0) = true ∧ wordsRead c1 = [0, 1, 2] ∧ startError (bargeOf load0) 1 c1 = 0 ∧ load0.before = [] ∧
      (∀ x ∈ v, x.poison = false ∧ x.fixed = false)) ∧
    (let s := (bargeOf load0).mapStaging fun t => { t with poison := [(8, true)] }
     let v := (readView s load0).1
     ∃ i ∈ wordsRead { load0 with started := true, view := v.map UnitValue.value }, (v[i]?.map UnitValue.poison) = some true) ∧
    (let s := (bargeOf load0).mapJob 1 fun j => { j with tensors := [] }
     let c1 : Cmd := { load0 with started := true, view := (readView s load0).1.map UnitValue.value }
     wordsRead c1 ≠ [] ∧ startError s 1 c1 = 1) := by decide

/-- The last word of that view block, which the command does not use, cannot be corrected: the command starts, and the others are read (R177). -/
theorem test_unusedView : let s := (bargeOf load0).mapStaging fun t => { t with marks := [(63, .uncorrectable)] }
    let v := (readView s load0).1
    Safety.wf s = true ∧ (unitsOf load0.base 256)[31]? = some 63 ∧ (∀ i ∈ [0, 1, 2], (v[i]?.map UnitValue.poison) = some false) ∧
    v[30]?.map UnitValue.value = some (s.core.staging.unit 62) := by decide

/-- A `.code` copy of 100,000 elements whose handle names no tensor: more than 96 KiB at any size, so VBLK before HGEN (R194, R472). -/
theorem test_codeBounds : let c : Cmd := { load0 with word := 0x40330800#32, view := [0x100000005, 0, 100000 * 2 ^ 32] }
    c.kind = .code ∧ startError one 1 c = 5 ∧ startError one 1 { c with view := [0x100000005, 0, 64 * 2 ^ 32] } = 1 := by decide

theorem test_bargePieces :
    Outstanding (mapped (bargeOf load1)) load1 ∧
    (let s := mapped (bargeOf load1)
     Safety.wf s = true ∧ mayRead s load1 = true ∧ (descOf s 1 load1).isSome = true ∧ gatherDim load1 = none ∧
      (descOf s 1 load1).map (fun d => (locate s load1 d 0).1) = some (.at 0 0) ∧ lookupEntry s load1 0 = some 0x8000000000000007 ∧
      noFrame s.mem 0x8000000000000007 = false ∧ load1.kind.loads = true ∧
      linkDown s (entrySpace 1 (s.job 1) 0x8000000000000007) = false ∧ s.mem.marks = []) ∧
    (let s := mapped (bargeOf load2)
     Safety.wf s = true ∧ mayWrite s load2 = true ∧ load2.kind ≠ .code ∧ load2.before = [] ∧
      load2.pieces.map Piece.bytes = [List.replicate 16 7]) ∧
    (let c := { load2 with word := 0x40330400#32 }
     let s := (mapped (bargeOf c)).mapJob 1 fun j => { j with tensors := j.tensors.map fun x => (x.1, { x.2 with sealed := true }) }
     Safety.wf s = true ∧ mayWrite s c = true ∧ c.kind.loads = false ∧ (tensorOf (s.job 1) c).sealed = true ∧
      (tensorOf (s.job 1) c).live = true ∧ (tensorOf (s.job 1) c).count = vCount c ∧ noFrame s.mem 0x8000000000000007 = false) ∧
    (let c := { load1 with readPos := 16, done := 1, wp := 16 }
     completes (bargeOf c) c = true ∧ completes (bargeOf { c with stop := some 7 }) { c with stop := some 7 } = true) :=
  ⟨outstanding _ _ rfl, by decide⟩

/-- The piece that a load reads is one of 16 bytes, and its write part leaves them at SBASE (R187, R189). -/
theorem test_bargePiece_result :
    after (exec (.bargePiece 0 0 .reads) (mapped (bargeOf load1)))
      (fun t => t.core.barge.queue.all fun c => decide (c.readPos = 16 ∧ c.pieces.length = 1 ∧ c.stop = none)) = true ∧
    after (exec (.bargePiece 0 0 .writes) (mapped (bargeOf load2))) (fun t =>
      decide (t.core.staging.bytes 4096 16 = List.replicate 16 7 ∧ tget 0 t.core.barge.words 0 = 0x100000010)) = true := by decide

/-- A command by its word, with one piece read: its bytes for the offsets of frame 7. -/
def writing (word : BitVec 32) (size : Nat) (offs : List Nat) (bytes : List Byte) : Cmd := { load1 with
  word := word, readPos := 16, view := viewWords ++ List.replicate 10 0 ++ [5, 7, 0x800],
  pieces := [{ frame := 0, offs := offs, bytes := bytes, size := size, entry := 0x8000000000000007 }] }

/-- Before it, 127 stands at the first byte of that frame and 7 in the word at its byte 8. -/
def writes (c : Cmd) : State := poke .reservoir [(0x70000, 127), (0x70008, 7)] (mapped (bargeOf c))

/-- What the write part of its piece leaves. -/
def written (c : Cmd) (f : State → Bool) : Bool := after (exec (.bargePiece 0 0 .writes) (writes c)) f

/-- A scatter that writes one place twice, a saturating reduction of i32, a `.cas` and a signed maximum of 32 bits, and a `.code` copy (R187, R194 to R197). -/
theorem test_bargeWrites :
    (let c := writing 0x48330000 1 [3, 1, 3] [1, 2, 9]
     c.kind = .scatter ∧ Safety.wf (writes c) = true ∧ mayWrite (writes c) c = true ∧ c.kind.loads = false ∧ (writes c).core.barge.queue = [c] ∧
      noFrame (writes c).mem 0x8000000000000007 = false ∧ (∀ f ∈ (writes c).mem.frames, f.2.1 = 0 ∨ ((writes c).job (f.2.1 - 1)).cuts ≤ f.2.2) ∧
      (tensorOf ((writes c).job 1) c).sealed = false ∧ linkDown (writes c) (entrySpace 1 ((writes c).job 1) 0x8000000000000007) = false ∧
      written c (fun t => decide (bytesAt t .reservoir 0x70000 4 = [127, 2, 0, 9] ∧ tget 0 t.core.barge.words 0 = 0x100000000)) = true) ∧
    (let c := writing 0x4C3304C0 4 [0] [255, 255, 255, 127]
     c.kind = .reduce 0 true 12 ∧ mayWrite (writes c) c = true ∧ (writes c).mem.marks = [] ∧ 4 = elemBytes 12 ∧
      written c (fun t => decide (wordAt t .reservoir 0x70000 = 0x7FFFFFFF)) = true) ∧
    (let c := writing 0x50330048 4 [8] []
     c.kind = .atomic 9 0 ∧ mayWrite (writes c) c = true ∧ c.before = [] ∧ bits (0x8000000000000007 : BitVec 64).toNat 62 61 ≠ 2 ∧
      written c (fun t => decide (wordAt t .reservoir 0x70008 = 5 ∧ t.core.staging.unit 256 = 7 ∧
        tget 0 t.core.barge.words 0 = 0x100000008)) = true) ∧
    (let c := writing 0x50330018 4 [0] []
     c.kind = .atomic 3 0 ∧ written c (fun t => decide (wordAt t .reservoir 0x70000 = 127 ∧ t.core.staging.unit 256 = 127)) = true) ∧
    (let c := { writing 0x40330800 1 (List.range 32) (List.replicate 32 1) with wp := 32, buf := [2] }
     c.kind = .code ∧ mayWrite (writes c) c = true ∧ written c (fun t => decide (t.core.isram.bundles = [(129, BitVec.ofNat 256 (ofBytes (2 :: List.replicate 31 1)))] ∧
        t.core.barge.queue.map Cmd.wp = [64] ∧ t.core.barge.queue.map Cmd.buf = [[1]])) = true) := by decide +kernel

/-- A device whose link to peer 4095, which entries of kind 1 reach, is down, with a command to write there (R252). -/
def cutOff (w : BitVec 32) : Cmd × State :=
  let c : Cmd := { writing w 1 [0] [1] with pieces := [{ frame := 0, offs := [0], bytes := [1], size := 1, entry := 0xA000000000000000 }] }
  (c, ((writes c).mapJob 1 fun j => { j with peers := [(0, 4096)] }).mapFabric fun f => { f with down := [(4095, true)] })

theorem test_linkDown :
    linkDown (cutOff 0x48330000).2 (entrySpace 1 ((cutOff 0x48330000).2.job 1) 0xA000000000000000) = true ∧
    noFrame (cutOff 0x48330000).2.mem 0xA000000000000000 = false ∧ bits (0xA000000000000000 : BitVec 64).toNat 62 61 ≠ 2 ∧
    mayWrite (cutOff 0x48330000).2 (cutOff 0x48330000).1 = true ∧ mayWrite (cutOff 0x4C3304C0).2 (cutOff 0x4C3304C0).1 = true ∧
    mayWrite (cutOff 0x50330048).2 (cutOff 0x50330048).1 = true := by decide +kernel

/-- A frame that is needed, with a walk to begin; walks in progress; misses of tensors backed by the device and by the host; a seal. -/
theorem test_translation :
    (neededFrame (bargeOf load1) load1 = some 0 ∧ (bargeOf load1).core.barge.walks = [] ∧ (bargeOf load1).core.barge.misses = [] ∧
      walksIn (bargeOf load1) (quadrantOf 0) < 8) ∧
    (let s := (bargeOf load1).mapBarge fun b => { b with walks := [{ id := 0, frame := 0, seq := 0, entry := 0x8000000000000007, bad := false }] }
     Safety.wf s = true ∧ s.core.barge.walks.find? (fun w => w.id == load1.id) =
        some { id := 0, frame := 0, seq := s.mem.shoot, entry := 0x8000000000000007, bad := false } ∧
      s.core.barge.lookaside.length ≤ 256) ∧
    (let s := (bargeOf load1).mapBarge fun b => { b with misses := [0] }
     mmpRuns s = true ∧ load1.id ∈ s.core.barge.misses ∧ (neededFrame s load1).isSome = true ∧
      (tget {} (s.job 1).tensors (vTensor load1)).host = false ∧ s.mem.nextFrame + 32 ≤ s.mem.capacity) ∧
    (let s := ((bargeOf load1).mapBarge fun b => { b with misses := [0] }).mapJob 1 fun j =>
        { j with tensors := [(5, { live := true, fmt := 8, shape := [16], tile := [65536], root := 0x10000, host := true })] }
     mmpRuns s = true ∧ load1.id ∈ s.core.barge.misses ∧ (tget {} (s.job 1).tensors (vTensor load1)).host = true) ∧
    noPeer (one.job 1) 0xA0C0000000000000 = true ∧ (tget {} ((bargeOf load1).job 1).tensors 5).live = true ∧
    (let c := { load1 with word := 0x5C330000#32 }
     mmpRuns (bargeOf c) = true ∧ c.kind = .sealOn ∧ c.applied = false ∧ c.stop = none ∧ (descOf (bargeOf c) 1 c).isSome = true ∧
      ({ c with word := 0x60330000#32 } : Cmd).kind = .sealOff) := by decide

/-- The tile tables that a walk, a miss and a shoot-down reach, in frames that are there, and in frames that are not (R2). -/
theorem test_tables : let away := (bargeOf load1).mapJob 1 fun j =>
        { j with tensors := [(5, { live := true, fmt := 8, shape := [16], tile := [65536], root := 2 ^ 47 })] }
    tableFits (bargeOf load1) 0x10000 0 = true ∧ tablesFit (bargeOf load1) 1 5 0 = true ∧ shootFits (bargeOf load1) 1 5 0 0 = true ∧
    neededFrame away load1 = some 0 ∧ tableFits away (2 ^ 47) 0 = false ∧ shootFits away 1 5 0 0 = false ∧ away.core.barge.queue = [load1] ∧
    faults (exec (.lookasideWalk 0 0 .begins) away) = true ∧ faults (exec (.shootdown 1 5 0 0) away) = true ∧
    (let s := away.mapBarge fun b => { b with misses := [0] }
     mmpRuns s = true ∧ neededFrame s load1 = some 0 ∧ tablesFit s 1 5 0 = false ∧ faults (exec (.mmpMissFill 0 0 true) s) = true ∧
      after (exec (.mmpMissFill 0 0 false) s) (fun t => t.core.barge.misses.isEmpty) = true) := by decide

/-- A walk whose counter has moved fills nothing; the other fills the lookaside (R202). -/
theorem test_walks :
    after (exec (.lookasideWalk 0 0 .fills) ((bargeOf load1).mapBarge fun b =>
      { b with walks := [{ id := 0, frame := 0, seq := 1, entry := 0x8000000000000007, bad := false }] }))
      (fun t => t.core.barge.lookaside.isEmpty && t.core.barge.walks.isEmpty) = true ∧
    after (exec (.lookasideWalk 0 0 .fills) ((bargeOf load1).mapBarge fun b =>
      { b with walks := [{ id := 0, frame := 0, seq := 0, entry := 0x8000000000000007, bad := false }] }))
      (fun t => decide (t.core.barge.lookaside.map Lookaside.frame = [0])) = true := by decide

/-- A job that does not exist, a tensor that may be created, an empty partition, a tensor number with a shape. -/
theorem test_jobSetup :
    (Safety.wf one = true ∧ mmpRuns one = true ∧ (one.job 0xFFFFF).live = false ∧ 0xFFFFF < 2 ^ 20 ∧
      one.mem.nextFrame + 1 + 2 * 3 ≤ one.mem.capacity ∧
      legalTensor { number := 0xFFFFFF, fmt := 8, shape := [1, 0xFFFFFFFF], tile := [65536, 1], host := false } = true) ∧
    ((one.job 1).live = true ∧ tget (0, 0) (one.job 1).parts 255 = (0, 0) ∧
      (∀ j ∈ one.jobs, j.1 ≠ 1 → apart (32767, 32768) (tget (0, 0) j.2.parts 255) = true)) ∧
    (tget {} ((bargeOf load1).job 1).tensors 5).shape ≠ [] ∧
    (let s := one.mapJob 1 fun j => { j with tensors := [(5, { live := false, fmt := 8, shape := [16], tile := [65536] })] }
     Safety.wf s = true ∧ (tget {} (s.job 1).tensors 5).live = false ∧ s.mem.nextFrame + 3 ≤ s.mem.capacity ∧
      s.core.barge = {} ∧ ∀ x ∈ s.tiles, x.2.barge = {}) := by decide

/-! ### Witnesses: fabric -/

/-- A row that enters tile 0 alone by its own input, with a route that delivers it. -/
def rowIn : State :=
  { one.mapCanal fun c => { c with routes := [(63, 0x80E0)] } with
    flights := [{ route := 63, row := 9, poison := false, corrected := false, mark := .correctable, tile := 0, input := 0, enters := 0,
                  gid := 1 }] }

/-- A trained crossing on the west side of tile 0, whose gang spans two packages. -/
def crossed : State := (one.mapGang 1 fun g => { g with pkg := 1, pad := 512 }).mapFabric fun f =>
  { f with crossings := [(7, { live := true, tile := 0, side := 3, ports := (62, 63), latency := 512 })] }

/-- A unit with a row, a copy of a hold event, or a lost event. -/
def unitOf (valid : Bool) (hold : Option Nat) (lost : Bool) : CrossingUnit :=
  { valid := valid, route := 63, row := 0, poison := false, correctable := true, arrival := none, hold := hold, eventLost := lost, stretch := 0 }

/-- A flit of zeros with a number of wrong bytes: the CRC-32C of 246 zero bytes stands in its CRC field, or not. -/
def flitOf (wrong : Nat) (crc : BitVec 32) (w : Option FlitWrite) : Flit :=
  { header := List.replicate 6 0, payload := List.replicate 240 0, crc := crc, wrongBytes := wrong, write := w }

/-- One byte written to the last address of a peer's first frame. -/
def flitWrite : FlitWrite := { space := .peer 4095, addr := 65535, bytes := [7] }

theorem test_fabric :
    (Safety.wf rowIn = true ∧ (rowIn.gang 1).held = false ∧ rowIn.core.ctl.status = .running ∧ rowIn.core.canal.old = none ∧
      (entering rowIn 0 rowIn.clock).length = 1) ∧
    (let s := { received.mapCtl fun c => { c with status := .waiting } with clock := 5 }
     Safety.wf s = true ∧ s.core.ctl.status = .waiting ∧ (s.gang 1).held = false ∧ overruns s 3 false = true ∧ s.core.ctl.trap = none ∧
      (let q := s.mapCtl fun c => { c with trap := some { record10 with final := false } }
       Safety.wf q = true ∧ overruns q 3 false = true)) ∧
    (Safety.wf crossed = true ∧ (tget {} crossed.fabric.crossings 7).live = true ∧ (crossed.tile 0).ctl.status ≠ .idle ∧
      (crossed.tile 0).task.gid = 1 ∧ (crossed.tile 0).ctl.trap = none ∧ (crossed.gang 1).ox + (crossed.gang 1).w ≤ 16 ∧
      0 < (crossed.gang 1).pkg ∧ (tget {} crossed.fabric.crossings 7).holdSeen = []) ∧
    (neighbour 255 1 = none ∧ neighbour 0 3 = none) ∧
    (∀ c ∈ one.fabric.crossings, c.1 ≠ 0 → c.2.live = true → ∀ q ∈ [c.2.ports.1, c.2.ports.2], q ≠ 0 ∧ q ≠ 63) ∧
    (tget false one.fabric.down 4096 = false ∧ (flitOf 3 0 none).header.length = 6 ∧ (flitOf 3 0 none).payload.length = 240 ∧
      ∀ c ∈ crossed.fabric.crossings, c.2.live = true → c.2.ports.1 ≠ 0 ∧ c.2.ports.2 ≠ 0) ∧
    there one .reservoir 0x1000000 256 ∧ tget 0 (one.mapFabric fun f => { f with replays := [(63, 8)] }).fabric.replays 63 = 8 := by decide

/-- The row is delivered to rl3; a training latency of 4,096 is taken and one of 4,097 is not; the ninth failure takes the link down. -/
theorem test_fabric_results :
    after (exec (.canalRowArrive 0) rowIn) (fun t => decide (t.flights = [] ∧
      tget [] t.core.canal.latches 3 = [{ row := 9, poison := false, since := 0 }])) = true ∧
    after (exec (.crossingUnit 7 (unitOf true none false)) crossed) (fun t => t.flights.length == 1) = true ∧
    after (exec (.crossingUnit 7 (unitOf false (some 0) false)) crossed) (fun t => decide (.remote ∈ (t.gang 1).causes)) = true ∧
    after (exec (.crossingUnit 7 (unitOf false none true)) crossed) (fun t =>
      decide ((t.core.ctl.trap.map fun r => (r.cause, r.detail)) = some (8, 1))) = true ∧
    after (exec (.crossingTraining 0 (255, 1) (0, 63) 4096 true) one) (fun t => (tget {} t.fabric.crossings 0).live) = true ∧
    after (exec (.crossingTraining 0 (255, 1) (0, 63) 4097 true) one) (fun t => !(tget {} t.fabric.crossings 0).live) = true ∧
    after (exec (.sarpolFlit 0 63 (flitOf 4 0 none)) (one.mapFabric fun f => { f with replays := [(63, 8)] })) (fun t => tget false t.fabric.down 63) = true ∧
    after (exec (.sarpolFlit 0 63 (flitOf 4 0 none)) (one.mapFabric fun f => { f with replays := [(63, 7)] })) (fun t => !tget false t.fabric.down 63) = true := by
  decide

/-- A flit that passes, with three wrong bytes corrected, and one that does not. -/
theorem test_flit (w : Option FlitWrite) : flitPasses (flitOf 3 (crc32c (List.replicate 6 0 ++ List.replicate 240 0)) w) = true ∧
    flitPasses (flitOf 4 0 (some flitWrite)) = false := ⟨by simp [flitPasses, flitOf], by decide⟩

/-! ### Witnesses: when a check fails -/

/-- One bank of channel 3 in a state of Table 6.2, for a partition of rows 0 and 1. -/
def bankAs (b : Bank) : State := (one.mapVault fun v => { v with banks := [(63, b)] }).mapTask fun t => { t with vpl := 2 }

/-- Each condition of Table 6.3 at its boundary: RRD and FAW, PRERDY, ACTRDY of a refreshing bank, and the row that is VPL (R135, R136, R140). -/
theorem test_bankChecks : readPred one 0 = true ∧ ¬ Raises (bankAs {}) (.act 3 15 0 0) 4 0 ∧ ¬ Raises (bankAs {}) (.act 3 15 0 0) 3 0 ∧
    Raises ((bankAs {}).mapRegs fun r => { r with s := [(1, 2)] }) (.act 3 15 1 0) 3 0 ∧
    Raises ((bankAs {}).mapVault fun v => { v with channels := [(3, { rrdAt := 1 })] }) (.refb 3 15 0) 4 0 ∧
    Raises ((bankAs {}).mapVault fun v => { v with channels := [(3, { faw0 := 1, faw1 := 1, faw2 := 1, faw3 := 1 })] }) (.actw 3 15 0 0) 4 0 ∧
    ¬ Raises ((bankAs {}).mapVault fun v => { v with channels := [(3, { faw0 := 1, faw1 := 1, faw2 := 1 })] }) (.actw 3 15 0 0) 4 0 ∧
    Raises (bankAs { mode := .active, preAt := 1 }) (.prea 3 0) 4 0 ∧ ¬ Raises (bankAs { mode := .active, preAt := 1 }) (.prea 2 0) 4 0 ∧
    Raises (bankAs { mode := .refreshing, actAt := 1 }) (.pre 3 15 0) 4 0 ∧ ¬ Raises (bankAs { mode := .refreshing }) (.pre 3 15 0) 4 0 ∧
    Raises (bankAs { mode := .active }) (.ref 3 0) 4 0 ∧ ¬ Raises (bankAs { mode := .active }) (.ref 2 0) 4 0 ∧
    Raises (bankAs { mode := .active }) (.wr 3 15 0 0 0) 4 0 ∧ ¬ Raises (bankAs { mode := .active }) (.rd 3 15 0 0 0) 4 0 := by decide

/-- A stream in q1 with a mask, a length code and the same of q2. -/
def streams (m : BitVec 32) (l : Nat) : State := one.mapRegs fun r => { r with q := [(1, { mask := m, len := l }), (2, { mask := 3, len := 0 })] }

/-- Masks that meet, that are equal, and a stream that was delayed; a wrong length; an empty latch; an occupied slot (R61, R66, R161, R165, R171). -/
theorem test_streamChecks : Raises (streams 2 0) (.sand 0 1 2 0 0 0) 6 0 ∧ ¬ Raises (streams 4 0) (.sand 0 1 2 0 0 0) 6 0 ∧
    Raises (streams 2 0) (.sxor 0 1 2 0 1 0) 6 0 ∧ ¬ Raises (streams 3 0) (.sxor 0 1 2 0 1 0) 6 0 ∧
    Raises (streams 0x10000 0) (.sdly 0 1 0 0 0) 6 0 ∧ ¬ Raises (streams 0xFFFF 0) (.sdly 0 1 0 0 0) 6 0 ∧
    Raises (streams 4 0) (.smux 0 1 2 0 0 2 0) 6 0 ∧ Raises (streams 0 1) (.snot 0 1 0 0) 2 0 ∧ ¬ Raises (streams 0 1) (.snot 0 1 1 0) 2 0 ∧
    Raises one (.add 1 56 0 0) 2 0 ∧ Raises one (.vand .v0 1 2 63 0 4) 2 0 ∧
    Raises (one.mapCtl fun c => { c with busy := [(2, 1)] }) (.vand .v0 1 2 3 0 4) 2 0 := by decide

/-! ### Witnesses: queues and packets -/

/-- Queue 3 of job 1 in the queue table at 2^24, with a control block at 0x4000: KIND 0, four slots, PLIM 3, doorbell 4095 (Tables 12.3
and 12.4). -/
def queues : State :=
  poke .reservoir [(0x1000008, 2 ^ 63 + 2 ^ 62 + 0x2000), (0x2018, 2 ^ 63 + 2 ^ 62 + 0x4000),
    (0x4000, 4095 * 2 ^ 52 + 2 * 2 ^ 32 + 3 * 2 ^ 28 + 1 * 2 ^ 8), (0x4008, 0), (0x4018, 0x300)]
    (one.mapLk fun l => { l with qtroot := 0x1000000 })

/-- A thread of that queue, in some activity and with a packet. -/
def threadIn (act : Activity) (packet : List Scalar) : State :=
  queues.mapLk fun l => { l with threads := [(31, { act := act, pasid := 1, qnum := 3, qcb := 0x4000, db := 4095, packet := packet, kick := 1 })] }

theorem test_queues_wf : Safety.wf queues = true ∧ controlRuns queues = true ∧ Safety.wf (threadIn .taking []) = true := by decide

/-- A doorbell of a mapped queue; one of no mapped queue, with and without an entry in the doorbell map. -/
theorem test_doorbells :
    (mappedThreads (threadIn .taking [])).find? (fun t => t.2.db == 4095) =
      some (31, { act := .taking, pasid := 1, qnum := 3, qcb := 0x4000, db := 4095, kick := 1 }) ∧
    (∀ t ∈ mappedThreads queues, t.2.db ≠ 0) ∧ bits (wordAt queues .reservoir (queues.lk.dbroot + 8 * 0)).toNat 63 63 = 0 ∧
    there queues .reservoir (queues.lk.dbroot + 8 * 4095) 8 ∧
    (let s := poke .reservoir [(8 * 4095, 2 ^ 63 + 1 * 2 ^ 8 + 3)] queues
     (∀ t ∈ mappedThreads s, t.2.db ≠ 4095) ∧ bits (wordAt s .reservoir (s.lk.dbroot + 8 * 4095)).toNat 63 63 = 1 ∧
      bits (wordAt s .reservoir (s.lk.dbroot + 8 * 4095)).toNat 62 28 = 0) := by decide

/-- A request for a mapped queue, for one outside the table, for one that is absent, and for one that a free thread takes. -/
def request (s : State) (q : Nat) : State := s.mapLk fun l => { l with mapWaits := [{ pasid := 1, qnum := q, db := some 4095, kick := 4 }] }

theorem test_queueMap :
    (let s := request (threadIn .taking []) 3
     s.lk.mapWaits.find? (fun r => r.pasid == 1 && r.qnum == 3) = some { pasid := 1, qnum := 3, db := some 4095, kick := 4 } ∧
      threadFor s 1 3 = some 31) ∧
    (let s := (threadIn .taking []).mapLk fun l => { l with mapWaits := [{ pasid := 1, qnum := 3, db := some 4094, kick := 4 }] }
     threadFor s 1 3 = some 31 ∧ (threadAt s 31).db ≠ 4094) ∧
    (let s := request queues 255
     (s.lk.mapWaits.find? fun r => r.pasid == 1 && r.qnum == 255).isSome = true ∧ threadFor s 1 255 = none ∧
      walkQueue s 1 255 = .discarded) ∧
    (let s := poke .reservoir [(0x2000, 2 ^ 63)] (request queues 0)
     (s.lk.mapWaits.find? fun r => r.pasid == 1 && r.qnum == 0).isSome = true ∧ threadFor s 1 0 = none ∧ walkQueue s 1 0 = .absent) ∧
    (let s := request queues 3
     threadFor s 1 3 = none ∧ walkQueue s 1 3 = .found 0x2018 0x4000 ∧ qcbBad s 0x4000 (some 4095) = false ∧
      (threadAt s 0).act = .unmapped ∧ there s (qSpace s 0x4000) (bits (qcbWord s 0x4000 3) 47 0) 8 ∧
      there s .reservoir (bits (qcbWord s 0x4000 4) 47 0) 8 ∧ qcbBad (poke .reservoir [(0x4030, 2)] s) 0x4000 (some 4095) = true ∧
      qcbBad s 0x4000 (some 4094) = true) := by decide

/-- The queue is mapped to thread 0, which starts from RIDX with the kick of the request (R258). -/
theorem test_queueMap_result : after (exec (.queueMap 1 3) (request queues 3)) (fun t => decide ((threadAt t 0).act = .taking ∧
    (threadAt t 0).qcb = 0x4000 ∧ (threadAt t 0).kick = 4 ∧ (threadAt t 0).ridx = 0 ∧ t.lk.mapWaits = [])) = true := by decide

/-- A queue of KIND 1 to be mapped: RIDX 5 at 0x600, KMAX 7, kick word 9 at 0x500; and the same with all 32 threads in use, thread 17, of a queue
of KIND 1 whose block is at 0x8000, idle longest, with a kick of 3 that was reported. -/
def mapsKind1 : State := poke .reservoir [(0x4000, 4095 * 2 ^ 52 + 2 * 2 ^ 32 + 1 * 2 ^ 8 + 1), (0x4018, 0x600), (0x4020, 0x500), (0x4028, 7), (0x600, 5),
  (0x500, 9)] (request queues 3)

/-- See `mapsKind1`. -/
def evicts : State := (poke .reservoir [(0x8000, 2 * 2 ^ 32 + 2 * 2 ^ 8 + 1), (0x8020, 0x700)] mapsKind1).mapLk fun l => { l with
  reports := [{ pasid := 2, qnum := 17, isKick := true, value := 3 }],
  threads := (List.range 32).map fun n => (n, { act := .taking, pasid := 2, qnum := n, qcb := 0x8000, ridx := 3, idleSince := if n = 17 then 1 else 2 }) }

theorem test_mapStarts : Safety.wf mapsKind1 = true ∧ controlRuns mapsKind1 = true ∧ walkQueue mapsKind1 1 3 = .found 0x2018 0x4000 ∧
    qcbBad mapsKind1 0x4000 (some 4095) = false ∧ mapsKind1.mem.unfenced = [] ∧ mapsKind1.lk.watches = [] ∧
    after (exec (.queueMap 1 3) mapsKind1) (fun t => decide ((threadAt t 0).ridx = 5 ∧ (threadAt t 0).kick = 9 ∧
      wordAt t .reservoir 0x2018 = BitVec.ofNat 64 (2 ^ 63 + 2 ^ 62 + 2 ^ 61 + 0x4000))) = true := by decide +kernel

theorem test_evicts : Safety.wf evicts = true ∧ controlRuns evicts = true ∧ threadFor evicts 1 3 = none ∧ walkQueue evicts 1 3 = .found 0x2018 0x4000 ∧
    qcbBad evicts 0x4000 (some 4095) = false ∧ (∀ m, m < 32 → (threadAt evicts m).act ≠ .unmapped) ∧
    (reportsOf evicts (kickWatch evicts (threadAt evicts 17))).map Report.value = [3] ∧ evicts.mem.unfenced = [] ∧ evicts.lk.watches = [] ∧
    (∀ f ∈ evicts.mem.frames, f.2.1 = 0 ∨ (evicts.job (f.2.1 - 1)).cuts ≤ f.2.2) ∧
    after (exec (.queueMap 1 3) evicts) (fun t => decide ((threadAt t 17).ridx = 5 ∧ (threadAt t 17).kick = 9 ∧ (threadAt t 17).pasid = 1 ∧
      wordAt t .reservoir 0x8028 = 3 ∧ wordAt t .reservoir 0x8030 = 0 ∧ t.lk.watches.map (fun w => (w.pasid, w.qnum, w.isKick, w.addr, w.value)) =
        [(2, 17, true, 0x700, 3)])) = true := by decide +kernel

/-- Watches of the three sorts that are met, at equality; a thread of KIND 1. -/
theorem test_watches :
    (let w : Watch := {
        pasid := 1, qnum := 3, qcb := 0x4000, isKick := false, space := .queueSram, addr := 8, value := 5, geq := true,
        packet := [], fired := none }
     let s := poke .queueSram [(8, 5)] (queues.mapLk fun l => { l with watches := [w, { w with geq := false }, { w with isKick := true, value := 4 }] })
     Safety.wf s = true ∧ s.lk.watches[2]?.isSome = true ∧ (wordAt s .queueSram 8).toNat = 5 ∧ threadFor s 1 3 = none ∧ s.mem.unfenced = [] ∧
      there s .reservoir 8 8) ∧
    (let s := poke .reservoir [(0x4000, 2 * 2 ^ 32 + 1 * 2 ^ 8 + 1)] (threadIn .taking [])
     (threadAt s 31).act ≠ .unmapped ∧ there s .reservoir (threadAt s 31).qcb 64 ∧
      there s .reservoir (bits (qcbWord s (threadAt s 31).qcb 4) 47 0) 8 ∧ bits (qcbWord s (threadAt s 31).qcb 0) 1 0 = 1 ∧ s.mem.unfenced = []) := by decide

/-- A watched word that was written to 5 and then to 0: the watch fires all the same (R259). -/
theorem test_reported : let w : Watch := {
        pasid := 1, qnum := 3, qcb := 0x4000, isKick := true, space := .queueSram, addr := 8, value := 4, geq := true, packet := [], fired := none }
    let s := poke .queueSram [(8, 5), (8, 0)] (queues.mapLk fun l => { l with watches := [w] })
    Safety.wf s = true ∧ (wordAt s .queueSram 8).toNat = 0 ∧ (reportsOf s w).map Report.value = [5] ∧
    (∀ z ∈ s.watched, z.pasid = w.pasid → z.qnum = w.qnum → z.isKick = w.isKick → z = w) ∧
    after (exec (.watchFire 0) s) (fun t => decide (t.lk.watches.map Watch.fired = [some 0] ∧ t.lk.mapWaits.map MapReq.qnum = [3])) = true := by decide

/-- A mapped queue of KIND 1 whose kick word was written to 9 and then to 2, and its thread; and one whose block, or kick word, is not there. -/
theorem test_kicks : let qcb (a : Nat) := [(0x4000, 2 * 2 ^ 32 + 1 * 2 ^ 8 + 1), (0x4020, a)]
    (let s := poke .reservoir [(0x500, 9), (0x500, 2)] (poke .reservoir (qcb 0x500) (threadIn .taking []))
     after (exec (.kickObserve 31) s) (fun t => decide ((threadAt t 31).kick = 9 ∧ t.lk.reports = [])) = true) ∧
    (let s := poke .reservoir (qcb (2 ^ 47)) (threadIn .taking [])
     bits (qcbWord s 0x4000 0) 1 0 = 1 ∧ ¬ there s .reservoir (bits (qcbWord s 0x4000 4) 47 0) 8) ∧
    (let s := (threadIn .taking []).mapLk fun l => { l with threads := l.threads.map fun t => (t.1, { t.2 with qcb := 2 ^ 47 }) }
     (threadAt s 31).act ≠ .unmapped ∧ ¬ there s .reservoir (threadAt s 31).qcb 64) := by decide

/-- The last aligned unit of queue SRAM, and one off a boundary. -/
theorem test_queueSram : (0xFFFFF8 % 8 = 0 ∧ 0xFFFFF8 + 8 ≤ 0x1000000) ∧ ¬ (4 % 8 = 0 ∧ 4 + 8 ≤ 0x1000000) ∧
    after (exec (.pcieFetchadd 0xFFFFF8 2) (poke .queueSram [(0xFFFFF8, 2 ^ 64 - 1)] one)) (fun t =>
      wordAt t .queueSram 0xFFFFF8 == 1 && t.fabric.reply == 0xFFFFFFFFFFFFFFFF) = true ∧
    after (exec (.pcieCas 8 7 9) (poke .queueSram [(8, 7)] one)) (fun t => wordAt t .queueSram 8 == 9) = true ∧
    after (exec (.pcieCas 8 6 9) (poke .queueSram [(8, 7)] one)) (fun t => wordAt t .queueSram 8 == 7) = true := by decide

/-- A wait packet on a word of queue SRAM: at least 5. -/
def waitFor (op : Nat) : List Scalar := [BitVec.ofNat 64 (3 * 2 ^ 6 + op * 2 ^ 4 + 2), 0x100, 5, 0, 0, 0, 0, 0, 0, 0, 0, 0, 0, 0, 0]

/-- Job 1 owns frame 1 and node 2. -/
def owning (s : State) : State := (s.mapMem fun m => { m with frames := [(1, (2, 0))] }).mapNode 2 fun x => { x with owner := some 1 }

theorem test_packets :
    (let s := poke .queueSram [(120, 0), (0, 0)] (threadIn .taking [])
     Safety.wf s = true ∧ (threadAt s 31).act = .taking ∧ (threadAt s 31).ridx < (threadAt s 31).kick ∧
      (wordAt s (qSpace s 0x4000) (bits (qcbWord s 0x4000 1) 47 0 + 128 * (0 % qSlots s 0x4000) + 120)).toNat = (threadAt s 31).ridx ∧
      there s .reservoir (threadAt s 31).qcb 64 ∧ there s .reservoir (bits (qcbWord s 0x4000 1) 47 0) 128 ∧
      there s .reservoir (bits (qcbWord s 0x4000 3) 47 0) 8) ∧
    (threadAt (threadIn .packet [0]) 31).act = .packet ∧
    (let s := owning (threadIn .packet (launch 3))
     Safety.wf s = true ∧ launchError s (threadAt s 31) = 0 ∧
      s.lk.cancels.find? (fun c => c.1 == qPasid s (threadAt s 31).qcb && c.2.1 == 2) = none ∧ (s.node 2).life = .free ∧
      (List.range 32).find? (fun m => (threadAt s m).act == .packet && (((threadAt s m).packet.getD 0 0).toNat % 16 == 1) &&
        (bits ((threadAt s m).packet.getD 0 0).toNat 43 32 == 2)) = some 31) ∧
    (let s := threadIn .packet (launch 0)
     launchError s (threadAt s 31) = 5 ∨ launchError s (threadAt s 31) = 7) ∧
    launchError (threadIn .packet [15]) (threadAt (threadIn .packet [15]) 31) = 1 ∧
    (let s := threadIn .packet (launch 3)
     launchError s (threadAt s 31) = 7 ∧ graphFull s = false) ∧
    (let s := threadIn .packet (waitFor 1)
     waitError s (threadAt s 31) = 0 ∧ waitError s { threadAt s 31 with packet := waitFor 2 } ≠ 0) ∧
    (let s := poke .queueSram [(0x100, 5)] (threadIn .waiting (waitFor 1))
     (threadAt s 31).act = .waiting ∧ waitTrue (threadAt s 31).packet (wordAt s .queueSram 0x100).toNat = true ∧ s.mem.unfenced = []) := by
  decide

/-- A launch with one argument that is not there; a wait on a word that is not there, and one on a word that does not compare true and of which
no write was reported, or one was. -/
theorem test_unfitted :
    (let s := (owning (poke .reservoir [(0x4000, 4095 * 2 ^ 52 + 2 * 2 ^ 32 + 3 * 2 ^ 28 + 1 * 2 ^ 8 + 1)]
        (threadIn .packet ((launch 3).set 4 (BitVec.ofNat 64 (2 ^ 48 + 2 ^ 47)))))).mapMem fun m => { m with frames := [(1, (2, 0)), (2 ^ 31, (2, 0))] }
     Safety.wf s = true ∧ launchError s (threadAt s 31) = 0 ∧ qSpace s 0x4000 = .reservoir ∧ ¬ there s .reservoir (2 ^ 47) 8 ∧
      faults (exec (.launchPacket 31) s) = true) ∧
    (let away := (waitFor 1).set 0 (BitVec.ofNat 64 (1 * 2 ^ 6 + 1 * 2 ^ 4 + 2))
     let s := threadIn .waiting (away.set 1 (BitVec.ofNat 64 (2 ^ 47)))
     (threadAt s 31).act = .waiting ∧ faults (exec (.waitPacketEnd 31) s) = true) ∧
    (let s := threadIn .waiting (waitFor 1)
     waitTrue (threadAt s 31).packet (wordAt s .queueSram 0x100).toNat = false ∧ s.lk.reports = [] ∧
      (let t := s.mapLk fun l => { l with reports := [{ pasid := 1, qnum := 3, isKick := false, value := 5 }] }
       after (exec (.waitPacketEnd 31) t) (fun u => decide ((threadAt u 31).act = .taking)) = true)) := by decide

/-- A graph in which all 4,096 nodes are in use; all 4,096 watch entries taken, and all but one (R259, R273). -/
theorem test_full :
    (let s := (threadIn .packet (launch 3)).mapLk fun l => { l with nodes := (List.range 4096).map fun n => (n, { owner := some 1, life := .running }) }
     Safety.wf s = true ∧ (threadAt s 31).act = .packet ∧ launchError s (threadAt s 31) = 7 ∧ graphFull s = true ∧
      (s.node 2).owner = some (qPasid s (threadAt s 31).qcb)) ∧
    (let w : Watch := {
        pasid := 2, qnum := 3, qcb := 0x4000, isKick := true, space := .queueSram, addr := 8, value := 4, geq := true, packet := [], fired := none }
     ∀ n ∈ [4095, 4096], let s := (threadIn .packet (waitFor 1)).mapLk fun l => { l with watches := List.replicate n w }
      Safety.wf s = true ∧ (threadAt s 31).act = .packet ∧ waitError s (threadAt s 31) = 0 ∧ s.lk.watches.length = n) := by decide +kernel

/-- The launch is entered at node 2 and is ready, with priority 3. -/
theorem test_launch_result : after (exec (.launchPacket 31) (owning (threadIn .packet (launch 3)))) (fun t =>
    decide ((t.node 2).life = .ready ∧ (t.node 2).prio = 3 ∧ t.lk.order = [2] ∧ (threadAt t 31).act = .taking)) = true := by decide

/-! ### Witnesses: launches -/

/-- A device with no task: job 1, and a launch that is ready at node 2. -/
def idle : State :=
  { owning booted with jobs := [(1, { live := true })] }.mapLk fun l =>
    { l with order := [2], nodes := [(2, { owner := some 1, life := .ready, packet := launch 0 })] }

/-- The launch placed under gang 1 on tile 0, with a life. -/
def placedAs (life : GangLife) : State :=
  { one.mapGang 1 fun g => { g with life := life } with core := {} }.mapNode 1 fun x => { x with packet := launch 0 }

theorem test_launchLife :
    (Safety.wf idle = true ∧ controlRuns idle = true ∧ dispatchOrder idle = 2 :: [] ∧ mayDispatch idle 2 = true ∧
      findPlace idle 2 = some (0, 0) ∧ (idle.node 2).saved = false) ∧
    agingDue { idle with clock := 65536 } 2 = true ∧ agingDue { idle with clock := 65535 } 2 = false ∧
    (Safety.wf (placedAs .placed) = true ∧ loadDue (placedAs .placed) 1 = true ∧ startDue (placedAs .loaded) 1 = true ∧
      ((placedAs .loaded).node ((placedAs .loaded).gang 1).node).endTasks = [] ∧ imageThere (placedAs .placed) (2 ^ 50 + 0x10000) ∧
      ((placedAs .placed).gang 1).ox + ((placedAs .placed).gang 1).w ≤ 16 ∧ ((placedAs .placed).gang 1).oy + ((placedAs .placed).gang 1).h ≤ 16) ∧
    (let s := (ctlAt 9 fun c => { c with status := .ended }).mapTask fun t => { t with triggered := true }
     Safety.wf s = true ∧ taskDue s = true ∧ s.core.task.triggered = true ∧ (s.node s.core.task.node).tasksLeft = 1 ∧
      s.core.barge.queue = [] ∧ s.core.ctl.trap = none ∧ (∀ b, b < 64 → (bankAt s b).mode = .active → (bankAt s b).preAt ≤ s.clock) ∧
      taskDue (s.mapNode 1 fun x => { x with tasksLeft := 2 }) = true ∧ taskDue (s.mapGang 1 fun g => { g with reissue := true }) = true) ∧
    (let s := one.mapNode 1 fun x => { x with life := .counted, packet := [0, 0, 0, 0, 0, 0x3000000000000] }
     Safety.wf s = true ∧ recordDue s 1 = true ∧ recordSpace ((s.node 1).owner.getD 0) (bits ((s.node 1).packet.getD 5 0).toNat 49 48) = some .queueSram ∧
      there s .reservoir 0 32) := by decide

/-- A gang to be loaded from an image that is not there. -/
theorem test_loadAway : let s := (placedAs .placed).mapNode 1 fun x => { x with packet := [(launch 0).headD 0, BitVec.ofNat 64 (2 ^ 50 + 2 ^ 47)] }
    controlRuns s = true ∧ loadDue s 1 = true ∧ ¬ imageThere s (2 ^ 50 + 2 ^ 47) ∧ faults (exec (.loaderLoad 1) s) = true := by decide

/-- Two launches of equal priority: the one ready first wants tile 0, which is taken, and the other floats. -/
def skipping : State :=
  (owning one).mapLk fun l => { l with order := [3, 2], nodes := l.nodes.filter (fun x => x.1 == 1) ++
    [(2, { owner := some 1, life := .ready, packet := launch 0 }),
     (3, { owner := some 1, life := .ready, packet := (launch 0).map fun w => if w = (launch 0).headD 0 then w + 64 else w })] }

theorem test_skips : Safety.wf skipping = true ∧ controlRuns skipping = true ∧ dispatchOrder skipping = [3] ++ 2 :: [] ∧
    findPlace skipping 3 = none ∧ 0 < bits (packetWord (launch 0) 0) 28 27 ∧ skipping.mem.nextFrame + 64 ≤ skipping.mem.capacity ∧ mayDispatch skipping 2 = true ∧ (findPlace skipping 2).isSome = true ∧ (skipping.node 2).saved = false := by
  decide

/-- The launch runs on tile 0 under a gang that is placed; loaded and started, its task issues from PC 0 with its segments closed. -/
theorem test_launch_results :
    after (exec .dispatchStep idle) (fun t => decide ((t.node 2).life = .running ∧ (t.gang (t.node 2).gid).life = .placed ∧ t.lk.order = [])) = true ∧
    after (exec (.gangStart { gid := 1, image := [(0xFFFFF, [7, 9])] }) (placedAs .loaded)) (fun t => decide ((t.tile 0).ctl.status = .running ∧
      (t.tile 0).ctl.pc = 0 ∧ (t.gang 1).life = .started ∧ (t.tile 0).staging.bytes 0xFFFFF 2 = [7, 9])) = true := by decide

/-! ### Witnesses: system software -/

/-- A word for LKCMD (Table 12.10). -/
def lkWord (op level pasid id : Nat) : BitVec 64 := BitVec.ofNat 64 (op * 2 ^ 56 + level * 2 ^ 52 + pasid * 2 ^ 32 + id)

/-- `one` with node 1 changed. -/
def nodeIs (f : Node → Node) : State := one.mapNode 1 f

theorem test_accepted :
    Accepted 1 [3] 0 (lkWord 1 3 1 0) one ∧ Accepted 1 [4] 0 (lkWord 1 4 1 0) one ∧ Accepted 1 [1] 12 (lkWord 1 1 1 4095) one ∧
    Accepted 1 [0] 28 (lkWord 1 0 1 (1 + 65535 * 2 ^ 12)) one ∧ Accepted 2 [1] 12 (lkWord 2 1 1 1) one ∧ Accepted 3 [3] 0 (lkWord 3 3 1 0) one ∧ Accepted 3 [4] 0 (lkWord 3 4 1 0) one ∧
    Accepted 3 [1] 12 (lkWord 3 1 1 1) one ∧ Accepted 4 (List.range 16) 8 (lkWord 4 15 1 255) one ∧
    Accepted 5 (List.range 16) 12 (lkWord 5 0 1 4095) one ∧ Accepted 6 [1] 12 (lkWord 6 1 1 1) one ∧ Accepted 7 [4] 0 (lkWord 7 4 1 0) one ∧
    Accepted 8 [4] 0 (lkWord 8 4 1 0) one ∧ Accepted 9 (List.range 16) 32 (lkWord 9 0 1 0xFFFFFFFF) one ∧
    Accepted 10 (List.range 16) 32 (lkWord 10 0 1 0) one ∧ Accepted 11 (List.range 16) 32 (lkWord 11 0 1 0) one := by
  unfold Accepted
  refine ⟨?_, ?_, ?_, ?_, ?_, ?_, ?_, ?_, ?_, ?_, ?_, ?_, ?_, ?_, ?_, ?_⟩ <;> decide

/-- A job whose queues are all out of its table. -/
theorem test_noQueue : (∀ e ∈ one.lk.threads, e.2.act = .unmapped) ∧ ∀ q e a, q < 256 → walkQueue one 1 q ≠ .found e a := by
  refine ⟨by decide, fun q e a _ => ?_⟩
  unfold walkQueue
  rw [if_neg (by decide), if_pos (by decide)]
  nofun

/-- What the clauses of the commands ask of node, gang and job, beside an accepted word. -/
theorem test_commands :
    (one.node 1).owner = some 1 ∧ (one.node 4095).owner ≠ some 1 ∧ (one.node 1).life = .running ∧ (one.node 1).saved = false ∧
    (one.gang (one.node 1).gid).life = .started ∧ (one.gang 1).held = false ∧ Safety.wf one = true ∧
    (let s := nodeIs fun x => { x with life := .free }
     (s.node 1).owner = some 1 ∧ (s.node 1).life = .free ∧ s.lk.cancels.length < 64 ∧
      64 ≤ (s.mapLk fun l => { l with cancels := List.replicate 64 (1, 2, 0) }).lk.cancels.length) ∧
    (let s := nodeIs fun x => { x with life := .waiting, packet := launch 0, edges := [{
        src := 2, early := false, pass := false, satisfied := false, blocked := true, final := true }] }
     (s.node 1).life = .waiting ∧ 0 < taskCount (s.node 1) ∧ (s.node 1).edges.any Edge.blocked = true) ∧
    (let s := trappedAs 0 0
     (s.node 1).owner = some 1 ∧ resumable s 1 = true ∧ (s.gang 1).causes = [.trap] ∧ resumable one 1 = false) ∧
    ((one.job 1).phaseLeft = 0 ∧ placedGangs one 1 = [1] ∧ ((one.mapJob 1 fun j => { j with phaseLeft := 1 }).job 1).phaseLeft ≠ 0) ∧
    (walkQueue one 1 255 = .discarded ∧ walkQueue queues 1 3 ≠ .discarded ∧ walkQueue queues 1 3 ≠ .outside) ∧
    (let s := nodeIs fun x => { x with life := .waiting, packet := launch 0 }
     (s.node 1).owner = some 1 ∧ hasTask s 1 0 = true) ∧
    (let s := (owning (threadIn .packet ((launch 3).set 5 (BitVec.ofNat 64 (3 * 2 ^ 48))))).mapNode 1 fun x => { x with life := .free }
     Safety.wf s = true ∧ (∀ e ∈ s.lk.nodes, e.2.owner = some 1 → e.2.life = .free) ∧ launchError s (threadAt s 31) = 0 ∧
      (∀ e ∈ s.lk.threads, e.2.act = .packet → e.2.pasid = 1 → e.1 = 31) ∧ recordSpace 1 3 = some .queueSram ∧
      there s .queueSram 0 32) ∧
    (let s := one.mapJob 1 fun j => { j with gen := 1, gens := [{ drains with state := .drained }] }
     (s.job 1).gens.find? (fun y => y.num == 0 && (s.job 1).knows y) = some { drains with state := .drained } ∧ (s.job 1).restoring ≠ some 0 ∧
      (∀ y ∈ (s.job 1).gens, y.num ≠ 0xFFFFFFFF) ∧ placedGangs { s with gangs := [] } 1 = []) ∧
    (one.job 1).gens.find? (fun y => y.num == (one.job 1).gen && (one.job 1).knows y) = none := by decide

/-- A job cancel of a job with nothing queued, placed or running; of one whose thread holds the only launch; and of one whose only launch stands in a
ring, for which a record is written and the slot cleared (Table 2.3). -/
theorem test_jobCancel :
    (let s := nodeIs fun x => { x with life := .counted }
     (∀ e ∈ s.lk.nodes, e.2.owner = some 1 → e.2.life = .free ∨ e.2.life = .counted) ∧ (jobCounter s 1).1 = 0) ∧
    (jobCounter one 1).1 ≠ 0 ∧
    (let p := (launch 3).set 5 (BitVec.ofNat 64 (3 * 2 ^ 48 + 0x400))
     let held := (owning (threadIn .packet p)).mapNode 1 fun x => { x with life := .free }
     let s := (poke .queueSram (p.zipIdx.map fun x => (8 * x.2, x.1.toNat)) (owning (threadIn .taking []))).mapNode 1 fun x => { x with life := .free }
     ((jobCounter held 1).1 = 1 ∧ (jobQueued held 1).1 = []) ∧
     Safety.wf s = true ∧ s.mem.unfenced = [] ∧ (∀ e ∈ s.lk.nodes, e.2.owner = some 1 → e.2.life = .free) ∧
      (∀ e ∈ s.lk.threads, e.2.act ≠ .packet) ∧ (jobQueued s 1).1 = [(0x4000, 0)] ∧ ringSlot s 0x4000 0 = 0 ∧
      (List.range 15).map (fun k => wordAt s .queueSram (0 + 8 * k)) = p ∧ launchError s { qcb := 0x4000, packet := p } = 0 ∧
      after (exec (.lkcmdCancel (lkWord 1 4 1 0)) s) (fun t => decide
        (wordAt t .queueSram 0x400 = BitVec.ofNat 64 (2 + 2 * 2 ^ 5 + 2 ^ 7) ∧ wordAt t .queueSram 0 = 0 ∧ t.lk.threads.isEmpty = true)) = true) := by
  decide +kernel

/-- READ of a running launch gives the tasks left; RESUME of a gang held by a breakpoint resumes it 16 cycles later (R38, R279, R287). -/
theorem test_command_results :
    after (exec (.lkcmdRead (lkWord 3 1 1 1)) one) (fun t => t.lk.res == 0x8000000000000001) = true ∧
    after (exec (.lkcmdResume (lkWord 6 1 1 1)) (trappedAs 0 0)) (fun t =>
      decide ((t.gang 1).resumeAt = some 36 ∧ (t.gang 1).signalled = false ∧ t.core.ctl.trap = none)) = true ∧
    after (exec (.lkcmdUnassigned (lkWord 12 0 0 0)) one) (fun t => t.lk.err == 4) = true := by decide

/-- READ of a job counts its launch that runs, the one that a thread holds and the one published in the ring (Table 2.1). -/
theorem test_readJob : after (exec (.lkcmdRead (lkWord 3 4 1 0)) (poke .queueSram [(0, 1)] (threadIn .packet (launch 3)))) (fun t =>
    t.lk.res == 0x8000000000000003) = true := by decide +kernel

/-- A launch packet that meets a pending cancel: its record reads STATE 2, VERD 2 and CANC 1, and the launch does not run (R280). -/
theorem test_pendingCancel :
    let s := (owning (threadIn .packet ((launch 3).set 5 (BitVec.ofNat 64 (3 * 2 ^ 48 + 0x400))))).mapLk fun l => { l with cancels := [(1, 9, 0), (1, 2, 0)] }
    Safety.wf s = true ∧ launchError s (threadAt s 31) = 0 ∧ s.mem.unfenced = [] ∧
    s.lk.cancels.find? (fun c => c.1 == qPasid s (threadAt s 31).qcb && c.2.1 == 2) = some (1, 2, 0) ∧ there s .queueSram 0x400 32 ∧
    after (exec (.launchPacket 31) s) (fun t => decide (t.lk.cancels = [(1, 9, 0)] ∧ (t.node 2).life = .free ∧ tget none (t.node 2).last 1 = some .tainted ∧
      wordAt t .queueSram 0x400 = 194 ∧ (threadAt t 31).act = .taking ∧ t.lk.order = [])) = true := by decide +kernel

/-- A launch over three edges: an early edge of a launch that is early done, a late one of a source that ended tainted, and the same under pass (R35, R275). -/
theorem test_edges :
    let p := (((launch 3).set 0 ((launch 3).headD 0 + BitVec.ofNat 64 (3 * 2 ^ 44))).set 7 (BitVec.ofNat 64 (2 ^ 12 + 3))).set 8 4
    let s := ((owning (threadIn .packet (p.set 9 (BitVec.ofNat 64 (2 ^ 13 + 4))))).mapNode 3 fun x => { x with owner := some 1, life := .running, earlyDone := true }).mapNode
      4 fun x => { x with owner := some 1, last := [(1, some .tainted)] }
    launchError s (threadAt s 31) = 0 ∧ after (exec (.launchPacket 31) s) (fun t => decide ((t.node 2).life = .waiting ∧
      (t.node 2).edges.map (fun e => (e.src, e.satisfied, e.blocked)) = [(3, true, false), (4, false, true), (4, true, false)])) = true := by decide +kernel

/-- Words of a level or with an ID that Table 12.10 does not give, and words that name no job: STATUS 5 and 3 (R279). -/
theorem test_refused : [(Instr.lkcmdRelease (lkWord 2 0 1 0), 5), (.lkcmdRelease (lkWord 2 1 1 4096), 5), (.lkcmdCancel (lkWord 1 4 1 1), 5),
      (.lkcmdReplan (lkWord 7 4 0xFFFFF 0), 3), (.lkcmdAssign (lkWord 5 15 2 4095), 3)].all
    (fun c => after (exec c.1 one) fun t => decide (t = answered one c.2 0)) = true ∧ (one.job 0xFFFFF).live = false := by decide +kernel

/-- Cancels: of a graph whose launch runs, of a launch that is ready, and of one that is placed and not started; and the counter of a task that runs
(Table 2.1, Table 2.3). -/
theorem test_cancels : Accepted 1 [2] 12 (lkWord 1 2 1 1) one ∧ Accepted 3 [0] 28 (lkWord 3 0 1 1) one ∧ hasTask one 1 0 = true ∧ (one.gang 1).firstTix = 0 ∧
    one.saved = [] ∧ (one.tile 0).task.complete = false ∧
    after (exec (.lkcmdCancel (lkWord 1 2 1 1)) one) (fun t => decide ((t.node 1).canceled = true ∧ .cancel ∈ (t.gang 1).causes)) = true ∧
    (let s := nodeIs fun x => { x with life := .ready, packet := (launch 0).set 5 (BitVec.ofNat 64 (3 * 2 ^ 48)) }
     Safety.wf s = true ∧ after (exec (.lkcmdCancel (lkWord 1 1 1 1)) s) (fun t => decide ((t.node 1).life = .free ∧ wordAt t .queueSram 0 = 194 ∧
       wordAt t .queueSram 8 = 0)) = true) ∧
    (let s := (placedAs .placed)
     (s.node 1).life = .running ∧ after (exec (.lkcmdCancel (lkWord 1 1 1 1)) s) (fun t => decide ((t.node 1).life = .free ∧ (t.gang 1).life = .none)) = true) ∧
    after (exec (.lkcmdRead (lkWord 3 0 1 1)) one) (fun t => t.lk.res == lkres 0 1) = true := by
  unfold Accepted; decide +kernel

/-- Release of a drained generation gives its frames back, and a draining one is refused; a restore with a gang placed is refused (R239). -/
theorem test_generations :
    (let s := one.mapJob 1 fun j => { j with gen := 1, gens := [{ drains with state := .drained, runs := [(40, 2)], copies := [(3, 50)] }] }
     Safety.wf s = true ∧ after (exec (.lkcmdGenrelease (lkWord 10 0 1 0)) s) (fun t => decide (t.mem.freed.map Prod.fst = [40, 50] ∧
       (t.job 1).gens.map Gen.state = [.released])) = true ∧
     after (exec (.lkcmdGenrestore (lkWord 11 0 1 0)) s) (fun t => t.lk.res == lkres 1 0) = true ∧
     after (exec (.lkcmdGenaddr (lkWord 9 0 1 0)) s) (fun t => t.lk.res == lkres 0 64) = true) ∧
    (let s := one.mapJob 1 fun j => { j with gen := 1, gens := [drains] }
     after (exec (.lkcmdGenrelease (lkWord 10 0 1 0)) s) (fun t => t.lk.res == lkres 1 0) = true) := by decide +kernel

/-- Frames that were given back are allocated again (R53). -/
theorem test_allocatesFreed : let m := ({ one.mem with nextFrame := one.mem.capacity }).giveBack 40 2
    m.room 65536 = true ∧ (m.allocate 65536).1 = 40 * 65536 ∧ ({ one.mem with nextFrame := one.mem.capacity }).room 65536 = false := by decide +kernel

/-- With an empty flash no marker verifies, and the boot sequence ends in recovery (R304, R306); the later phases follow one by one. -/
theorem test_boot : State.reset.platform.phase = 1 ∧ bootChoice State.reset.platform = none ∧
    after (step State.reset) (fun t => t.platform.phase == 7) = true ∧
    after (step { State.reset with platform := { phase := 3 } }) (fun t => t.platform.phase == 4 && t.grade 3 == 0) = true := by
  decide

/-- A sensor of 86 degrees gives its quadrant alone grade 1, and a bank of an idle tile then an RDUE of at most 4,096 (R146, R147). -/
theorem test_trains : (let ds := List.replicate 255 20 ++ [86]
    gradeBand (hottestOf ds 3) = 1 ∧ gradeBand (hottestOf ds 0) = 0) ∧
    (bankAt (regrade 8192 4096 (State.reset.select 255)) 63).due = 4096 := by decide +kernel

/-- SHAKE256 of the empty string begins 46 B9 DD 2B (FIPS 202's example value). -/
theorem test_shake : (shake256 []).take 4 = [0x46#8, 0xB9#8, 0xDD#8, 0x2B#8] := by decide +kernel

/-- Registers in phase 5, and a word for PLCMD. -/
theorem test_registers : booted.platform.phase = 5 ∧ (BitVec.ofNat 64 1).toNat % 256 = 1 ∧ (BitVec.ofNat 64 0x100).toNat % 256 ≠ 1 ∧
    after (exec (.registerWrite 0x1000 8 0xFFFFFFFFFFFFFFFF) one) (fun t => t.lk.qtroot == 0xFFFFFF000000) = true ∧
    after (exec (.registerWrite 0x1018 8 2) (one.mapLk fun l => { l with err := 7 })) (fun t => t.lk.err == 5) = true := by decide

/-- Reads: BOOTST in phase 5, THERM of a sensor at 106, LKCMD and an unaligned access zero (Tables 12.9 and 14.3, R6, R256). -/
theorem test_registerReads : readBar0 booted 0x2000 8 = 5 ∧
    readBar0 { booted with platform := { phase := 5, hottest := [(1, 106)], grades := [(1, 2)] } } 0x2008 8 = 0x6A060000#64 ∧
    readBar0 booted 0x1008 8 = 0 ∧ readBar0 booted 0x2000 4 = 0 ∧ readBar0 booted 0x2004 8 = 0 := by decide

/-- Grades at the limits of Table 6.7: up at once, down by one band with the sixteenth sample two degrees below it (R309). -/
theorem test_grades : gradeStep 0 3 85 = (0, 0) ∧ gradeStep 0 3 86 = (1, 0) ∧ gradeStep 0 0 96 = (2, 0) ∧ gradeStep 2 15 93 = (1, 0) ∧
    gradeStep 2 14 93 = (2, 15) ∧ gradeStep 2 15 94 = (2, 0) := by decide

/-- A sample is taken when it is due; throttling above 1,850 W, shares at and below their least values; a watchdog after 2^24 cycles. -/
theorem test_platform :
    Safety.wf one = true ∧ platformRuns one = true ∧ mmpRuns one = true ∧ one.clock < one.platform.sampleAt ∧
    (let s := { one with clock := 65536 }
     Safety.wf s = true ∧ platformRuns s = true ∧ s.platform.sampleAt ≤ s.clock ∧
      after (exec (.temperatureSample [85]) s) (fun t => t.grade 0 == 0 && t.platform.sampleAt == 131072) = true) ∧
    after (exec (.temperatureSample [86]) one) (fun t => t.grade 0 == 0) = true ∧
    (let s := { threadIn .taking [] with platform := { phase := 5, halves := 2 ^ 26 } }
     controlRuns s = true ∧ (threadAt s 31).act = .taking ∧ (threadAt s 31).ridx < (threadAt s 31).kick ∧
      (threadAt s 31).servedAt + 2 ^ 26 ≤ s.platform.halves) ∧
    after (exec (.throttleStep 1851 0) one) (fun t => t.platform.throttle == 1) = true ∧
    after (exec (.throttleStep 1850 2000) one) (fun t => t.platform.throttle == 0) = true ∧
    after (exec (.shareSetting 0 [8, 2, 54]) one) (fun t => tget [] t.fabric.shares 0 == [8, 2, 54]) = true ∧
    after (exec (.shareSetting 0 [7, 2, 54]) one) (fun t => decide (t = one)) = true := by decide

/-- Enough half-periods pass for any count of cycles of the MMP's clock, whatever its rate. -/
theorem mmpCycles_reach (n : Nat) : Config.mmpCycles 0 + n ≤ Config.mmpCycles (n * (Config.mmpRate.2 + 1)) := by
  unfold Config.mmpCycles
  rw [Nat.zero_mul, Nat.zero_div, Nat.zero_add, Nat.le_div_iff_mul_le (Nat.succ_pos _), Nat.mul_assoc]
  exact Nat.mul_le_mul_left n (Nat.le_mul_of_pos_right _ (Nat.succ_pos _))

/-- A device whose tile 0 has a miss, after a number of half-periods. -/
def missing (h : Nat) : State := { (bargeOf load1).mapBarge fun b => { b with misses := [0] } with platform := { phase := 5, halves := h } }

/-- A core of the MMP that has served no miss for 2^24 of its cycles. -/
theorem test_coreWatchdog : mmpRuns (missing (2 ^ 24 * (Config.mmpRate.2 + 1))) = true ∧ Config.mmpCore 0 % 4 < 4 ∧
    ((missing 0).tile 0).barge.misses ≠ [] ∧ (missing 0).platform.coreServed = [] ∧
    Config.mmpCycles 0 + 2 ^ 24 ≤ Config.mmpCycles (missing (2 ^ 24 * (Config.mmpRate.2 + 1))).platform.halves :=
  ⟨rfl, Nat.mod_lt _ (by decide), by decide, rfl, mmpCycles_reach _⟩

/-! ### Witnesses: edges, victims and generations -/

/-- Node 1 with a life and a verdict, nodes 2 and 3 waiting on it over one edge each. -/
def depending (early pass : Bool) (x : Node) : State :=
  let e : Edge := { src := 1, early := early, pass := false, satisfied := false, blocked := false, final := false }
  let w : Node := { owner := some 1, life := .waiting, packet := launch 0, edges := [e] }
  (ctlAt 9 fun c => { c with status := .ended }).mapLk fun l => { l with nodes := [(1, x), (2, w), (3, { w with edges := [{ e with pass := pass }] })] }

/-- The last task of a source triggers as it completes: both dependants are ready. A tainted record blocks a late edge under hold and satisfies one
under pass (R34, R35). -/
theorem test_dependants :
    (let s := depending true false (one.node 1)
     Safety.wf s = true ∧ taskDue s = true ∧ s.core.task.triggered = false ∧ (s.node 1).untriggered = 1 ∧ (s.node 1).life = .running ∧
      (s.gang s.core.task.gid).reissue = false ∧
      after (exec (.taskComplete 0) s) (fun t => decide ((t.node 2).life = .ready ∧ (t.node 3).life = .ready ∧ t.lk.order = [2, 3])) = true) ∧
    (let s := depending false true { one.node 1 with life := .counted, verdict := .tainted }
     Safety.wf s = true ∧ recordDue s 1 = true ∧ after (exec (.launchCompletionRecord 1) s) (fun t =>
      decide ((t.node 2).edges.map Edge.blocked = [true] ∧ (t.node 2).life = .waiting ∧ (t.node 3).life = .ready ∧ t.lk.order = [3])) = true) := by
  decide +kernel

/-- A pinned launch of base priority 3 on tile 0 pre-empts the gang that stands there, when its job permits it; a reserved one keeps the
tile from the other (R49, R50). -/
theorem test_victims : let s (may : Bool) := (skipping.mapJob 1 fun j => { j with preemptible := may }).mapNode 3 fun x =>
      { x with packet := (launch 3).map (fun w => if w = (launch 3).headD 0 then w + 64 else w), reserved := true }
    Safety.wf (s true) = true ∧ victims (s true) 3 = [1] ∧ victims (s false) 3 = [] ∧ victims (s true) 2 = [] ∧
    originFits ((s true).node 3).packet (0, 0) ∧ (∀ q ∈ (s true).lk.order, ((s true).node q).reserved = true → q = 3) ∧ keptFrom (s true) 2 0 = true ∧
    keptFrom (s true) 2 1 = false := by
  unfold originFits; decide +kernel

/-- A frame that a retained generation shares is copied before the first write to it after a cut, by a flit of 240 bytes of zeros (R230). -/
theorem test_copyOnWrite : let s := ((owning one).mapJob 1 fun j => { j with gen := 1, cuts := 1, gens := [drains] }).mapMem fun m =>
      { m with frames := [(1, (2, 0))], res := [(65537, 9)] }
    let w : FlitWrite := { space := .reservoir, addr := 65536, bytes := [7] }
    Safety.wf s = true ∧ s.platform.phase = 5 ∧ tget (0, 0) s.mem.frames 1 = (1 + 1, 0) ∧ (s.job 1).cuts = 1 ∧ s.mem.room 65536 = true ∧
    65536 * 1 ≤ w.addr ∧ w.addr + w.bytes.length ≤ 65536 * (1 + 1) ∧ 1 < s.mem.capacity ∧
    (let t := s.writeSpace .reservoir w.addr w.bytes
     let copy := (s.mem.allocate 65536).1
     (t.job 1).gens.map Gen.copies = [[(1, copy / 65536)]] ∧ bytesAt t .reservoir copy 2 = [0, 9] ∧ bytesAt t .reservoir 65536 2 = [7, 9]) := by
  decide +kernel

/-- A drained generation with the image of one tile, all of which is there, and with an image that is not (R239). -/
theorem test_restores : let x (tab : Nat) : Gen := { drains with state := .drained, images := [(0, { vpl := 2, imgtab := tab })], copies := [(3, 50)] }
    let s (tab : Nat) := (poke .reservoir [(0x100, 5), (0x108, 9), (0x110, 11), (0x208, 2 ^ 40)] one).mapJob 1 fun j =>
      { j with gen := 1, cuts := 1, restoring := some 0, parts := [(0, (0, 2))], gens := [x tab] }
    Safety.wf (s 0x100) = true ∧ (drainJob (s 0x100) 1).isSome = true ∧
    (∀ m, m < 3 → bits (wordAt (s 0x100) .reservoir (0x100 + 8 * m)).toNat 47 0 < one.mem.capacity) ∧ (s 0x100).mem.marks = [] ∧
    faults (exec (.genrestoreComplete 1 0) (s 0x200)) = true := by decide +kernel

/-! ### Results: the manual's worked examples, and boundary values worked out by hand -/

/-- A vetted state with scalar and vector registers. -/
def withRegs (xs : List (Nat × Scalar)) (vs : List (Nat × Row)) : State := ready.mapRegs fun r => { r with s := xs, v := vs }

/-- The effects that a word queues. -/
def effects (i : Instr) (s : State) : List (Nat × Effect) :=
  match exec i s with
  | .next t => t.core.results.map fun r => (r.ready, r.eff)
  | _ => []

/-- A word queues a scalar as its first effect. -/
def gives (i : Instr) (s : State) (lat : Nat) (x : Scalar) : Bool :=
  match effects i s with
  | (n, .scalar _ y _) :: _ => n == lat && x == y
  | _ => false

/-- `ADD` wraps (R350); `MAX.u` and `MAX.s` of -1 and 1 (the example after R384); `MULH` of -1 and 1; `SHL` by 64 and `SRA` by 70 (R414). -/
theorem test_scalars :
    let s := withRegs [(1, 0xFFFFFFFFFFFFFFFF), (2, 1), (3, 64), (4, 70), (5, 0x8000000000000000)] []
    (gives (.add 9 1 2 0) s 1 0 && gives (.maxS 9 1 2 0 0) s 1 0xFFFFFFFFFFFFFFFF && gives (.maxS 9 1 2 1 0) s 1 1 &&
      gives (.mulh 9 1 2 0) s 3 0xFFFFFFFFFFFFFFFF && gives (.mulhu 9 1 2 0) s 3 0 && gives (.shl 9 2 3 0) s 1 0 &&
      gives (.sra 9 5 4 0) s 1 0xFFFFFFFFFFFFFFFF && gives (.clz 9 0 0) s 1 64 && gives (.ffs 9 0 0) s 1 64 && gives (.popc 9 1 0) s 1 64 &&
      gives (.lih 2 0x1FFFF 0) s 1 0x3FFFF && gives (.li 9 0x10000 0) s 1 0xFFFFFFFFFFFF0000) = true := by decide

/-- Signalling and quiet NaNs of an f32 operation, in both orders (the example after R91). -/
theorem test_nans : addF 0 (fmtOf 1) 0xFFA00001 0x7FC00005 = (0xFFE00001, fINV) ∧
    addF 0 (fmtOf 1) 0x7FC00005 0xFFA00001 = (0x7FC00005, fINV) := by decide

/-- 0.75·2^-24 in f16 under RNE and RTZ (the examples after R95 and R113); 3.0 by -5 is exact. -/
theorem test_scale : scaleF (fmtOf 2) 0 0x3E00 (-25) = (1, fUFL ||| fINX) ∧ scaleF (fmtOf 2) 1 0x3E00 (-25) = (0, fUFL ||| fINX) ∧
    scaleF (fmtOf 1) 0 0x40400000 (-5) = (0x3DC00000, 0) := by decide

/-- f32 200.0 and 119.0 to f8e4 (the example after R98). -/
theorem test_toF8 : convertScaled (fmtOf 1) (fmtOf 4) 0 false 0 0x43480000 = (0x78, fOFL ||| fINX) ∧
    convertScaled (fmtOf 1) (fmtOf 4) 0 true 0 0x43480000 = (0x77, fOFL ||| fINX) ∧
    convertScaled (fmtOf 1) (fmtOf 4) 0 false 0 0x42EE0000 = (0x77, fINX) := by decide

/-- Exponents and fractions of 3.0, 40.0 and -0.75 (the example after R113). -/
theorem test_exponents : (expSplit (fmtOf 1) false 0x40400000, expSplit (fmtOf 1) false 0x42200000, expSplit (fmtOf 1) false 0xBF400000) =
      ((1, 0), (5, 0), (0xFFFFFFFF, 0)) ∧
    (expSplit (fmtOf 1) true 0x40400000, expSplit (fmtOf 1) true 0x42200000, expSplit (fmtOf 1) true 0xBF400000) =
      ((0x3FC00000, 0), (0x3FA00000, 0), (0xBFC00000, 0)) := by decide

/-- An f32 element of 2^24 and a beat of 48 products 1.0 × 0.5 give 16,777,240 with no flag (the example after R104). -/
theorem test_maccRounding : columnValue 2 0 false 0x4B800000 48 (BitVec.ofNat 768 (ofElems 2 (List.replicate 48 0x3C00)))
    (BitVec.ofNat 768 (ofElems 2 (List.replicate 48 0x3800))) = (0x4B80000C, 0) := by decide

/-- Element (260, 130) of a (300, 200) f16 tensor of tile shape (256, 128) lies in frame 3 at byte 1,032 (the example after R181). -/
theorem test_place : placeOf { live := true, fmt := 2, shape := [300, 200], tile := [256, 128] } [260, 130] = (3, 1032) := by decide

/-- `MTS AWB` of 0x905 sets AWB to 261 (the example after R387). -/
theorem test_awb : (landEffect ready (.special 0x0A 0x905)).core.ctl.awb = 261 := by decide

/-- `LDV` at 0xF_FFE0 reads 0xF_FFE0 to 0xF_FFFF and then 0x0 to 0x3F (the example after R379). -/
theorem test_ldvWraps : after (exec (.ldv 1 2 0 0) ((withRegs [(2, 0xFFFE0)] []).mapStaging fun t => { t with cells := [(0, 7), (0xFFFFF, 9)] }))
    (fun t => (t.core.results.head?.map fun r => r.eff) == some (.vector 1 (BitVec.ofNat 768 (9 * 2 ^ 248 + 7 * 2 ^ 256)) false)) = true := by decide

/-- The third arrival at b5 completes its phase on clock 1,410, and its waiters issue on clock 1,434 (the example after R33). -/
theorem test_barrier : after (exec (.arrb 5 3 0) { (gangAt 1410 fun g => { g with
      barriers := [(5, { need := 3, arrived := 2 })] }) with vetted := true })
    (fun t => decide ((t.gang 1).releases = [(5, 0, 1434)])) = true := by decide

/-- Word 0 of the launch packet in the example of R268: floating, priority 2, 4 × 2 tiles, one variant, node 17. -/
theorem test_launchWord : let p : List Scalar := [0x0000001108001321]
    packetType p = 1 ∧ bits (pword p 0) 5 4 = 2 ∧ bits (pword p 0) 6 6 = 0 ∧ bits (pword p 0) 11 8 + 1 = 4 ∧ bits (pword p 0) 15 12 + 1 = 2 ∧
    variantCount p = 1 ∧ packetNode p = 17 := by decide

/-- `VADD.i8` saturates at 127 and wraps to -128 (R96). -/
theorem test_saturates : narrow true true 8 (127 + 1) = 127 ∧ narrow false true 8 (127 + 1) = 128 ∧ narrow true false 8 (0 - 1) = 0 := by decide

/-- `ACT` of a bank at clock 0: the column may be read from cycle 30 on, a precharge from cycle 68 on (Table 6.3). -/
theorem test_act : after (exec (.act 1 2 0 0) { one with vetted := true })
    (fun t => decide ((bankAt t 18).mode = .active ∧ (bankAt t 18).colAt = 30 ∧ (bankAt t 18).preAt = 68)) = true := by decide

/-- A stream of class 0 and length 1,024 holds as many ones as the count it stands for, in the order of its class (R158). -/
theorem test_gen : gen 0 10 0 = 0 ∧ gen 0 10 1 = 512 ∧ gen 0 10 2 = 256 ∧ gen 0 10 3 = 768 := by decide

/-- `SEND` puts the row into the router on the next cycle (R245). -/
theorem test_send : after (exec (.send 5 1 0) (withRegs [] [(1, 77)])) (fun t =>
    decide (t.flights.map (fun f => (f.route, f.row, f.enters)) = [(5, 77, 1)])) = true := by decide

end Sys2Proof.Tests
end

section
/-! PROOFS. The vault's refresh due times under a change of grade, and the training step of the boot sequence (R146, R147, R300). -/

namespace Sys2Proof.Machine

/-! ### Banks of the tile checked out -/

/-- A tile goes over to one in which no bank is due later than `limit` that was not, and nothing but the banks changes. -/
structure Rebanked (limit : Nat) (t u : Tile) : Prop where
  only : ∃ bs, u = { t with vault := { t.vault with banks := bs } }
  wf : twf {} t.vault.banks = true → twf {} u.vault.banks = true
  kept : twf {} t.vault.banks = true → ∀ b, (tget {} t.vault.banks b).due ≤ limit → (tget {} u.vault.banks b).due ≤ limit

theorem Rebanked.refl (limit : Nat) (t : Tile) : Rebanked limit t t := ⟨⟨_, rfl⟩, id, fun _ _ h => h⟩

theorem Rebanked.trans {limit : Nat} {t u v : Tile} (h : Rebanked limit t u) (k : Rebanked limit u v) : Rebanked limit t v where
  only := by
    obtain ⟨bs, rfl⟩ := h.only
    obtain ⟨cs, rfl⟩ := k.only
    exact ⟨cs, rfl⟩
  wf := fun ht => k.wf (h.wf ht)
  kept := fun ht b hb => k.kept (h.wf ht) b (h.kept ht b hb)

theorem Rebanked.regs_eq {limit : Nat} {t u : Tile} (h : Rebanked limit t u) : u.regs = t.regs := by
  obtain ⟨bs, rfl⟩ := h.only
  rfl

/-- The state differs in the tile checked out alone, whose banks go over as `Rebanked` says. -/
structure CoreRebanked (limit : Nat) (s t : State) : Prop where
  frame : t = { s with core := t.core }
  core : Rebanked limit s.core t.core

theorem CoreRebanked.refl (limit : Nat) (s : State) : CoreRebanked limit s s := ⟨rfl, .refl limit _⟩

theorem CoreRebanked.trans {limit : Nat} {s t u : State} (h : CoreRebanked limit s t) (k : CoreRebanked limit t u) :
    CoreRebanked limit s u where
  frame := by rw [k.frame, h.frame]
  core := h.core.trans k.core

theorem bankOf_setBank_same (s : State) (n : Nat) (b : Bank) (h : twf {} s.core.vault.banks = true) :
    bankOf (setBank s n b) n = b := tget_tset_same _ _ _ _ h

theorem bankOf_setBank_ne (s : State) (n m : Nat) (b : Bank) (h : m ≠ n) : bankOf (setBank s n b) m = bankOf s m :=
  tget_tset_ne _ _ _ _ _ h

theorem coreRebanked_setBank (limit : Nat) (s : State) (n : Nat) (b : Bank) (hb : b.due ≤ limit) :
    CoreRebanked limit s (setBank s n b) where
  frame := rfl
  core :=
    { only := ⟨_, rfl⟩
      wf := twf_tset _ _ _ _
      kept := fun hwf m hm => by
        show (bankOf (setBank s n b) m).due ≤ limit
        by_cases h : m = n
        · rw [h, bankOf_setBank_same s n b hwf]; exact hb
        · rw [bankOf_setBank_ne s n m b h]; exact hm }

/-- A step on one bank that leaves it due within `interval` and no bank later than that. -/
def BoundsDue (interval : Nat) (f : State → Nat → State) : Prop :=
  ∀ s n, CoreRebanked (s.clock + interval) s (f s n) ∧
    (twf {} s.core.vault.banks = true → (bankOf (f s n) n).due ≤ s.clock + interval)

/-- Such a step taken for each bank of a list leaves every one of them due within the interval. -/
theorem forEach_boundsDue {interval : Nat} {f : State → Nat → State} (hf : BoundsDue interval f) (ns : List Nat) (s : State) :
    CoreRebanked (s.clock + interval) s (forEach s f ns) ∧
      (twf {} s.core.vault.banks = true → ∀ n ∈ ns, (bankOf (forEach s f ns) n).due ≤ s.clock + interval) := by
  induction ns generalizing s with
  | nil => exact ⟨.refl _ s, by simp⟩
  | cons n ns ih =>
    obtain ⟨hstep, hdue⟩ := hf s n
    have hclock : (f s n).clock = s.clock := by rw [hstep.frame]
    obtain ⟨hrest, hlist⟩ := ih (f s n)
    rw [hclock] at hrest hlist
    refine ⟨hstep.trans hrest, fun hwf m hm => ?_⟩
    rcases List.mem_cons.mp hm with rfl | hm
    · exact hrest.core.kept (hstep.core.wf hwf) m (hdue hwf)
    · exact hlist (hstep.core.wf hwf) m hm

theorem boundsDue_reload (interval : Nat) : BoundsDue interval fun s n =>
    let b := bankOf s n
    if s.clock + interval < b.due then setBank s n { b with due := s.clock + interval } else s := by
  intro s n
  by_cases h : s.clock + interval < (bankOf s n).due
  · simp only [if_pos h]
    exact ⟨coreRebanked_setBank _ s n _ le_rfl, fun hwf => by rw [bankOf_setBank_same s n _ hwf]⟩
  · simp only [if_neg h]
    exact ⟨.refl _ s, fun _ => not_lt.mp h⟩

theorem boundsDue_roll (old interval : Nat) : BoundsDue interval fun s n =>
    let b := bankOf s n
    setBank s n { b with due := min (nextDue s.clock old b.due) (s.clock + interval) } := fun s n =>
  ⟨coreRebanked_setBank _ s n _ (min_le_right _ _), fun hwf => by
    rw [bankOf_setBank_same s n _ hwf]; exact min_le_right _ _⟩

/-- After a change of grade every bank of the tile checked out is due within the new interval, and nothing but its banks has changed (R146). -/
theorem regrade_due (old new : Nat) (s : State) :
    CoreRebanked (s.clock + new) s (regrade old new s) ∧
      (twf {} s.core.vault.banks = true → ∀ b, b < 64 → (bankOf (regrade old new s) b).due ≤ s.clock + new) := by
  unfold regrade
  split
  · obtain ⟨hcore, hdue⟩ := forEach_boundsDue (boundsDue_roll old new) (List.range 64) s
    exact ⟨hcore, fun hwf b hb => hdue hwf b (List.mem_range.mpr hb)⟩
  · obtain ⟨hcore, hdue⟩ := forEach_boundsDue (boundsDue_reload new) (List.range 64) s
    exact ⟨hcore, fun hwf b hb => hdue hwf b (List.mem_range.mpr hb)⟩

/-! ### Tiles -/

/-- Every bank of a tile is due by clock `limit`. -/
def DueBy (limit : Nat) (t : Tile) : Prop := ∀ b, b < 64 → (tget {} t.vault.banks b).due ≤ limit

/-- The tables of the tiles, and of the banks of each tile, are in canonical form. -/
def BanksWf (s : State) : Prop := twf {} s.tiles = true ∧ ∀ n, twf {} (s.tile n).vault.banks = true

theorem select_only (s : State) (n : Nat) : ∃ c ts, s.select n = { s with cur := n, core := c, tiles := ts } := by
  unfold State.select
  split
  · next h => subst h; exact ⟨s.core, s.tiles, rfl⟩
  · exact ⟨_, _, rfl⟩

/-- The tiles of `ns` have gone over to a change of grade; no other tile and nothing else has changed. -/
structure TilesRegraded (new : Nat) (ns : List Nat) (s t : State) : Prop where
  frame : ∃ c ts, t = { s with core := c, tiles := ts }
  wf : BanksWf t
  regs : ∀ n, (t.tile n).regs = (s.tile n).regs
  other : ∀ n, n ∉ ns → t.tile n = s.tile n
  due : ∀ n ∈ ns, DueBy (s.clock + new) (t.tile n)

theorem tilesRegraded_nil (new : Nat) (s : State) (h : BanksWf s) : TilesRegraded new [] s s :=
  ⟨⟨_, _, rfl⟩, h, fun _ => rfl, fun _ _ => rfl, by simp⟩

theorem tilesRegraded_onTile (old new : Nat) (s : State) (n : Nat) (h : BanksWf s) :
    TilesRegraded new [n] s (s.onTile n (regrade old new)) := by
  obtain ⟨htiles, hbanks⟩ := h
  obtain ⟨⟨hframe, hcore⟩, hdue⟩ := regrade_due old new (s.select n)
  have hsel : (s.select n).core = s.tile n := select_core s n htiles
  have hclock : (s.select n).clock = s.clock := (select_frame s n).1
  rw [hsel] at hcore hdue
  rw [hclock] at hcore hdue
  have hts : twf {} (regrade old new (s.select n)).tiles = true := by
    rw [hframe]; exact select_tiles_wf s n htiles
  have htile (k : Nat) : (s.onTile n (regrade old new)).tile k =
      if k = n then (regrade old new (s.select n)).core else s.tile k := by
    rw [tile_onTile s n k _ hts, hframe]
    by_cases hk : k = n
    · simp [hk, State.tile, select_cur]
    · rw [if_neg hk, ← tile_select s n k htiles]
      simp [State.tile, select_cur, hk]
  refine ⟨?_, ⟨?_, fun k => ?_⟩, fun k => ?_, fun k hk => ?_, fun k hk => ?_⟩
  · obtain ⟨c, ts, hs⟩ := select_only s n
    obtain ⟨d, us, ht⟩ := select_only (regrade old new (s.select n)) s.cur
    refine ⟨d, us, ?_⟩
    rw [State.onTile, ht, hframe, hs]
  · exact select_tiles_wf _ _ hts
  · rw [htile]; split
    · exact hcore.wf (hbanks n)
    · exact hbanks k
  · rw [htile]; split
    · next hk => rw [hk]; exact hcore.regs_eq
    · rfl
  · rw [htile, if_neg (by simpa using hk)]
  · rw [htile, if_pos (by simpa using hk)]
    exact fun b hb => hdue (hbanks n) b hb

theorem TilesRegraded.cons {new n : Nat} {ns : List Nat} {s t u : State} (hn : n ∉ ns) (h : TilesRegraded new [n] s t)
    (k : TilesRegraded new ns t u) : TilesRegraded new (n :: ns) s u where
  frame := by
    obtain ⟨c, ts, rfl⟩ := h.frame
    obtain ⟨d, us, rfl⟩ := k.frame
    exact ⟨d, us, rfl⟩
  wf := k.wf
  regs := fun m => (k.regs m).trans (h.regs m)
  other := fun m hm => by
    rw [List.mem_cons, not_or] at hm
    rw [k.other m hm.2, h.other m (by simpa using hm.1)]
  due := fun m hm => by
    rcases List.mem_cons.mp hm with rfl | hm
    · rw [k.other m hn]; exact h.due m (by simp)
    · obtain ⟨c, ts, ht⟩ := h.frame
      have := k.due m hm
      rwa [ht] at this

/-- A change of grade, taken on each tile of a list that `p` picks. -/
theorem tilesRegraded_foldl (old new : Nat) (p : Nat → Prop) [DecidablePred p] (ns : List Nat) (hns : ns.Nodup) (s : State)
    (h : BanksWf s) : TilesRegraded new (ns.filter fun n => decide (p n)) s
      (ns.foldl (fun s n => if p n then s.onTile n (regrade old new) else s) s) := by
  induction ns generalizing s with
  | nil => exact tilesRegraded_nil new s h
  | cons n ns ih =>
    obtain ⟨hn, hns⟩ := List.nodup_cons.mp hns
    by_cases hp : p n
    · have hone := tilesRegraded_onTile old new s n h
      simp only [List.foldl_cons, if_pos hp, List.filter_cons, decide_eq_true hp, if_true]
      exact hone.cons (fun hm => hn (List.mem_filter.mp hm).1) (ih hns _ hone.wf)
    · simp only [List.foldl_cons, if_neg hp, List.filter_cons, decide_eq_false hp, Bool.false_eq_true, if_false]
      exact ih hns s h

/-! ### Grades of quadrants -/

/-- The tiles of a quadrant. -/
def quadrantTiles (q : Nat) : List Nat := (List.range Config.tiles).filter fun n => decide (quadrantOf n = q)

theorem mem_quadrantTiles (q n : Nat) : n ∈ quadrantTiles q ↔ n < 256 ∧ quadrantOf n = q := by
  simp [quadrantTiles, Config.tiles]

/-- The state with another grade noted for a quadrant. -/
def noteGrade (s : State) (q g : Nat) : State := s.mapPlatform fun p => { p with grades := tset 0 p.grades q g }

theorem setGrade_eq (s : State) (q g : Nat) : setGrade s q g =
    if g = s.grade q then noteGrade s q g
    else (List.range Config.tiles).foldl (fun t n =>
      if quadrantOf n = q then t.onTile n (regrade (Config.refreshInterval (s.grade q)) (Config.refreshInterval g)) else t)
      (noteGrade s q g) := rfl

/-- What setting a quadrant's grade does: its grade is noted, and with a change every bank of its tiles is due within the new interval
(R146, R147). -/
theorem setGrade_regrades (s : State) (q g : Nat) (h : BanksWf s) :
    TilesRegraded (Config.refreshInterval g) (if g = s.grade q then [] else quadrantTiles q) (noteGrade s q g) (setGrade s q g) := by
  rw [setGrade_eq]
  split
  · exact tilesRegraded_nil _ _ h
  · exact tilesRegraded_foldl _ _ (fun n => quadrantOf n = q) _ List.nodup_range _ h

/-- The training of one quadrant: its grade and its hottest sensor. -/
def trainQuadrant (ds : List Nat) (s : State) (q : Nat) : State :=
  (setGrade s q (gradeBand (hottestOf ds q))).mapPlatform fun p => { p with hottest := tset 0 p.hottest q (hottestOf ds q) }

/-- The quadrants of `qs` are trained with the temperatures `ds`; no register, no tile of another quadrant and nothing else has changed. -/
structure Trained (ds qs : List Nat) (s t : State) : Prop where
  frame : ∃ c ts gs hs, t = { s with core := c, tiles := ts, platform := { s.platform with grades := gs, hottest := hs } }
  banksWf : BanksWf t
  gradesWf : twf 0 t.platform.grades = true ∧ twf 0 t.platform.hottest = true
  regs : ∀ n, (t.tile n).regs = (s.tile n).regs
  grade : ∀ k, t.grade k = if k ∈ qs then gradeBand (hottestOf ds k) else s.grade k
  hottest : ∀ k, tget 0 t.platform.hottest k = if k ∈ qs then hottestOf ds k else tget 0 s.platform.hottest k
  other : ∀ n, quadrantOf n ∉ qs → t.tile n = s.tile n
  due : ∀ n, n < 256 → quadrantOf n ∈ qs → t.grade (quadrantOf n) ≠ s.grade (quadrantOf n) →
    DueBy (s.clock + Config.refreshInterval (t.grade (quadrantOf n))) (t.tile n)

theorem Trained.clock_eq {ds qs : List Nat} {s t : State} (h : Trained ds qs s t) : t.clock = s.clock := by
  obtain ⟨c, ts, gs, hs, rfl⟩ := h.frame
  rfl

/-- The platform controller after the training of one quadrant. -/
theorem trainQuadrant_platform (ds : List Nat) (s : State) (q : Nat) (h : BanksWf s) : (trainQuadrant ds s q).platform =
    { s.platform with
      grades := tset 0 s.platform.grades q (gradeBand (hottestOf ds q)), hottest := tset 0 s.platform.hottest q (hottestOf ds q) } := by
  obtain ⟨c, ts, hframe⟩ := (setGrade_regrades s q (gradeBand (hottestOf ds q)) h).frame
  rw [trainQuadrant, hframe]
  rfl

theorem grade_trainQuadrant (ds : List Nat) (s : State) (q k : Nat) (h : BanksWf s) (hg : twf 0 s.platform.grades = true) :
    (trainQuadrant ds s q).grade k = if k = q then gradeBand (hottestOf ds q) else s.grade k := by
  rw [State.grade, trainQuadrant_platform ds s q h]
  exact tget_tset 0 _ q k _ hg

theorem hottest_trainQuadrant (ds : List Nat) (s : State) (q k : Nat) (h : BanksWf s) (hh : twf 0 s.platform.hottest = true) :
    tget 0 (trainQuadrant ds s q).platform.hottest k = if k = q then hottestOf ds q else tget 0 s.platform.hottest k := by
  rw [trainQuadrant_platform ds s q h]
  exact tget_tset 0 _ q k _ hh

theorem trained_one (ds : List Nat) (s : State) (q : Nat) (hb : BanksWf s) (hg : twf 0 s.platform.grades = true)
    (hh : twf 0 s.platform.hottest = true) : Trained ds [q] s (trainQuadrant ds s q) := by
  have hset := setGrade_regrades s q (gradeBand (hottestOf ds q)) hb
  refine ⟨?_, hset.wf, ?_, hset.regs, fun k => ?_, fun k => ?_, fun n hn => ?_, fun n hn hq hne => ?_⟩
  · obtain ⟨c, ts, hframe⟩ := hset.frame
    refine ⟨c, ts, tset 0 s.platform.grades q (gradeBand (hottestOf ds q)), tset 0 s.platform.hottest q (hottestOf ds q), ?_⟩
    rw [trainQuadrant, hframe]
    rfl
  · rw [trainQuadrant_platform ds s q hb]
    exact ⟨twf_tset _ _ _ _ hg, twf_tset _ _ _ _ hh⟩
  · rw [grade_trainQuadrant ds s q k hb hg]
    by_cases hk : k = q <;> simp [hk]
  · rw [hottest_trainQuadrant ds s q k hb hh]
    by_cases hk : k = q <;> simp [hk]
  · refine hset.other n fun hm => hn ?_
    split at hm
    · simp at hm
    · rw [((mem_quadrantTiles q n).mp hm).2, List.mem_singleton]
  · rw [List.mem_singleton] at hq
    rw [grade_trainQuadrant ds s q _ hb hg, if_pos hq] at hne ⊢
    rw [hq] at hne
    refine hset.due n ?_
    rw [if_neg hne]
    exact (mem_quadrantTiles q n).mpr ⟨hn, hq⟩

theorem Trained.cons {ds qs : List Nat} {q : Nat} {s t u : State} (hq : q ∉ qs) (h : Trained ds [q] s t) (k : Trained ds qs t u) :
    Trained ds (q :: qs) s u where
  frame := by
    obtain ⟨c, ts, gs, hs, rfl⟩ := h.frame
    obtain ⟨d, us, ls, ks, rfl⟩ := k.frame
    exact ⟨d, us, ls, ks, rfl⟩
  banksWf := k.banksWf
  gradesWf := k.gradesWf
  regs := fun n => (k.regs n).trans (h.regs n)
  grade := fun j => by
    rw [k.grade, h.grade]
    by_cases hj : j = q
    · subst hj; simp [hq]
    · simp [hj]
  hottest := fun j => by
    rw [k.hottest, h.hottest]
    by_cases hj : j = q
    · subst hj; simp [hq]
    · simp [hj]
  other := fun n hn => by
    rw [List.mem_cons, not_or] at hn
    rw [k.other n hn.2, h.other n (by simpa using hn.1)]
  due := fun n hn hm hne => by
    rcases List.mem_cons.mp hm with hm | hm
    · have hout : quadrantOf n ∉ qs := by rw [hm]; exact hq
      have hu : u.grade (quadrantOf n) = t.grade (quadrantOf n) := by rw [k.grade, if_neg hout]
      rw [hu] at hne ⊢
      rw [k.other n hout]
      exact h.due n hn (by simp [hm]) hne
    · have hout : quadrantOf n ∉ [q] := by
        rw [List.mem_singleton]; exact fun h => hq (h ▸ hm)
      have ht : t.grade (quadrantOf n) = s.grade (quadrantOf n) := by rw [h.grade, if_neg hout]
      rw [← h.clock_eq]
      exact k.due n hn hm (by rw [ht]; exact hne)

/-- Quadrants trained one after another. -/
theorem trained_foldl (ds qs : List Nat) (hqs : qs.Nodup) (s : State) (hb : BanksWf s) (hg : twf 0 s.platform.grades = true)
    (hh : twf 0 s.platform.hottest = true) : Trained ds qs s (qs.foldl (trainQuadrant ds) s) := by
  induction qs generalizing s with
  | nil =>
    exact ⟨⟨_, _, _, _, rfl⟩, hb, ⟨hg, hh⟩, fun _ => rfl, by simp, by simp, fun _ _ => rfl, fun _ _ h => absurd h (by simp)⟩
  | cons q qs ih =>
    obtain ⟨hq, hqs⟩ := List.nodup_cons.mp hqs
    have hone := trained_one ds s q hb hg hh
    exact hone.cons hq (ih hqs _ hone.banksWf hone.gradesWf.1 hone.gradesWf.2)

theorem banksWf_of_wf (s : State) (h : Safety.wf s = true) : BanksWf s := by
  refine ⟨?_, fun n => ?_⟩
  · simp only [Safety.wf, Bool.and_eq_true] at h
    simp only [h]
  · have ht := wf_tile s n h
    simp only [Safety.tileWf, Safety.vaultWf, Bool.and_eq_true] at ht
    simp only [ht]

theorem platformWf_of_wf (s : State) (h : Safety.wf s = true) :
    twf 0 s.platform.grades = true ∧ twf 0 s.platform.hottest = true := by
  simp only [Safety.wf, Safety.platformWf, Bool.and_eq_true] at h
  simp only [h, and_self]

/-- Step 3 of the boot sequence: the four quadrants are trained, the throttle sees the sensors, and the next sample is set (R147, R309, R310). -/
theorem trainVaults_trains (s : State) (h : Safety.wf s = true) :
    ∃ t, Trained s.platform.sensors (List.range 4) s t ∧
      trainVaults s = t.mapPlatform fun p =>
        { p with phase := 4, hotThrottle := s.platform.sensors.any overheated, sampleAt := t.clock + 65536 } := by
  obtain ⟨hg, hh⟩ := platformWf_of_wf s h
  exact ⟨_, trained_foldl _ _ List.nodup_range s (banksWf_of_wf s h) hg hh, rfl⟩

end Sys2Proof.Machine
end

section
/-! PROOFS. The registers of BAR0 and the reset of the device (R256, R300, R301, R304, R306, Tables 12.9, 13.4 and 14.3). -/

namespace Sys2Proof.Machine

/-! ### Writes of registers -/

/-- An aligned 8-byte access while the link answers reaches the registers. -/
theorem execRegisterWrite_reaches (s : State) (o : Nat) (v : BitVec 64) (hp : 4 ≤ s.platform.phase) (ho : o % 8 = 0) :
    execRegisterWrite o 8 v s = .next (writeRegister s o v) := by
  simp [execRegisterWrite, linkUp, hp, ho]

theorem writeRegister_qtroot (s : State) (v : BitVec 64) (h : s.platform.phase = 5) :
    writeRegister s 0x1000 v = s.mapLk (fun l => { l with qtroot := fieldOf v 47 24 }) := by
  simp [writeRegister, booted, h]

theorem writeRegister_lkerr (s : State) (v : BitVec 64) (h : s.platform.phase = 5) :
    writeRegister s 0x1018 v = s.mapLk (fun l => { l with err := l.err &&& ~~~(v.truncate 4) }) := by
  simp [writeRegister, booted, h]

theorem writeRegister_rwbase (s : State) (v : BitVec 64) (h : s.platform.phase = 5) :
    writeRegister s 0x1020 v = s.mapLk (fun l => { l with rwbase := fieldOf v 47 30 }) := by
  simp [writeRegister, booted, h]

theorem writeRegister_dbroot (s : State) (v : BitVec 64) (h : s.platform.phase = 5) :
    writeRegister s 0x1038 v = s.mapLk (fun l => { l with dbroot := fieldOf v 47 15 }) := by
  simp [writeRegister, booted, h]

theorem writeRegister_plerr (s : State) (v : BitVec 64) :
    writeRegister s 0x2020 v = s.mapPlatform (fun p => { p with plerr := p.plerr &&& ~~~(v.truncate 4) }) := by
  simp [writeRegister]

/-- The offsets that a write can change the state through; the events LKCMD, TRAPPOL and PLCMD have rows of their own. -/
def writable : List Nat := [0x1000, 0x1018, 0x1020, 0x1038, 0x2020]

theorem writeRegister_unassigned (s : State) (o : Nat) (v : BitVec 64) (h : o ∉ writable) : writeRegister s o v = s := by
  simp only [writable, List.mem_cons, List.not_mem_nil, or_false, not_or] at h
  obtain ⟨h0, h1, h2, h3, h4⟩ := h
  simp [writeRegister, h0, h1, h2, h3, h4]

/-- A write without a link, of another size or alignment, or at another offset changes nothing (R256). -/
theorem execRegisterWrite_discarded (s : State) (o n : Nat) (v : BitVec 64)
    (h : n ≠ 8 ∨ o % 8 ≠ 0 ∨ s.platform.phase < 4 ∨ o ∉ writable) : execRegisterWrite o n v s = .next s := by
  unfold execRegisterWrite
  split
  · next hup =>
    simp only [linkUp, Bool.and_eq_true, decide_eq_true_eq] at hup
    obtain ⟨⟨hp, hn⟩, ho⟩ := hup
    have hw : o ∉ writable := by
      rcases h with h | h | h | h
      · exact absurd hn h
      · exact absurd ho h
      · omega
      · exact h
    rw [writeRegister_unassigned s o v hw]
  · rfl

/-! ### Reads of registers -/

/-- An aligned 8-byte read while the link answers returns the register. -/
theorem readBar0_register (s : State) (o : Nat) (hp : 4 ≤ s.platform.phase) (ho : o % 8 = 0) :
    readBar0 s o 8 = BitVec.ofNat 64 (registerValue s o) := by
  simp [readBar0, linkUp, hp, ho]

/-- The offsets of the registers that can be read. -/
def readable : List Nat := [0x1000, 0x1010, 0x1018, 0x1020, 0x1030, 0x1038, 0x2000, 0x2008, 0x2010, 0x2018, 0x2020]

theorem registerValue_unassigned (s : State) (o : Nat) (h : o ∉ readable) : registerValue s o = 0 := by
  simp only [readable, List.mem_cons, List.not_mem_nil, or_false, not_or] at h
  obtain ⟨h0, h1, h2, h3, h4, h5, h6, h7, h8, h9, h10⟩ := h
  simp [registerValue, h0, h1, h2, h3, h4, h5, h6, h7, h8, h9, h10]

/-- A read without a link, of another size or alignment, or at another offset returns zero (R6, R7, R256). -/
theorem readBar0_zero (s : State) (o n : Nat) (h : n ≠ 8 ∨ o % 8 ≠ 0 ∨ o ∉ readable ∨ s.platform.phase < 4) : readBar0 s o n = 0 := by
  unfold readBar0
  split
  · next hup =>
    simp only [linkUp, Bool.and_eq_true, decide_eq_true_eq] at hup
    obtain ⟨⟨hp, hn⟩, ho⟩ := hup
    have hr : o ∉ readable := by
      rcases h with h | h | h | h
      · exact absurd hn h
      · exact absurd ho h
      · exact h
      · omega
    rw [registerValue_unassigned s o hr]
    rfl
  · rfl

/-! ### THERM -/

theorem thermOf_eq (p : Platform) (q : Nat) : thermOf p q =
    tget 0 p.hottest q % 256 * 256 + (if 105 < tget 0 p.hottest q then 1 else 0) * 4 + tget 0 p.grades q % 4 := by
  by_cases h : 105 < tget 0 p.hottest q <;> simp [thermOf, place, overheated, h]

theorem thermOf_lt (p : Platform) (q : Nat) : thermOf p q < 2 ^ 16 := by
  rw [thermOf_eq]
  split <;> omega

theorem thermWord_eq (p : Platform) :
    thermWord p = thermOf p 0 + thermOf p 1 * 2 ^ 16 + thermOf p 2 * 2 ^ 32 + thermOf p 3 * 2 ^ 48 := by
  have hq : List.range 4 = [0, 1, 2, 3] := rfl
  have hsum (f : Nat → Nat) : ([0, 1, 2, 3].map f).sum = f 0 + f 1 + f 2 + f 3 := by simp [Nat.add_assoc]
  have h0 : place (thermOf p 0) (16 * 0) = thermOf p 0 := Nat.mul_one _
  rw [thermWord, hq, hsum, h0]
  rfl

theorem thermWord_lt (p : Platform) : thermWord p < 2 ^ 64 := by
  have h0 := thermOf_lt p 0
  have h1 := thermOf_lt p 1
  have h2 := thermOf_lt p 2
  have h3 := thermOf_lt p 3
  rw [thermWord_eq]
  omega

/-- Each quadrant has its 16 bits of THERM. -/
theorem thermWord_quadrant (p : Platform) (k : Nat) (hk : k < 4) : thermWord p / 2 ^ (16 * k) % 2 ^ 16 = thermOf p k := by
  have h0 := thermOf_lt p 0
  have h1 := thermOf_lt p 1
  have h2 := thermOf_lt p 2
  have h3 := thermOf_lt p 3
  rw [thermWord_eq]
  interval_cases k <;> omega

/-- A field that lies in one 16-bit part of a number is that field of the part. -/
theorem bits_part (x k hi lo : Nat) (hlo : lo ≤ hi) (hhi : hi < 16) :
    bits x (16 * k + hi) (16 * k + lo) = bits (x / 2 ^ (16 * k) % 2 ^ 16) hi lo := by
  have hsplit : (2 : Nat) ^ 16 = 2 ^ lo * 2 ^ (16 - lo) := by rw [← Nat.pow_add, Nat.add_sub_cancel' (by omega)]
  have hwidth : 16 * k + hi + 1 - (16 * k + lo) = hi + 1 - lo := by omega
  unfold bits
  rw [hwidth, hsplit, Nat.mod_mul_right_div_self, Nat.mod_mod_of_dvd _ (Nat.pow_dvd_pow 2 (by omega)), Nat.pow_add,
    ← Nat.div_div_eq_div_mul]

theorem readBar0_therm (s : State) (hp : 4 ≤ s.platform.phase) : (readBar0 s 0x2008 8).toNat = thermWord s.platform := by
  rw [readBar0_register s 0x2008 hp (by decide), BitVec.toNat_ofNat]
  exact Nat.mod_eq_of_lt (thermWord_lt s.platform)

/-- The three fields that THERM has for each quadrant: the hottest sensor, the grade and the throttling bit. -/
theorem readBar0_therm_fields (s : State) (k : Nat) (hp : 4 ≤ s.platform.phase) (hk : k < 4) :
    bits (readBar0 s 0x2008 8).toNat (16 * k + 15) (16 * k + 8) = tget 0 s.platform.hottest k % 256 ∧
      bits (readBar0 s 0x2008 8).toNat (16 * k + 1) (16 * k) = tget 0 s.platform.grades k % 4 ∧
      bits (readBar0 s 0x2008 8).toNat (16 * k + 2) (16 * k + 2) = if 105 < tget 0 s.platform.hottest k then 1 else 0 := by
  have field (hi lo : Nat) (hlo : lo ≤ hi) (hhi : hi < 16) :
      bits (readBar0 s 0x2008 8).toNat (16 * k + hi) (16 * k + lo) = bits (thermOf s.platform k) hi lo := by
    rw [readBar0_therm s hp, bits_part _ k hi lo hlo hhi, thermWord_quadrant _ k hk]
  have hgrade : bits (readBar0 s 0x2008 8).toNat (16 * k + 1) (16 * k) = bits (thermOf s.platform k) 1 0 :=
    field 1 0 (by omega) (by omega)
  rw [field 15 8 (by omega) (by omega), hgrade, field 2 2 (by omega) (by omega), thermOf_eq]
  simp only [bits]
  split <;> omega

/-! ### Reset and boot -/

theorem execPlcmdDeviceReset_resets (s : State) (v : BitVec 64) (hp : 4 ≤ s.platform.phase) (hv : v.toNat % 256 = 1) :
    execPlcmdDeviceReset v s = .next (resetDevice s) := by
  simp [execPlcmdDeviceReset, linkUp, hp, hv]

theorem execPlcmdDeviceReset_ignored (s : State) (v : BitVec 64) (h : s.platform.phase < 4 ∨ v.toNat % 256 ≠ 1) :
    execPlcmdDeviceReset v s = .next s := by
  rcases h with h | h
  · simp [execPlcmdDeviceReset, linkUp, not_le.mpr h]
  · simp [execPlcmdDeviceReset, h]

theorem bootStep_platform (s : State) (h : s.platform.phase ≠ 3) : bootStep s = s.mapPlatform bootPhase := by
  simp [bootStep, h]

theorem bootStep_train (s : State) (h : s.platform.phase = 3) : bootStep s = trainVaults s := by simp [bootStep, h]

theorem bootStep_choose (s : State) (h : s.platform.phase = 1) : (bootStep s).platform = chooseSlot s.platform := by
  simp [bootStep_platform, bootPhase, h]

/-- Steps 2, 3 and 4 go on to the next (Table 14.1). -/
theorem bootStep_phase (s : State) (h2 : 2 ≤ s.platform.phase) (h4 : s.platform.phase ≤ 4) :
    (bootStep s).platform.phase = s.platform.phase + 1 := by
  obtain h | h | h : s.platform.phase = 2 ∨ s.platform.phase = 3 ∨ s.platform.phase = 4 := by omega
  · simp [bootStep_platform, bootPhase, h]
  · rw [bootStep_train s h, h]
    rfl
  · simp [bootStep_platform, bootPhase, h]

/-- The sequence has ended in normal running, and does not run in recovery (R306). -/
theorem bootStep_ended (s : State) (h : 5 ≤ s.platform.phase) : bootStep s = s := by
  have h1 : s.platform.phase ≠ 1 := by omega
  have h2 : s.platform.phase ≠ 2 := by omega
  have h3 : s.platform.phase ≠ 3 := by omega
  have h4 : s.platform.phase ≠ 4 := by omega
  rw [bootStep_platform s h3, State.mapPlatform]
  simp [bootPhase, h1, h2, h4]

/-- A copy that verifies, with its slot, boots (R304). -/
theorem chooseSlot_some (p : Platform) (m : List Byte) (h : bootChoice p = some m) :
    (chooseSlot p).phase = 2 ∧ (chooseSlot p).bootSlot = markerSlot m ∧ (chooseSlot p).bootSeq = BitVec.ofNat 32 (markerSeq m) := by
  simp [chooseSlot, h]

/-- Where none does, recovery begins (R306). -/
theorem chooseSlot_none (p : Platform) (h : bootChoice p = none) :
    (chooseSlot p).phase = 7 ∧ (chooseSlot p).bootSeq = p.bootSeq ∧ (chooseSlot p).bootSlot = p.bootSlot := by
  simp [chooseSlot, h]

theorem refreshInterval_eq (g : Nat) : Config.refreshInterval g = [8192, 4096].getD g 2048 := by
  match g with
  | 0 | 1 => rfl
  | _ + 2 => rfl

theorem hottestOf_eq (ds : List Nat) (k : Nat) :
    hottestOf ds k = (ds.zipIdx.filter fun d => quadrantOf d.2 == k).foldl (fun m d => max m d.1) 0 := by
  simp [hottestOf, List.foldl_filter]

/-- Step 3 of the boot sequence leaves everything but tiles and platform controller, and of the tiles the registers; every quadrant takes
the grade of its hottest sensor, and where that is a change its banks are due within the new interval (R146, R147). -/
theorem bootStep_trains (s : State) (hp : s.platform.phase = 3) (hwf : Safety.wf s = true) :
    (∃ c ts p, bootStep s = { s with core := c, tiles := ts, platform := p }) ∧
      (∀ n, ((bootStep s).tile n).regs = (s.tile n).regs) ∧
      ∀ k, k < 4 → (bootStep s).grade k = gradeBand (hottestOf s.platform.sensors k) ∧
        tget 0 (bootStep s).platform.hottest k = hottestOf s.platform.sensors k ∧
        ((bootStep s).grade k ≠ s.grade k → ∀ n, n < 256 → quadrantOf n = k →
          DueBy (s.clock + Config.refreshInterval ((bootStep s).grade k)) ((bootStep s).tile n)) := by
  obtain ⟨u, hu, ht⟩ := trainVaults_trains s hwf
  rw [bootStep_train s hp, ht]
  refine ⟨?_, hu.regs, fun k hk => ?_⟩
  · obtain ⟨c, ts, gs, hs, rfl⟩ := hu.frame
    exact ⟨c, ts, _, rfl⟩
  · have hmem : k ∈ List.range 4 := List.mem_range.mpr hk
    refine ⟨(hu.grade k).trans (if_pos hmem), (hu.hottest k).trans (if_pos hmem), ?_⟩
    rintro hne n hn rfl
    exact hu.due n hn hmem hne

end Sys2Proof.Machine

namespace Sys2Proof.Claims

open Sys2Proof Sys2Proof.Machine

/-- Settles O49: register by register for BAR0, and step by step for the boot sequence, whose training step is `bootStep_trains`. -/
theorem registersAndReset : Obligations.RegistersAndReset := by
  intro s v q write reads hot assigned fresh
  have hwrite (o : Nat) (f : Lockkeeper → Lockkeeper) (ho : o % 8 = 0) (hf : q.phase = 5 → writeRegister s o v = s.mapLk f) :
      write o f := fun hp => by
    show execRegisterWrite o 8 v s = _
    rw [execRegisterWrite_reaches s o v (le_trans (by decide) (ge_of_eq hp)) ho, hf hp]
    rfl
  have hread (o : Nat) (ho : o % 8 = 0) : reads o (registerValue s o) := fun hp => readBar0_register s o hp ho
  have hfresh : fresh (resetDevice s) :=
    ⟨rfl, rfl, rfl, rfl, rfl, rfl, rfl, rfl, rfl, rfl, rfl, rfl, rfl, rfl, rfl, rfl, rfl, rfl, rfl, rfl, rfl⟩
  refine ⟨hwrite _ _ (by decide) (writeRegister_qtroot s v), hwrite _ _ (by decide) (writeRegister_lkerr s v),
    hwrite _ _ (by decide) (writeRegister_rwbase s v), hwrite _ _ (by decide) (writeRegister_dbroot s v),
    fun hp => ?plerr, fun o n h => ?discarded,
    hread 0x1000 (by decide), hread 0x1010 (by decide), hread 0x1018 (by decide), hread 0x1020 (by decide),
    hread 0x1030 (by decide), hread 0x1038 (by decide), hread 0x2000 (by decide),
    fun k hp hk => readBar0_therm_fields s k hp hk, hread 0x2010 (by decide), hread 0x2018 (by decide), hread 0x2020 (by decide),
    fun o n h => readBar0_zero s o n h, ⟨_, rfl, hfresh⟩, fun hp hv => ⟨resetDevice s, ?plcmd, hfresh⟩, fun h => ?ignored,
    fun hp => ?frame, fun hp hwf => ?train, fun hp => ?choose, bootStep_phase s, bootStep_ended s⟩
  case plerr =>
    show execRegisterWrite 0x2020 8 v s = _
    rw [execRegisterWrite_reaches s _ v hp (by decide), writeRegister_plerr]
    rfl
  case discarded =>
    refine execRegisterWrite_discarded s o n v (h.imp_right (Or.imp_right (Or.imp_right fun ho hw => ho ?_)))
    simp only [writable, List.mem_cons, List.not_mem_nil, or_false] at hw ⊢
    tauto
  case plcmd =>
    exact execPlcmdDeviceReset_resets s v hp hv
  case ignored =>
    exact execPlcmdDeviceReset_ignored s v h
  case frame =>
    rw [bootStep_platform s hp]
    rfl
  case train =>
    obtain ⟨⟨c, ts, p, hframe⟩, hregs, hquadrant⟩ := bootStep_trains s hp hwf
    refine ⟨by rw [hframe], by rw [hframe], by rw [hframe], by rw [hframe], by rw [hframe], hregs, fun k hk => ?_⟩
    obtain ⟨hgrade, hhot, hdue⟩ := hquadrant k hk
    have hmax : hottestOf q.sensors k = hot k := hottestOf_eq q.sensors k
    refine ⟨?_, hhot.trans hmax, fun hne n b hn hq hb => ?_⟩
    · rw [← hmax]; exact hgrade
    · rw [← refreshInterval_eq]; exact hdue hne n hn hq b hb
  case choose =>
    rw [bootStep_choose s hp]
    split
    · next m hm => exact chooseSlot_some _ m hm
    · next hm => exact chooseSlot_none _ hm

end Sys2Proof.Claims
end

section
/-! PROOFS. The sample of the temperature sensors: grade, cool samples, report and refresh due times, quadrant by quadrant (R146, R147, R309). -/

namespace Sys2Proof.Machine

/-! ### One step of a grade (R309) -/

/-- A quadrant is cool: below its band by two degrees, and not in the lowest one. -/
def Cool (g t : Nat) : Prop := 0 < g ∧ t + 2 ≤ bandLimit (g - 1)

theorem gradeStep_rises (g c t : Nat) (h : g < gradeBand t) : gradeStep g c t = (gradeBand t, 0) := by
  simp [gradeStep, h]

theorem gradeStep_falls (g c t : Nat) (h : gradeBand t ≤ g) (hcool : Cool g t) (hc : 15 ≤ c) : gradeStep g c t = (g - 1, 0) := by
  have h16 : 16 ≤ c + 1 := by omega
  obtain ⟨hpos, hlim⟩ := hcool
  simp [gradeStep, not_lt.mpr h, hpos, hlim, h16]

theorem gradeStep_counts (g c t : Nat) (h : gradeBand t ≤ g) (hcool : Cool g t) (hc : c < 15) : gradeStep g c t = (g, c + 1) := by
  have h16 : ¬ 16 ≤ c + 1 := by omega
  obtain ⟨hpos, hlim⟩ := hcool
  simp [gradeStep, not_lt.mpr h, hpos, hlim, h16]

theorem gradeStep_warm (g c t : Nat) (h : gradeBand t ≤ g) (hcool : ¬ Cool g t) : gradeStep g c t = (g, 0) := by
  have hwarm : (0 < g && decide (t + 2 ≤ bandLimit (g - 1))) = false := by
    rw [← Bool.not_eq_true, Bool.and_eq_true, decide_eq_true_eq, decide_eq_true_eq]
    exact hcool
  simp [gradeStep, not_lt.mpr h, hwarm]

/-- Without sixteen cool samples a grade does not fall. -/
theorem gradeStep_stays (g c t : Nat) (h : gradeBand t ≤ g) (hc : ¬ (Cool g t ∧ 15 ≤ c)) : (gradeStep g c t).1 = g := by
  by_cases hcool : Cool g t
  · rw [gradeStep_counts g c t h hcool (not_le.mp fun h15 => hc ⟨hcool, h15⟩)]
  · rw [gradeStep_warm g c t h hcool]

/-! ### One quadrant -/

/-- Grade and count of cool samples of a quadrant after a sample. -/
def sampledGrade (ds : List Nat) (s : State) (q : Nat) : Nat × Nat :=
  gradeStep (s.grade q) (tget 0 s.platform.coolSamples q) (hottestOf ds q)

/-- The tables that a sample reads and writes are in canonical form. -/
structure SampleWf (s : State) : Prop where
  banks : BanksWf s
  grades : twf 0 s.platform.grades = true
  hottest : twf 0 s.platform.hottest = true
  coolSamples : twf 0 s.platform.coolSamples = true

/-- A sample changes the tiles and what the platform controller notes by quadrant, and of the tiles no register. -/
structure SampleFrame (s t : State) : Prop where
  only : ∃ c ts gs hs cs rs, t = { s with core := c, tiles := ts, platform := { s.platform with
    grades := gs, hottest := hs, coolSamples := cs, reports := rs } }
  regs : ∀ n, (t.tile n).regs = (s.tile n).regs

theorem SampleFrame.refl (s : State) : SampleFrame s s := ⟨⟨_, _, _, _, _, _, rfl⟩, fun _ => rfl⟩

theorem SampleFrame.trans {s t u : State} (h : SampleFrame s t) (k : SampleFrame t u) : SampleFrame s u where
  only := by
    obtain ⟨_, _, _, _, _, _, rfl⟩ := h.only
    obtain ⟨c, ts, gs, hs, cs, rs, rfl⟩ := k.only
    exact ⟨c, ts, gs, hs, cs, rs, rfl⟩
  regs := fun n => (k.regs n).trans (h.regs n)

theorem SampleFrame.clock_eq {s t : State} (h : SampleFrame s t) : t.clock = s.clock := by
  obtain ⟨_, _, _, _, _, _, rfl⟩ := h.only
  rfl

/-- Nothing of quadrant `q` has changed, and no report is lost. -/
structure QuadrantKept (q : Nat) (s t : State) : Prop where
  grade : t.grade q = s.grade q
  cool : tget 0 t.platform.coolSamples q = tget 0 s.platform.coolSamples q
  hottest : tget 0 t.platform.hottest q = tget 0 s.platform.hottest q
  reports : ∀ r ∈ s.platform.reports, r ∈ t.platform.reports
  tiles : ∀ n, quadrantOf n = q → t.tile n = s.tile n

theorem QuadrantKept.refl (q : Nat) (s : State) : QuadrantKept q s s := ⟨rfl, rfl, rfl, fun _ h => h, fun _ _ => rfl⟩

theorem QuadrantKept.trans {q : Nat} {s t u : State} (h : QuadrantKept q s t) (k : QuadrantKept q t u) : QuadrantKept q s u where
  grade := k.grade.trans h.grade
  cool := k.cool.trans h.cool
  hottest := k.hottest.trans h.hottest
  reports := fun r hr => k.reports r (h.reports r hr)
  tiles := fun n hn => (k.tiles n hn).trans (h.tiles n hn)

/-- Quadrant `q` has been sampled: its grade has taken its step, and a change is reported and bounds the due times of its banks. -/
structure QuadrantSampled (ds : List Nat) (q : Nat) (s t : State) : Prop where
  grade : t.grade q = (sampledGrade ds s q).1
  cool : tget 0 t.platform.coolSamples q = (sampledGrade ds s q).2
  hottest : tget 0 t.platform.hottest q = hottestOf ds q
  reported : t.grade q ≠ s.grade q → (q, t.grade q) ∈ t.platform.reports
  due : t.grade q ≠ s.grade q → ∀ n, n < 256 → quadrantOf n = q → DueBy (s.clock + Config.refreshInterval (t.grade q)) (t.tile n)

theorem QuadrantSampled.after_kept {ds : List Nat} {q : Nat} {s t u : State} (h : QuadrantKept q s t) (hclock : t.clock = s.clock)
    (k : QuadrantSampled ds q t u) : QuadrantSampled ds q s u := by
  have hstep : sampledGrade ds t q = sampledGrade ds s q := by rw [sampledGrade, h.grade, h.cool, sampledGrade]
  refine ⟨hstep ▸ k.grade, hstep ▸ k.cool, k.hottest, fun hne => k.reported (h.grade ▸ hne), fun hne => ?_⟩
  rw [← hclock]
  exact k.due (h.grade ▸ hne)

theorem QuadrantSampled.then_kept {ds : List Nat} {q : Nat} {s t u : State} (h : QuadrantSampled ds q s t) (k : QuadrantKept q t u) :
    QuadrantSampled ds q s u where
  grade := k.grade.trans h.grade
  cool := k.cool.trans h.cool
  hottest := k.hottest.trans h.hottest
  reported := fun hne => by
    rw [k.grade] at hne ⊢
    exact k.reports _ (h.reported hne)
  due := fun hne n hn hq => by
    rw [k.grade] at hne ⊢
    rw [k.tiles n hq]
    exact h.due hne n hn hq

/-! ### The sample of one quadrant -/

/-- The platform controller after the sample of one quadrant. -/
def sampledPlatform (ds : List Nat) (s : State) (q : Nat) : Platform :=
  { s.platform with
    grades := tset 0 s.platform.grades q (sampledGrade ds s q).1
    hottest := tset 0 s.platform.hottest q (hottestOf ds q)
    coolSamples := tset 0 s.platform.coolSamples q (sampledGrade ds s q).2
    reports := if (sampledGrade ds s q).1 = s.grade q then s.platform.reports
      else s.platform.reports ++ [(q, (sampledGrade ds s q).1)] }

theorem sampleQuadrant_eq (ds : List Nat) (s : State) (q : Nat) : sampleQuadrant ds s q =
    (setGrade s q (sampledGrade ds s q).1).mapPlatform fun p => { p with
      hottest := tset 0 p.hottest q (hottestOf ds q), coolSamples := tset 0 p.coolSamples q (sampledGrade ds s q).2,
      reports := if (sampledGrade ds s q).1 = s.grade q then p.reports else p.reports ++ [(q, (sampledGrade ds s q).1)] } := rfl

theorem sampleQuadrant_only (ds : List Nat) (s : State) (q : Nat) (h : BanksWf s) :
    ∃ c ts, sampleQuadrant ds s q = { s with core := c, tiles := ts, platform := sampledPlatform ds s q } := by
  obtain ⟨c, ts, hframe⟩ := (setGrade_regrades s q (sampledGrade ds s q).1 h).frame
  refine ⟨c, ts, ?_⟩
  rw [sampleQuadrant_eq, hframe]
  rfl

theorem sampleQuadrant_platform (ds : List Nat) (s : State) (q : Nat) (h : BanksWf s) :
    (sampleQuadrant ds s q).platform = sampledPlatform ds s q := by
  obtain ⟨c, ts, hs⟩ := sampleQuadrant_only ds s q h
  rw [hs]

theorem grade_sampleQuadrant (ds : List Nat) (s : State) (q k : Nat) (h : SampleWf s) :
    (sampleQuadrant ds s q).grade k = if k = q then (sampledGrade ds s q).1 else s.grade k := by
  rw [State.grade, sampleQuadrant_platform ds s q h.banks]
  exact tget_tset 0 _ q k _ h.grades

theorem sampleQuadrant_frame (ds : List Nat) (s : State) (q : Nat) (h : SampleWf s) : SampleFrame s (sampleQuadrant ds s q) where
  only := by
    obtain ⟨c, ts, hs⟩ := sampleQuadrant_only ds s q h.banks
    exact ⟨c, ts, _, _, _, _, hs⟩
  regs := (setGrade_regrades s q (sampledGrade ds s q).1 h.banks).regs

theorem sampleQuadrant_wf (ds : List Nat) (s : State) (q : Nat) (h : SampleWf s) : SampleWf (sampleQuadrant ds s q) := by
  have hp := sampleQuadrant_platform ds s q h.banks
  refine ⟨(setGrade_regrades s q (sampledGrade ds s q).1 h.banks).wf, ?_, ?_, ?_⟩ <;> rw [hp]
  · exact twf_tset _ _ _ _ h.grades
  · exact twf_tset _ _ _ _ h.hottest
  · exact twf_tset _ _ _ _ h.coolSamples

/-- The other quadrants stand. -/
theorem sampleQuadrant_keeps (ds : List Nat) (s : State) (q k : Nat) (h : SampleWf s) (hk : k ≠ q) :
    QuadrantKept k s (sampleQuadrant ds s q) := by
  have hp := sampleQuadrant_platform ds s q h.banks
  refine ⟨?_, ?_, ?_, fun r hr => ?_, fun n hn => ?_⟩
  · rw [grade_sampleQuadrant ds s q k h, if_neg hk]
  · rw [hp]; exact tget_tset_ne _ _ _ _ _ hk
  · rw [hp]; exact tget_tset_ne _ _ _ _ _ hk
  · rw [hp]; show r ∈ ite _ _ _
    split
    · exact hr
    · exact List.mem_append_left _ hr
  · refine (setGrade_regrades s q (sampledGrade ds s q).1 h.banks).other n fun hm => hk ?_
    split at hm
    · simp at hm
    · rw [← hn, ((mem_quadrantTiles q n).mp hm).2]

theorem sampleQuadrant_samples (ds : List Nat) (s : State) (q : Nat) (h : SampleWf s) :
    QuadrantSampled ds q s (sampleQuadrant ds s q) := by
  have hp := sampleQuadrant_platform ds s q h.banks
  have hgrade : (sampleQuadrant ds s q).grade q = (sampledGrade ds s q).1 := by rw [grade_sampleQuadrant ds s q q h, if_pos rfl]
  refine ⟨hgrade, ?_, ?_, fun hne => ?_, fun hne n hn hq => ?_⟩
  · rw [hp]; exact tget_tset_same _ _ _ _ h.coolSamples
  · rw [hp]; exact tget_tset_same _ _ _ _ h.hottest
  · rw [hgrade] at hne ⊢
    rw [hp]; show _ ∈ ite _ _ _
    rw [if_neg hne]
    exact List.mem_append_right _ (List.mem_singleton_self _)
  · rw [hgrade] at hne ⊢
    refine (setGrade_regrades s q (sampledGrade ds s q).1 h.banks).due n ?_
    rw [if_neg hne]
    exact (mem_quadrantTiles q n).mpr ⟨hn, hq⟩

/-! ### The sample of all quadrants -/

/-- Quadrants sampled one after another: each takes its step, and the others stand. -/
theorem foldl_sampleQuadrant (ds qs : List Nat) (hqs : qs.Nodup) (s : State) (h : SampleWf s) :
    SampleFrame s (qs.foldl (sampleQuadrant ds) s) ∧ (∀ k, k ∉ qs → QuadrantKept k s (qs.foldl (sampleQuadrant ds) s)) ∧
      ∀ k ∈ qs, QuadrantSampled ds k s (qs.foldl (sampleQuadrant ds) s) := by
  induction qs generalizing s with
  | nil => exact ⟨.refl s, fun k _ => .refl k s, by simp⟩
  | cons q qs ih =>
    obtain ⟨hq, hqs⟩ := List.nodup_cons.mp hqs
    have hone := sampleQuadrant_frame ds s q h
    obtain ⟨hframe, hkept, hsampled⟩ := ih hqs _ (sampleQuadrant_wf ds s q h)
    refine ⟨hone.trans hframe, fun k hk => ?_, fun k hk => ?_⟩
    · rw [List.mem_cons, not_or] at hk
      exact (sampleQuadrant_keeps ds s q k h hk.1).trans (hkept k hk.2)
    · by_cases hkq : k = q
      · subst hkq
        exact (sampleQuadrant_samples ds s k h).then_kept (hkept k hq)
      · have hmem : k ∈ qs := (List.mem_cons.mp hk).resolve_left hkq
        exact (hsampled k hmem).after_kept (sampleQuadrant_keeps ds s q k h hkq) hone.clock_eq

theorem sampleWf_of_wf (s : State) (h : Safety.wf s = true) : SampleWf s := by
  have hb := banksWf_of_wf s h
  simp only [Safety.wf, Safety.platformWf, Bool.and_eq_true] at h
  exact ⟨hb, by simp only [h], by simp only [h], by simp only [h]⟩

/-- A sample that is due: the four quadrants are sampled, the throttle sees the sensors, and the next sample is set (R309, R310). -/
theorem takeSample_samples (s : State) (h : Safety.wf s = true) :
    ∃ u, SampleFrame s u ∧ (∀ k, k < 4 → QuadrantSampled s.platform.sensors k s u) ∧
      takeSample s = u.mapPlatform fun p =>
        { p with hotThrottle := s.platform.sensors.any overheated, sampleAt := p.sampleAt + 65536 } := by
  obtain ⟨hframe, -, hsampled⟩ := foldl_sampleQuadrant s.platform.sensors (List.range 4) List.nodup_range s (sampleWf_of_wf s h)
  exact ⟨_, hframe, fun k hk => hsampled k (List.mem_range.mpr hk), rfl⟩

theorem any_overheated (ds : List Nat) : ds.any overheated = true ↔ ∃ d ∈ ds, 105 < d := by
  simp [overheated]

end Sys2Proof.Machine
end

section
/-! PROOFS. The events of the platform controller: sensors, supply, watchdogs, memory errors and shares (R295, R297, R298, R308 to R310). -/

namespace Sys2Proof.Machine

/-! ### Temperature -/

/-- The state in which the sensors measure `ds`. -/
def measuring (s : State) (ds : List Nat) : State := s.mapPlatform fun p => { p with sensors := ds }

theorem execTemperatureSample_eq (ds : List Nat) (s : State) : execTemperatureSample ds s =
    .next (if sampleDue (measuring s ds) = true then takeSample (measuring s ds) else measuring s ds) := rfl

theorem sampleDue_measuring (s : State) (ds : List Nat) :
    sampleDue (measuring s ds) = true ↔ platformRuns s = true ∧ s.platform.sampleAt ≤ s.clock := by
  rw [sampleDue, Bool.and_eq_true, decide_eq_true_eq]
  rfl

theorem execTemperatureSample_due (ds : List Nat) (s : State) (hr : platformRuns s = true) (hd : s.platform.sampleAt ≤ s.clock) :
    execTemperatureSample ds s = .next (takeSample (measuring s ds)) := by
  rw [execTemperatureSample_eq, if_pos ((sampleDue_measuring s ds).mpr ⟨hr, hd⟩)]

theorem execTemperatureSample_early (ds : List Nat) (s : State) (h : platformRuns s = false ∨ s.clock < s.platform.sampleAt) :
    execTemperatureSample ds s = .next (measuring s ds) := by
  rw [execTemperatureSample_eq, if_neg]
  rw [sampleDue_measuring, not_and_or, Bool.not_eq_true, not_le]
  exact h

theorem wf_measuring (s : State) (ds : List Nat) (h : Safety.wf s = true) : Safety.wf (measuring s ds) = true := h

/-! ### Throttling and budgets (R299, R310) -/

theorem execThrottleStep_runs (a b : Nat) (s : State) (h : platformRuns s = true) : execThrottleStep a b s =
    .next (s.mapPlatform fun p => { p with
      pkgW := a % 65536, modW := b % 65536, powerThrottle := decide (1850 < a) || decide (2000 < b)
      throttle := if p.hotThrottle = true ∨ 1850 < a ∨ 2000 < b then min 16 (p.throttle + 1) else p.throttle - 1 }) := by
  simp [execThrottleStep, watched, h]

theorem execBudgetPeriod_booted (s : State) (h : s.platform.phase = 5) :
    execBudgetPeriod s = .next (s.mapFabric fun f => { f with period := f.period + 1 }) := by
  simp [execBudgetPeriod, booted, h]

/-! ### Holds of every gang -/

theorem gang_mapGang_same (s : State) (g : Nat) (f : Gang → Gang) (hw : twf {} s.gangs = true) :
    (s.mapGang g f).gang g = f (s.gang g) := tget_tset_same _ _ _ _ hw

/-- A request adds its cause to those of the gang. -/
theorem requestHold_causes (s : State) (g : Nat) (c : HoldCause) (hw : twf {} s.gangs = true) :
    ((s.requestHold g c).gang g).causes = if c ∈ (s.gang g).causes then (s.gang g).causes else (s.gang g).causes ++ [c] := by
  rw [State.requestHold, gang_mapGang_same s g _ hw]
  have hmem : (s.gang g).causes.contains c = true ↔ c ∈ (s.gang g).causes := by simp
  split
  · next hc =>
    rw [Bool.and_eq_true, hmem] at hc
    rw [if_pos hc.1]
  · simp only [← hmem]
    split
    · rfl
    · split <;> rfl

/-- A request takes no cause from a gang. -/
theorem requestHold_keeps (s : State) (g k : Nat) (c d : HoldCause) (hw : twf {} s.gangs = true) (h : d ∈ (s.gang k).causes) :
    d ∈ ((s.requestHold g c).gang k).causes := by
  by_cases hk : k = g
  · subst hk
    rw [requestHold_causes s k c hw]
    split
    · exact h
    · exact List.mem_append_left _ h
  · rw [requestHold_other s g k c hk]
    exact h

theorem requestHold_requests (s : State) (g : Nat) (c : HoldCause) (hw : twf {} s.gangs = true) :
    c ∈ ((s.requestHold g c).gang g).causes := by
  rw [requestHold_causes s g c hw]
  split
  · assumption
  · exact List.mem_append_right _ (List.mem_singleton_self _)

theorem requestHold_wf (s : State) (g : Nat) (c : HoldCause) (hw : twf {} s.gangs = true) :
    twf {} (s.requestHold g c).gangs = true := twf_tset _ _ _ _ hw

/-- Requests for a list of gangs change nothing but the gangs, take no cause from any, and leave the cause with each of the list. -/
theorem requestHold_foldl (c : HoldCause) (gs : List (Nat × Gang)) (s : State) (hw : twf {} s.gangs = true) :
    (∃ hs, gs.foldl (fun s g => s.requestHold g.1 c) s = { s with gangs := hs }) ∧
      (∀ k d, d ∈ (s.gang k).causes → d ∈ ((gs.foldl (fun s g => s.requestHold g.1 c) s).gang k).causes) ∧
      ∀ g ∈ gs, c ∈ ((gs.foldl (fun s g => s.requestHold g.1 c) s).gang g.1).causes := by
  induction gs generalizing s with
  | nil => exact ⟨⟨_, rfl⟩, fun _ _ h => h, by simp⟩
  | cons g gs ih =>
    obtain ⟨⟨hs, hframe⟩, hkeep, hreq⟩ := ih (s.requestHold g.1 c) (requestHold_wf s g.1 c hw)
    rw [List.foldl_cons]
    refine ⟨⟨hs, hframe⟩, fun k d h => hkeep k d (requestHold_keeps s g.1 k c d hw h), fun e he => ?_⟩
    rcases List.mem_cons.mp he with rfl | he
    · exact hkeep e.1 c (requestHold_requests s e.1 c hw)
    · exact hreq e he

/-- Every gang of the device is asked to stop, and nothing else changes (R297). -/
theorem holdEvery_stops (s : State) (hw : twf {} s.gangs = true) :
    (∃ hs, holdEvery s = { s with gangs := hs }) ∧ ∀ g ∈ s.gangs, .stop ∈ ((holdEvery s).gang g.1).causes := by
  obtain ⟨hframe, -, hreq⟩ := requestHold_foldl .stop s.gangs s hw
  exact ⟨hframe, hreq⟩

/-! ### Watchdogs (R297) -/

theorem hasWork_iff (t : Thread) : hasWork t = true ↔ t.act = .packet ∨ (t.act = .taking ∧ t.ridx < t.kick) := by
  unfold hasWork
  split <;> simp [*]

theorem mayExpire_thread (s : State) (n : Nat) : mayExpire s (.thread n) = true ↔
    controlRuns s = true ∧ n < 32 ∧ (threadOf s n).servedAt + 2 ^ 26 ≤ s.platform.halves ∧
      ((threadOf s n).act = .packet ∨ ((threadOf s n).act = .taking ∧ (threadOf s n).ridx < (threadOf s n).kick)) := by
  have hhalves : watchdogHalves = 2 ^ 26 := by decide
  simp only [mayExpire, Bool.and_eq_true, decide_eq_true_eq, hasWork_iff, hhalves]
  tauto

theorem coreBusy_iff (s : State) (k : Nat) : coreBusy s k = true ↔
    ∃ n, n < 256 ∧ (s.tile n).barge.misses ≠ [] ∧ Config.mmpCore n % 4 = k := by
  simp [coreBusy, coreOf, Config.tiles]

theorem mayExpire_core (s : State) (k : Nat) : mayExpire s (.core k) = true ↔
    mmpRuns s = true ∧ k < 4 ∧ (∃ n, n < 256 ∧ (s.tile n).barge.misses ≠ [] ∧ Config.mmpCore n % 4 = k) ∧
      Config.mmpCycles (tget 0 s.platform.coreServed k) + 2 ^ 24 ≤ Config.mmpCycles s.platform.halves := by
  simp only [mayExpire, Bool.and_eq_true, decide_eq_true_eq, coreBusy_iff]
  tauto

/-- A watchdog that expires stops the control complex and holds every gang. -/
theorem execWatchdogExpiry_expires (who : Sys2Proof.Watchdog) (s : State) (hw : Safety.wf s = true) (h : mayExpire s who = true) :
    ∃ t, execWatchdogExpiry who s = .next t ∧
      t.platform = { s.platform with plerr := s.platform.plerr ||| watchdogBit who, lkStopped := true, mmpStopped := true } ∧
      t.mem = s.mem ∧ ∀ g ∈ s.gangs, .stop ∈ (t.gang g.1).causes := by
  have hgangs : twf {} s.gangs = true := by
    simp only [Safety.wf, Bool.and_eq_true] at hw
    simp only [hw]
  obtain ⟨⟨hs, hframe⟩, hstop⟩ := holdEvery_stops (s.mapPlatform fun p =>
    { p with plerr := p.plerr ||| watchdogBit who, lkStopped := true, mmpStopped := true }) hgangs
  refine ⟨_, by rw [execWatchdogExpiry, if_pos h], ?_, ?_, hstop⟩ <;> rw [hframe] <;> rfl

theorem execWatchdogExpiry_idle (who : Sys2Proof.Watchdog) (s : State) (h : ¬ mayExpire s who = true) :
    execWatchdogExpiry who s = .next s := by rw [execWatchdogExpiry, if_neg h]

/-! ### Memory errors (R295) -/

/-- While all three processors run, one of them stops. -/
theorem failMemory_stops (s : State) (who : Processor) (hl : s.platform.lkStopped = false) (hm : s.platform.mmpStopped = false)
    (hp : s.platform.pcStopped = false) (hr : processorRuns s who = true) :
    failMemory s who = s.mapPlatform fun p => { p with
      plerr := p.plerr ||| 4
      lkStopped := decide (who = .lockkeeper), mmpStopped := decide (who = .mmp), pcStopped := decide (who = .platform) } := by
  rw [failMemory, if_pos hr]
  cases who <;> simp [State.mapPlatform, stopProcessor, hl, hm, hp]

theorem one_processor (who : Processor) :
    (decide (who = .lockkeeper)).toNat + (decide (who = .mmp)).toNat + (decide (who = .platform)).toNat = 1 := by
  cases who <;> rfl

theorem stopped_false_of_runs (s : State) (hc : controlRuns s = true) (hm : mmpRuns s = true) (hp : platformRuns s = true) :
    s.platform.lkStopped = false ∧ s.platform.mmpStopped = false ∧ s.platform.pcStopped = false := by
  simp only [controlRuns, mmpRuns, platformRuns, Bool.and_eq_true, Bool.not_eq_true'] at hc hm hp
  exact ⟨hc.2, hm.2, hp.2⟩

/-! ### Shares (R298) -/

theorem legalShares_iff (xs : List Nat) : legalShares xs = true ↔ 8 ≤ xs.getD 0 0 ∧ 2 ≤ xs.getD 1 0 ∧ xs.sum ≤ 64 := by
  simp only [legalShares, Bool.and_eq_true, decide_eq_true_eq, and_assoc]

/-- A port that no live crossing uses is not bonded. -/
theorem portBonded_of_unused (s : State) (k p : Nat)
    (h : ∀ c ∈ s.fabric.crossings, c.2.live = true → c.2.ports.1 ≠ p ∧ c.2.ports.2 ≠ p) : portBonded s k p = false := by
  rw [portBonded, List.any_eq_false]
  intro c hc hb
  simp only [Bool.and_eq_true, Bool.or_eq_true, beq_iff_eq] at hb
  obtain ⟨⟨-, hlive⟩, hport⟩ := hb
  exact hport.elim (h c hc hlive).1 (h c hc hlive).2

theorem sharable_controller (s : State) (u : Nat) (h : u < 16) : sharable s u = true := by
  have h80 : u < shareUnits := lt_trans h (by decide)
  simp [sharable, h80, not_le.mpr h]

theorem sharable_port (s : State) (u : Nat) (h : u < 80)
    (hfree : ∀ c ∈ s.fabric.crossings, c.2.live = true → c.2.ports.1 ≠ u - 16 ∧ c.2.ports.2 ≠ u - 16) : sharable s u = true := by
  simp [sharable, shareUnits, h, portBonded_of_unused s 8 (u - 16) hfree]

theorem execShareSetting_taken (s : State) (u : Nat) (xs : List Nat) (hr : mmpRuns s = true) (hu : sharable s u = true)
    (hx : legalShares xs = true) :
    execShareSetting u xs s = .next (s.mapFabric fun f => { f with shares := tset [] f.shares u xs }) := by
  simp [execShareSetting, managed, hr, hu, hx]

theorem execShareSetting_refused (s : State) (u : Nat) (xs : List Nat) (h : ¬ legalShares xs = true ∨ 80 ≤ u) :
    execShareSetting u xs s = .next s := by
  have hno : (sharable s u && legalShares xs) = false := by
    rcases h with h | h
    · rw [Bool.eq_false_of_not_eq_true h, Bool.and_false]
    · simp [sharable, shareUnits, not_lt.mpr h]
  simp [execShareSetting, managed, hno]

end Sys2Proof.Machine

namespace Sys2Proof.Claims

open Sys2Proof Sys2Proof.Machine

/-- Settles O50: event by event; the sample of the sensors is `takeSample_samples`, the watchdogs are `execWatchdogExpiry_expires`. -/
theorem platformEvents : Obligations.PlatformEvents := by
  intro s ds xs a b u bs hwf q0 band limit interval hot legal unit
  have hmax (q : Nat) : hottestOf ds q = hot q := hottestOf_eq ds q
  refine ⟨fun hr hd => ?sample, fun h => execTemperatureSample_early ds s h, fun hr => ?throttle,
    ⟨Config.free s.fresh % 4, Nat.mod_lt _ (by decide), rfl, rfl⟩, fun who => ?watchdog, fun hc hm hp => ?memory,
    fun hr hx hu => ?share, fun h => ?refused, fun h => ?period, rfl, rfl, rfl, rfl⟩
  case sample =>
    obtain ⟨t, hframe, hsampled, htake⟩ := takeSample_samples (measuring s ds) (wf_measuring s ds hwf)
    refine ⟨_, (execTemperatureSample_due ds s hr hd).trans (congrArg _ htake), ?_, any_overheated ds, hframe.regs, ?_, fun q hq => ?_⟩
    · obtain ⟨_, _, _, _, _, _, rfl⟩ := hframe.only
      rfl
    · obtain ⟨_, _, _, _, _, _, rfl⟩ := hframe.only
      rfl
    · obtain ⟨hgrade, hcool, hhot, hreport, hdue⟩ := hsampled q hq
      have hstep : sampledGrade (measuring s ds).platform.sensors (measuring s ds) q =
          gradeStep (s.grade q) (tget 0 q0.coolSamples q) (hot q) := by rw [← hmax]; rfl
      rw [hstep] at hgrade hcool
      refine ⟨fun h => ?_, fun h hc h15 => ?_, fun h hc => ?_, fun h hc h15 => ?_, hhot.trans (hmax q),
        fun hne => ⟨hreport hne, ?_⟩⟩
      · exact hgrade.trans (congrArg Prod.fst (gradeStep_rises _ _ _ h))
      · exact hgrade.trans (congrArg Prod.fst (gradeStep_falls _ _ _ h hc h15))
      · exact hgrade.trans (gradeStep_stays _ _ _ h hc)
      · exact hcool.trans (congrArg Prod.snd (gradeStep_counts _ _ _ h hc h15))
      · intro n b hn hqn hb
        show _ ≤ s.clock + [8192, 4096].getD _ 2048
        rw [← refreshInterval_eq]
        exact hdue hne n hn hqn b hb
  case throttle =>
    refine ⟨_, execThrottleStep_runs a b s hr, rfl, rfl, rfl, rfl⟩
  case watchdog =>
    intro expires bit
    have hexp : expires ↔ mayExpire s who = true := by
      cases who with
      | thread n => exact (mayExpire_thread s n).symm
      | core k => exact (mayExpire_core s k).symm
    have hbit : bit = watchdogBit who := by cases who <;> rfl
    refine ⟨fun h => ?_, fun h => execWatchdogExpiry_idle who s fun hm => h (hexp.mpr hm)⟩
    rw [hbit]
    exact execWatchdogExpiry_expires who s hwf (hexp.mp h)
  case memory =>
    obtain ⟨hl, hmm, hpc⟩ := stopped_false_of_runs s hc hm hp
    have hr : processorRuns s (processorOf (Config.free s.fresh)) = true := by
      cases processorOf (Config.free s.fresh) <;> assumption
    exact ⟨_, _, _, one_processor (processorOf (Config.free s.fresh)),
      congrArg Host.Outcome.next (failMemory_stops s.takeFree.2 _ hl hmm hpc hr)⟩
  case share =>
    have hs : sharable s u = true := hu.elim (sharable_controller s u) fun h => sharable_port s u h.1 h.2
    have hw : twf [] s.fabric.shares = true := by
      simp only [Safety.wf, Safety.platformWf, Bool.and_eq_true] at hwf
      simp only [hwf]
    exact ⟨_, execShareSetting_taken s u xs hr hs ((legalShares_iff xs).mpr hx), tget_tset_same _ _ _ _ hw,
      fun v hv => tget_tset_ne _ _ _ _ _ hv, rfl⟩
  case refused => exact execShareSetting_refused s u xs (h.imp_left fun hx hl => hx ((legalShares_iff xs).mp hl))
  case period => exact execBudgetPeriod_booted s h

end Sys2Proof.Claims
end

section
/-! PROOFS. Work done on tile after tile: what a fold over tiles leaves of the tiles and of the rest of the device. -/

namespace Sys2Proof.Machine

/-! ### States that agree but for the tiles -/

/-- Two states agree on everything but the tiles and which of them is checked out. -/
def SameGlobal (s t : State) : Prop := ∃ m c ts, t = { s with cur := m, core := c, tiles := ts }

theorem SameGlobal.refl (s : State) : SameGlobal s s := ⟨_, _, _, rfl⟩

theorem SameGlobal.trans {s t u : State} (h : SameGlobal s t) (k : SameGlobal t u) : SameGlobal s u := by
  obtain ⟨_, _, _, rfl⟩ := h
  obtain ⟨_, _, _, rfl⟩ := k
  exact ⟨_, _, _, rfl⟩

theorem sameGlobal_select (s : State) (n : Nat) : SameGlobal s (s.select n) := by
  obtain ⟨c, ts, h⟩ := select_only s n
  exact ⟨n, c, ts, h⟩

theorem sameGlobal_mapCore (s : State) (f : Tile → Tile) : SameGlobal s (s.mapCore f) := ⟨_, _, _, rfl⟩

theorem SameGlobal.clock_eq {s t : State} (h : SameGlobal s t) : t.clock = s.clock := by obtain ⟨_, _, _, rfl⟩ := h; rfl

theorem SameGlobal.mem_eq {s t : State} (h : SameGlobal s t) : t.mem = s.mem := by obtain ⟨_, _, _, rfl⟩ := h; rfl

theorem SameGlobal.gangs_eq {s t : State} (h : SameGlobal s t) : t.gangs = s.gangs := by obtain ⟨_, _, _, rfl⟩ := h; rfl

theorem SameGlobal.jobs_eq {s t : State} (h : SameGlobal s t) : t.jobs = s.jobs := by obtain ⟨_, _, _, rfl⟩ := h; rfl

theorem gang_of_gangs {s t : State} (h : t.gangs = s.gangs) (g : Nat) : t.gang g = s.gang g := by rw [State.gang, h, State.gang]

theorem SameGlobal.gang_eq {s t : State} (h : SameGlobal s t) (g : Nat) : t.gang g = s.gang g := gang_of_gangs h.gangs_eq g

/-! ### Visits of tiles -/

theorem tiles_of_wf (s : State) (h : Safety.wf s = true) : twf {} s.tiles = true := (banksWf_of_wf s h).1

theorem gangs_of_wf (s : State) (h : Safety.wf s = true) : twf {} s.gangs = true := by
  simp only [Safety.wf, Bool.and_eq_true] at h
  tauto

theorem tile_cur (s : State) : s.tile s.cur = s.core := by simp [State.tile]

theorem tile_mapTile (s : State) (n k : Nat) (f : Tile → Tile) (h : twf {} s.tiles = true) :
    (s.mapTile n f).tile k = if k = n then f (s.tile n) else s.tile k := by
  unfold State.mapTile
  by_cases hn : n = s.cur
  · rw [if_pos hn]
    by_cases hk : k = s.cur <;> simp [State.tile, hn, hk]
  · rw [if_neg hn]
    by_cases hk : k = s.cur
    · simp [State.tile, hk, Ne.symm hn]
    · simp only [State.tile, if_neg hk, if_neg hn]
      exact tget_tset _ _ _ _ _ h

/-- The step `h` of a fold does `f` to the tile that `num` names and to the rest of the device, and leaves the other tiles. -/
structure Visits {β : Type} (num : β → Nat) (f : β → State → State) (h : State → β → State) : Prop where
  same : ∀ s x, SameGlobal (f x (s.select (num x))) (h s x)
  wf : ∀ s x, twf {} s.tiles = true → twf {} (h s x).tiles = true
  tile : ∀ s x, twf {} s.tiles = true → ∀ k, (h s x).tile k = if k = num x then (f x (s.select (num x))).core else s.tile k

/-- What is done with a tile checked out, when it looks after no other tile, leaves the other tiles. -/
theorem tile_onTile_local (s : State) (n : Nat) (f : State → State) (hs : twf {} s.tiles = true)
    (hf : (f (s.select n)).tiles = (s.select n).tiles ∧ (f (s.select n)).cur = (s.select n).cur) :
    twf {} (s.onTile n f).tiles = true ∧ ∀ k, (s.onTile n f).tile k = if k = n then (f (s.select n)).core else s.tile k := by
  obtain ⟨htiles, hcur⟩ := hf
  have hwf : twf {} (f (s.select n)).tiles = true := by rw [htiles]; exact select_tiles_wf s _ hs
  refine ⟨select_tiles_wf _ _ hwf, fun k => ?_⟩
  rw [tile_onTile s n k f hwf]
  rw [select_cur] at hcur
  by_cases hk : k = n
  · rw [if_pos hk, hk, ← tile_cur, hcur]
  · rw [if_neg hk, ← tile_select s n k hs, State.tile, State.tile, hcur, select_cur, if_neg hk, if_neg hk, htiles]

/-- What is done with a tile checked out visits it, when it looks after no other tile. -/
theorem visits_onTile {β : Type} (num : β → Nat) (f : β → State → State)
    (hf : ∀ x s, (f x s).tiles = s.tiles ∧ (f x s).cur = s.cur) : Visits num f fun s x => s.onTile (num x) (f x) where
  same := fun _ _ => sameGlobal_select _ _
  wf := fun s x hs => (tile_onTile_local s (num x) (f x) hs (hf x _)).1
  tile := fun s x hs => (tile_onTile_local s (num x) (f x) hs (hf x _)).2

/-- See `visits_onTile`: the tiles of a list of numbers. -/
theorem visits_tiles (f : State → State) (hf : ∀ s, (f s).tiles = s.tiles ∧ (f s).cur = s.cur) :
    Visits id (fun _ : Nat => f) fun s n => s.onTile n f := visits_onTile id (fun _ => f) fun _ => hf

theorem visits_mapTile {β : Type} (num : β → Nat) (f : β → Tile → Tile) :
    Visits num (fun x s => s.mapCore (f x)) fun s x => s.mapTile (num x) (f x) where
  same := fun s x => by
    obtain ⟨c, ts, h⟩ := select_only s (num x)
    show SameGlobal ((s.select (num x)).mapCore (f x)) (s.mapTile (num x) (f x))
    rw [h, State.mapTile]
    split
    · exact ⟨_, _, _, rfl⟩
    · exact ⟨_, _, _, rfl⟩
  wf := fun s x hs => by
    show twf {} (s.mapTile (num x) (f x)).tiles = true
    unfold State.mapTile
    split
    · exact hs
    · exact twf_tset _ _ _ _ hs
  tile := fun s x hs k => by
    rw [tile_mapTile s _ k _ hs, mapCore_core, select_core s _ hs]

/-- Each tile of a list without repetition is visited once, as it stood; the rest of the device goes from one visit to the next. -/
theorem Visits.foldl_nodup {β : Type} {num : β → Nat} {f : β → State → State} {h : State → β → State} (hv : Visits num f h)
    {G : State → State → Prop} (same : ∀ {s t}, SameGlobal s t → G s t) (trans : ∀ {s t u}, G s t → G t u → G s u)
    (hf : ∀ x s, G s (f x s)) (xs : List β) (s : State) (hs : twf {} s.tiles = true) (hxs : (xs.map num).Nodup) :
    twf {} (xs.foldl h s).tiles = true ∧ G s (xs.foldl h s) ∧ (∀ k, k ∉ xs.map num → (xs.foldl h s).tile k = s.tile k) ∧
      ∀ x ∈ xs, ∃ u, G s u ∧ u.cur = num x ∧ u.core = s.tile (num x) ∧ (xs.foldl h s).tile (num x) = (f x u).core ∧
        G (f x u) (xs.foldl h s) := by
  induction xs generalizing s with
  | nil => exact ⟨hs, same (.refl s), fun _ _ => rfl, by simp⟩
  | cons x xs ih =>
    rw [List.map_cons, List.nodup_cons] at hxs
    obtain ⟨hwf, hG, hother, heach⟩ := ih (h s x) (hv.wf s x hs) hxs.2
    have hselect : G s (s.select (num x)) := same (sameGlobal_select s _)
    have hstep : G s (h s x) := trans (trans hselect (hf x _)) (same (hv.same s x))
    refine ⟨hwf, trans hstep hG, fun k hk => ?_, fun y hy => ?_⟩
    · rw [List.map_cons, List.mem_cons, not_or] at hk
      rw [List.foldl_cons, hother k hk.2, hv.tile s x hs, if_neg hk.1]
    · rcases List.mem_cons.mp hy with rfl | hy
      · refine ⟨s.select (num y), hselect, select_cur _ _, select_core s _ hs, ?_, trans (same (hv.same s y)) hG⟩
        rw [List.foldl_cons, hother _ hxs.1, hv.tile s y hs, if_pos rfl]
      · have hne : num y ≠ num x := fun e => hxs.1 (e ▸ List.mem_map_of_mem hy)
        obtain ⟨u, hu, hcur, hcore, htile, hrest⟩ := heach y hy
        exact ⟨u, trans hstep hu, hcur, by rw [hcore, hv.tile s x hs, if_neg hne], htile, hrest⟩

/-- However often each tile is visited: what holds of the tiles before, and what one visit keeps, holds of them after, and what each visit establishes
holds of those visited. -/
theorem Visits.foldl_each {β : Type} {num : β → Nat} {f : β → State → State} {h : State → β → State} (hv : Visits num f h)
    {G : State → State → Prop} (same : ∀ {s t}, SameGlobal s t → G s t) (trans : ∀ {s t u}, G s t → G t u → G s u)
    {R P : Nat → Tile → Prop} {s₀ : State}
    (hf : ∀ x s, G s₀ s → R (num x) s.core → G s (f x s) ∧ R (num x) (f x s).core ∧ P (num x) (f x s).core)
    (xs : List β) (s : State) (hs : twf {} s.tiles = true) (h₀ : G s₀ s) (hR : ∀ n, R n (s.tile n)) :
    twf {} (xs.foldl h s).tiles = true ∧ G s₀ (xs.foldl h s) ∧ (∀ n, R n ((xs.foldl h s).tile n)) ∧
      (∀ n, n ∉ xs.map num → (xs.foldl h s).tile n = s.tile n) ∧
      ∀ n, n ∈ xs.map num ∨ P n (s.tile n) → P n ((xs.foldl h s).tile n) := by
  induction xs generalizing s with
  | nil => exact ⟨hs, h₀, hR, fun _ _ => rfl, fun n hn => hn.resolve_left (by simp)⟩
  | cons x xs ih =>
    have hselect : G s₀ (s.select (num x)) := trans h₀ (same (sameGlobal_select s _))
    obtain ⟨hG, hRx, hPx⟩ := hf x (s.select (num x)) hselect (by rw [select_core s _ hs]; exact hR _)
    have htile := hv.tile s x hs
    obtain ⟨hwf, hGt, hRt, hother, hPt⟩ := ih (h s x) (hv.wf s x hs) (trans (trans hselect hG) (same (hv.same s x))) fun n => by
      rw [htile]
      split
      · next hn => rw [hn]; exact hRx
      · exact hR n
    refine ⟨hwf, hGt, hRt, fun n hn => ?_, fun n hn => hPt n ?_⟩
    · rw [List.map_cons, List.mem_cons, not_or] at hn
      rw [List.foldl_cons, hother n hn.2, htile, if_neg hn.1]
    · by_cases hnx : n = num x
      · right
        rw [htile, if_pos hnx, hnx]
        exact hPx
      · rw [List.map_cons, List.mem_cons] at hn
        rw [htile, if_neg hnx]
        exact hn.imp_left fun h => h.resolve_left hnx

/-! ### The tiles of a gang on the grid -/

theorem rectTiles_nodup (ox oy w h : Nat) (hw : ox + w ≤ 16) : (rectTiles ox oy w h).Nodup := by
  refine List.nodup_flatMap.mpr ⟨fun j _ => ?_, ?_⟩
  · exact List.Nodup.map (fun a b hab => by simpa using hab) List.nodup_range
  · refine List.Pairwise.imp ?_ (List.nodup_range (n := h))
    intro a b hab
    rw [Function.onFun, List.disjoint_iff_ne]
    intro x hx y hy
    simp only [List.mem_map, List.mem_range] at hx hy
    obtain ⟨i, hi, rfl⟩ := hx
    obtain ⟨k, hk, rfl⟩ := hy
    omega

/-- No tile of a gang on the grid is named twice. -/
theorem Gang.tiles_nodup (g : Gang) (h : g.ox + g.w ≤ 16) : g.tiles.Nodup := rectTiles_nodup _ _ _ _ h

end Sys2Proof.Machine
end


section
/-! PROOFS. Barriers, waits and holds: arrivals and waits at issue, the release of a phase, a hold that takes effect, and a gang that resumes (R29, R31,
R32, R38, R39, R66, R284, R287, R445 to R448). -/

namespace Sys2Proof.Machine

/-! ### Waits at issue -/

/-- A C word without a destination takes its effect on the state as it stands. -/
theorem issueWord_plain (i : Instr) (p : BitVec 3) (s : State) (f : State → State) (sources : List (BitVec 6))
    (hu : useOf i = some { slot := .c, pr := p, scalars := sources }) (h : Claims.Runs i p s) : issueWord i s f = .next (f s) := by
  obtain ⟨hissue, hpred⟩ := h
  have hp : predOf s i = true := by rw [predOf, hu]; exact hpred
  rw [issueWord_runs i s f hissue hp, occupy_single i s _ hu (Nat.lt_irrefl 1) (fun l => by simp)]

theorem arriveAt_fst (s : State) (g b c t : Nat) : (arriveAt s g b c t).1 = (tget {} (s.gang g).barriers b).phase := by
  simp only [arriveAt]
  split <;> split <;> rfl

theorem arriveAt_snd (s : State) (b c : Nat) : (arriveAt s s.core.task.gid b c s.clock).2 = Claims.arrived s b c := by
  simp only [arriveAt, Claims.arrived]
  split <;> split <;> simp_all [State.mapGang]

theorem waitFor_eq (s : State) (w : WaitFor) (met : Option Nat) : waitFor s w met = Claims.waits s w met := rfl

theorem taintIf_eq (s : State) (b : Bool) : s.taintIf b = Claims.tainted s b := by cases b <;> rfl

theorem waitHolds_token (b : Barge) (id : Nat) : waitHolds b (.token id) = true ↔ bits (tget 0 b.words id).toNat 63 61 ≠ 0 :=
  decide_eq_true_iff

theorem waitHolds_pointer (b : Barge) (id n : Nat) : waitHolds b (.pointer id n) = true ↔
    bits (tget 0 b.words id).toNat 63 61 ≠ 0 ∨ n ≤ bits (tget 0 b.words id).toNat 20 0 := by
  rw [waitHolds, Bool.or_eq_true, decide_eq_true_iff, decide_eq_true_iff]
  rfl

/-! ### The release of a phase (R32) -/

/-- The task on a tile waits on a phase of a barrier. -/
def WaitsFor (y : Tile) (b phase : Nat) : Prop := y.ctl.status = .waiting ∧ ∃ w, y.ctl.wait = some w ∧ w.on = .barrier b phase

/-- A tile whose wait is over. -/
def Tile.goesOn (y : Tile) : Tile := { y with ctl := { y.ctl with status := .running, wait := none } }

theorem waitsOn_iff (s : State) (b phase : Nat) : waitsOn s b phase = true ↔ WaitsFor s.core b phase := by
  unfold waitsOn WaitsFor
  cases s.core.ctl.wait <;> simp

theorem goesOn_not_waits (y : Tile) (b phase : Nat) : ¬ WaitsFor y.goesOn b phase := by rintro ⟨-, w, ⟨⟩, -⟩

/-- The tiles that wait on one of the phases listed go on; no other tile and nothing else changes. -/
structure Releases (ts : List Nat) (rs : List (Nat × Nat × Nat)) (s t : State) : Prop where
  same : SameGlobal s t
  wf : twf {} t.tiles = true
  freed : ∀ n ∈ ts, ∀ r ∈ rs, WaitsFor (s.tile n) r.1 r.2.1 → t.tile n = (s.tile n).goesOn
  kept : ∀ n, (n ∉ ts ∨ ∀ r ∈ rs, ¬ WaitsFor (s.tile n) r.1 r.2.1) → t.tile n = s.tile n

theorem releasePhase_releases (gid : Nat) (r : Nat × Nat × Nat) (s : State) (hs : twf {} s.tiles = true) :
    Releases (s.gang gid).tiles [r] s (releasePhase gid r.1 r.2.1 s) := by
  have hv := visits_tiles (fun s => if waitsOn s r.1 r.2.1 then endWait s else s) fun s => by
    split <;> exact ⟨rfl, rfl⟩
  obtain ⟨hwf, hsame, hR, hother, hP⟩ := hv.foldl_each (G := SameGlobal)
    (R := fun n y => y = s.tile n ∨ WaitsFor (s.tile n) r.1 r.2.1 ∧ y = (s.tile n).goesOn)
    (P := fun n y => WaitsFor (s.tile n) r.1 r.2.1 → y = (s.tile n).goesOn) (s₀ := s) id SameGlobal.trans
    (fun n u _ hu => by
      have hvisit : SameGlobal u (if waitsOn u r.1 r.2.1 then endWait u else u) := by
        split
        · exact ⟨_, _, _, rfl⟩
        · exact .refl u
      refine ⟨hvisit, ?_⟩
      split
      · next hw =>
        rw [waitsOn_iff] at hw
        rcases hu with hu | ⟨hwait, hu⟩
        · have he : (endWait u).core = (s.tile n).goesOn := by rw [← show u.core = s.tile n from hu]; rfl
          exact ⟨.inr ⟨hu ▸ hw, he⟩, fun _ => he⟩
        · exact absurd (hu ▸ hw) (goesOn_not_waits _ _ _)
      · next hw =>
        rw [waitsOn_iff] at hw
        exact ⟨hu, fun hwait => hu.elim (fun h => absurd (h ▸ hwait) hw) And.right⟩)
    (s.gang gid).tiles s hs (.refl s) fun n => .inl rfl
  rw [List.map_id] at hother hP
  refine ⟨hsame, hwf, fun n hn q hq hw => ?_, fun n hn => ?_⟩
  · rw [List.mem_singleton.mp hq] at hw
    exact hP n (.inl hn) hw
  · rcases hn with hn | hn
    · exact hother n hn
    · exact (hR n).elim id fun h => absurd h.1 (hn r (List.mem_singleton_self r))

theorem Releases.nil (ts : List Nat) (s : State) (hs : twf {} s.tiles = true) : Releases ts [] s s :=
  ⟨.refl s, hs, fun _ _ _ hr => absurd hr List.not_mem_nil, fun _ _ => rfl⟩

theorem Releases.cons {ts : List Nat} {r : Nat × Nat × Nat} {rs : List (Nat × Nat × Nat)} {s t u : State} (h : Releases ts [r] s t)
    (k : Releases ts rs t u) : Releases ts (r :: rs) s u where
  same := h.same.trans k.same
  wf := k.wf
  freed := fun n hn q hq hw => by
    by_cases hr : WaitsFor (s.tile n) r.1 r.2.1
    · have ht := h.freed n hn r (List.mem_singleton_self r) hr
      rw [k.kept n (.inr fun p _ => ht ▸ goesOn_not_waits _ _ _), ht]
    · have ht : t.tile n = s.tile n := h.kept n (.inr fun p hp => by rw [List.mem_singleton.mp hp]; exact hr)
      rcases List.mem_cons.mp hq with rfl | hq
      · exact absurd hw hr
      · rw [k.freed n hn q hq (ht ▸ hw), ht]
  kept := fun n hn => by
    have ht : t.tile n = s.tile n := h.kept n (hn.imp_right fun h p hp => h p (by rw [List.mem_singleton.mp hp]; exact List.mem_cons_self))
    rw [k.kept n (hn.imp_right fun h p hp => ht ▸ h p (List.mem_cons_of_mem r hp)), ht]

theorem foldl_releasePhase (gid : Nat) (rs : List (Nat × Nat × Nat)) (s : State) (hs : twf {} s.tiles = true) :
    Releases (s.gang gid).tiles rs s (rs.foldl (fun s r => releasePhase gid r.1 r.2.1 s) s) := by
  induction rs generalizing s with
  | nil => exact .nil _ s hs
  | cons r rs ih =>
    have hstep := releasePhase_releases gid r s hs
    have hrest := ih (releasePhase gid r.1 r.2.1 s) hstep.wf
    rw [hstep.same.gang_eq] at hrest
    exact hstep.cons hrest

/-- The releases of barrier `b` whose clock has come. -/
def dueReleases (s : State) (g b : Nat) : List (Nat × Nat × Nat) :=
  (s.gang g).releases.filter fun r => r.1 == b && decide (r.2.2 ≤ s.clock)

theorem mem_dueReleases (s : State) (g b : Nat) (r : Nat × Nat × Nat) :
    r ∈ dueReleases s g b ↔ r ∈ (s.gang g).releases ∧ r.1 = b ∧ r.2.2 ≤ s.clock := by simp [dueReleases]

/-- A release that has come goes to the tiles that wait for it, and is taken from those to come. -/
theorem execBarrierRelease_due (g b : Nat) (s : State) (hh : (s.gang g).held = false) (hr : dueReleases s g b ≠ []) :
    execBarrierRelease g b s = .next (((dueReleases s g b).foldl (fun s r => releasePhase g r.1 r.2.1 s) s).mapGang g fun x =>
      { x with releases := x.releases.filter fun r => !((dueReleases s g b).contains r) }) := by
  have hrs : ((s.gang g).releases.filter fun r => r.1 == b && releaseDue s (s.gang g) r) = dueReleases s g b := by
    simp only [dueReleases, releaseDue, hh, Bool.not_false, Bool.true_and]
  simp only [execBarrierRelease, hrs]
  rw [if_neg (by simpa using hr)]

theorem filter_not_dueReleases (s : State) (g b : Nat) :
    ((s.gang g).releases.filter fun r => !((dueReleases s g b).contains r)) =
      (s.gang g).releases.filter fun r => !(r.1 == b && decide (r.2.2 ≤ s.clock)) := by
  refine List.filter_congr fun r hr => ?_
  congr 1
  rw [Bool.eq_iff_iff, List.contains_iff_mem, mem_dueReleases]
  simp [hr]

/-! ### Triggers and ends of tasks: what they leave (R34, R45) -/

/-- A tile goes over to one in which only control, task, results in flight, canal and barge may differ, and of these not CYC, the partition, and no
trap record but by its removal. -/
structure TaskMoved (y z : Tile) : Prop where
  frame : z = { y with ctl := z.ctl, task := z.task, results := z.results, canal := z.canal, barge := z.barge }
  cyc : z.ctl.cyc = y.ctl.cyc
  part : z.task.vpb = y.task.vpb ∧ z.task.vpl = y.task.vpl
  trap : z.ctl.trap = none ∨ z.ctl.trap = y.ctl.trap

theorem TaskMoved.refl (y : Tile) : TaskMoved y y := ⟨rfl, rfl, ⟨rfl, rfl⟩, .inr rfl⟩

theorem TaskMoved.trans {x y z : Tile} (h : TaskMoved x y) (k : TaskMoved y z) : TaskMoved x z where
  frame := by rw [k.frame, h.frame]
  cyc := k.cyc.trans h.cyc
  part := ⟨k.part.1.trans h.part.1, k.part.2.trans h.part.2⟩
  trap := k.trap.elim .inl fun e => h.trap.imp e.trans e.trans

/-- The task of the tile checked out moves on, with what follows from it for the graph and for the visibility of writes. -/
structure Triggers (s t : State) : Prop where
  frame : ∃ ns o us, t = { s with core := t.core, lk := { s.lk with nodes := ns, order := o }, mem := { s.mem with unfenced := us } }
  nodes : twf {} s.lk.nodes = true → twf {} t.lk.nodes = true ∧ ∀ n, (t.node n).saved = (s.node n).saved
  tile : TaskMoved s.core t.core

theorem Triggers.refl (s : State) : Triggers s s := ⟨⟨_, _, _, rfl⟩, fun h => ⟨h, fun _ => rfl⟩, .refl _⟩

theorem Triggers.trans {s t u : State} (h : Triggers s t) (k : Triggers t u) : Triggers s u where
  frame := by
    obtain ⟨_, _, _, ht⟩ := h.frame
    obtain ⟨_, _, _, hu⟩ := k.frame
    exact ⟨_, _, _, by rw [hu, ht]⟩
  nodes := fun hs =>
    have ht := h.nodes hs
    have hu := k.nodes ht.1
    ⟨hu.1, fun n => (hu.2 n).trans (ht.2 n)⟩
  tile := h.tile.trans k.tile

theorem Triggers.ite {p : Prop} [Decidable p] {s t u : State} (ht : Triggers s t) (hu : Triggers s u) : Triggers s (if p then t else u) := by
  split
  · exact ht
  · exact hu

theorem Triggers.foldl {β : Type} {f : State → β → State} (hf : ∀ s x, Triggers s (f s x)) (xs : List β) (s : State) :
    Triggers s (xs.foldl f s) := by
  induction xs generalizing s with
  | nil => exact .refl s
  | cons x xs ih => exact (hf s x).trans (ih _)

theorem node_mapNode (s : State) (n k : Nat) (f : Node → Node) (h : twf {} s.lk.nodes = true) :
    (s.mapNode n f).node k = if k = n then f (s.node n) else s.node k := tget_tset _ _ _ _ _ h

theorem triggers_mapNode (s : State) (n : Nat) (f : Node → Node) (hf : ∀ x, (f x).saved = x.saved) : Triggers s (s.mapNode n f) where
  frame := ⟨_, _, _, rfl⟩
  nodes := fun h => ⟨twf_tset _ _ _ _ h, fun k => by
    rw [node_mapNode s n k f h]
    split
    · next hk => rw [hk, hf]
    · rfl⟩
  tile := .refl _

theorem triggers_order (s : State) (o : List Nat) : Triggers s (s.mapLk fun l => { l with order := o }) :=
  ⟨⟨_, _, _, rfl⟩, fun h => ⟨h, fun _ => rfl⟩, .refl _⟩

theorem triggers_unfenced (s : State) (us : List Unfenced) : Triggers s (s.mapMem fun m => { m with unfenced := us }) :=
  ⟨⟨_, _, _, rfl⟩, fun h => ⟨h, fun _ => rfl⟩, .refl _⟩

theorem triggers_mapCore (s : State) (f : Tile → Tile) (hf : TaskMoved s.core (f s.core)) : Triggers s (s.mapCore f) :=
  ⟨⟨_, _, _, rfl⟩, fun h => ⟨h, fun _ => rfl⟩, hf⟩

theorem triggers_mapCtl (s : State) (f : Ctl → Ctl) (hcyc : (f s.core.ctl).cyc = s.core.ctl.cyc)
    (htrap : (f s.core.ctl).trap = none ∨ (f s.core.ctl).trap = s.core.ctl.trap) : Triggers s (s.mapCtl f) :=
  triggers_mapCore s _ ⟨rfl, hcyc, ⟨rfl, rfl⟩, htrap⟩

theorem triggers_mapTask (s : State) (f : Task → Task) (hb : (f s.core.task).vpb = s.core.task.vpb)
    (hl : (f s.core.task).vpl = s.core.task.vpl) : Triggers s (s.mapTask f) :=
  triggers_mapCore s _ ⟨rfl, rfl, ⟨hb, hl⟩, .inr rfl⟩

theorem triggers_mapBarge (s : State) (f : Barge → Barge) : Triggers s (s.mapBarge f) :=
  triggers_mapCore s _ ⟨rfl, rfl, ⟨rfl, rfl⟩, .inr rfl⟩

theorem triggers_becomeReady (s : State) (n : Nat) : Triggers s (becomeReady s n) := by
  unfold becomeReady
  exact .ite ((triggers_mapNode s n _ (by intro; rfl)).trans (triggers_order _ _)) (.refl s)

theorem triggers_updateEdges (s : State) (src : Nat) (f : Edge → Edge) : Triggers s (updateEdges s src f) :=
  (Triggers.foldl (fun s n => triggers_mapNode s n _ (by intro; rfl)) _ s).trans (.foldl triggers_becomeReady _ _)

theorem triggers_earlySatisfied (s : State) (src : Nat) : Triggers s (earlySatisfied s src) :=
  ((triggers_mapNode s src _ (by intro; rfl)).trans (triggers_unfenced _ _)).trans (triggers_updateEdges _ _ _)

theorem triggers_trigger (s : State) : Triggers s (trigger s) := by
  unfold trigger
  refine .ite (.refl s) ?_
  have hmark : Triggers s (s.mapTask fun t => { t with triggered := true, trigBound := if t.trig then t.trigBound else s.core.barge.nextId }) :=
    triggers_mapTask s _ rfl rfl
  have hcount := hmark.trans (triggers_mapNode _ s.core.task.node (fun x => { x with untriggered := x.untriggered - 1 }) fun _ => rfl)
  exact .ite (hcount.trans (triggers_earlySatisfied _ _)) hcount

theorem triggers_checkTrigger (s : State) : Triggers s (checkTrigger s) := .ite (triggers_trigger s) (.refl s)

theorem triggers_meetWait (s : State) : Triggers s (meetWait s) := by
  unfold meetWait
  refine triggers_mapCtl s _ ?_ (.inr ?_)
  all_goals
    cases s.core.ctl.wait
    · rfl
    · dsimp only; split <;> rfl

theorem triggers_correctIf (s : State) (b : Bool) : Triggers s (s.correctIf b) := .ite (triggers_mapCtl s _ rfl (.inr rfl)) (.refl s)

theorem triggers_finishCmd (s : State) (id state err frames wp : Nat) : Triggers s (finishCmd s id state err frames wp) :=
  (((triggers_correctIf s _).trans (triggers_mapBarge _ _)).trans (triggers_meetWait _)).trans (triggers_checkTrigger _)

theorem triggers_stopCmd (s : State) (c : Cmd) : Triggers s (stopCmd s c) := by
  unfold stopCmd
  exact .ite (triggers_mapBarge s _) (triggers_finishCmd s _ _ _ _ _)

/-- A task that ends by a cancel or an abort leaves registers, staging and vault, and CYC. -/
theorem triggers_endTaskHere (s : State) : Triggers s (endTaskHere s) := by
  unfold endTaskHere
  refine .ite (.refl s) (.ite (triggers_mapCtl s _ rfl (.inl rfl)) ?_)
  have hresults : Triggers s (s.mapCore fun t => { t with results := [], canal := { t.canal with latches := [] } }) :=
    triggers_mapCore s _ ⟨rfl, rfl, ⟨rfl, rfl⟩, .inr rfl⟩
  exact (hresults.trans (triggers_mapCtl _ _ rfl (.inl rfl))).trans (.foldl triggers_stopCmd _ _)

/-! ### The end of tasks at a hold point (R41, R44, R45) -/

/-- A gang goes over to one with the same life and hold, and with no cause that it had not. -/
structure HoldStands (x y : Gang) : Prop where
  life : y.life = x.life
  held : y.held = x.held
  since : y.heldSince = x.heldSince
  effect : x.held = true → y.effectAt = x.effectAt
  causes : ∀ c ∈ y.causes, c ∈ x.causes

theorem HoldStands.refl (x : Gang) : HoldStands x x := ⟨rfl, rfl, rfl, fun _ => rfl, fun _ h => h⟩

theorem HoldStands.trans {x y z : Gang} (h : HoldStands x y) (k : HoldStands y z) : HoldStands x z where
  life := k.life.trans h.life
  held := k.held.trans h.held
  since := k.since.trans h.since
  effect := fun hx => (k.effect (h.held.trans hx)).trans (h.effect hx)
  causes := fun c hc => h.causes c (k.causes c hc)

theorem clearHold_stands (s : State) (g : Nat) (c : HoldCause) (hw : twf {} s.gangs = true) :
    HoldStands (s.gang g) ((s.clearHold g c).gang g) := by
  rw [State.clearHold, gang_mapGang_same s g _ hw]
  have hcauses : ∀ d ∈ (s.gang g).causes.filter (fun d => !(d == c)), d ∈ (s.gang g).causes := fun d hd => (List.mem_filter.mp hd).1
  dsimp only
  split
  · split
    · exact ⟨rfl, rfl, rfl, fun _ => rfl, hcauses⟩
    · next hheld => exact ⟨rfl, rfl, rfl, fun h => absurd h hheld, hcauses⟩
  · exact ⟨rfl, rfl, rfl, fun _ => rfl, hcauses⟩

theorem clearHold_causes (s : State) (g : Nat) (c : HoldCause) (hw : twf {} s.gangs = true) :
    ((s.clearHold g c).gang g).causes = (s.gang g).causes.filter fun d => !(d == c) := by
  rw [State.clearHold, gang_mapGang_same s g _ hw]
  dsimp only
  split
  · split <;> rfl
  · rfl

theorem clearHold_wf (s : State) (g : Nat) (c : HoldCause) (hw : twf {} s.gangs = true) : twf {} (s.clearHold g c).gangs = true :=
  twf_tset _ _ _ _ hw

/-- The tables of tiles, gangs and nodes are in canonical form. -/
structure ListsWf (s : State) : Prop where
  tiles : twf {} s.tiles = true
  gangs : twf {} s.gangs = true
  nodes : twf {} s.lk.nodes = true

theorem nodes_of_wf (s : State) (h : Safety.wf s = true) : twf {} s.lk.nodes = true := by
  simp only [Safety.wf, Bool.and_eq_true] at h
  tauto

theorem listsWf_of_wf (s : State) (h : Safety.wf s = true) : ListsWf s := ⟨tiles_of_wf s h, gangs_of_wf s h, nodes_of_wf s h⟩

/-- Tasks end at the hold point of gang `g`: what each tile and the gang keep. -/
structure EndsTasks (g : Nat) (s t : State) : Prop where
  clock : t.clock = s.clock
  wf : ListsWf t
  tile : ∀ n, TaskMoved (s.tile n) (t.tile n)
  gang : HoldStands (s.gang g) (t.gang g)
  saved : ∀ n, (t.node n).saved = (s.node n).saved

theorem EndsTasks.trans {g : Nat} {s t u : State} (h : EndsTasks g s t) (k : EndsTasks g t u) : EndsTasks g s u where
  clock := k.clock.trans h.clock
  wf := k.wf
  tile := fun n => (h.tile n).trans (k.tile n)
  gang := h.gang.trans k.gang
  saved := fun n => (k.saved n).trans (h.saved n)

/-- A change of the gang that its hold stands through. -/
theorem endsTasks_mapGang (g : Nat) (s : State) (f : Gang → Gang) (hs : ListsWf s) (hf : HoldStands (s.gang g) (f (s.gang g))) :
    EndsTasks g s (s.mapGang g f) where
  clock := rfl
  wf := ⟨hs.tiles, twf_tset _ _ _ _ hs.gangs, hs.nodes⟩
  tile := fun _ => .refl _
  gang := by rw [gang_mapGang_same s g f hs.gangs]; exact hf
  saved := fun _ => rfl

theorem endsTasks_clearHold (g : Nat) (s : State) (c : HoldCause) (hs : ListsWf s) : EndsTasks g s (s.clearHold g c) where
  clock := rfl
  wf := ⟨hs.tiles, clearHold_wf s g c hs.gangs, hs.nodes⟩
  tile := fun _ => .refl _
  gang := clearHold_stands s g c hs.gangs
  saved := fun _ => rfl

/-- What the triggers of tasks leave of the device: the clock, the gangs, and the form of the nodes and which of them are saved. -/
structure GraphMoves (s t : State) : Prop where
  clock : t.clock = s.clock
  gangs : t.gangs = s.gangs
  nodes : twf {} s.lk.nodes = true → twf {} t.lk.nodes = true ∧ ∀ n, (t.node n).saved = (s.node n).saved

theorem GraphMoves.trans {s t u : State} (h : GraphMoves s t) (k : GraphMoves t u) : GraphMoves s u where
  clock := k.clock.trans h.clock
  gangs := k.gangs.trans h.gangs
  nodes := fun hs => ⟨(k.nodes (h.nodes hs).1).1, fun n => ((k.nodes (h.nodes hs).1).2 n).trans ((h.nodes hs).2 n)⟩

theorem SameGlobal.graphMoves {s t : State} (h : SameGlobal s t) : GraphMoves s t := by
  obtain ⟨_, _, _, rfl⟩ := h
  exact ⟨rfl, rfl, fun h => ⟨h, fun _ => rfl⟩⟩

theorem Triggers.graphMoves {s t : State} (h : Triggers s t) : GraphMoves s t := by
  obtain ⟨_, _, _, ht⟩ := h.frame
  exact ⟨by rw [ht], by rw [ht], h.nodes⟩

theorem endTaskHere_local (s : State) : (endTaskHere s).tiles = s.tiles ∧ (endTaskHere s).cur = s.cur := by
  obtain ⟨_, _, _, ht⟩ := (triggers_endTaskHere s).frame
  rw [ht]
  exact ⟨rfl, rfl⟩

/-- The tasks listed end, on every tile of a list. -/
theorem endsTasks_tiles (g : Nat) (ending ts : List Nat) (s : State) (hs : ListsWf s) :
    EndsTasks g s (ts.foldl (fun s n => s.onTile n fun s => if ending.contains s.core.task.tix then endTaskHere s else s) s) := by
  have hf (u : State) : Triggers u (if ending.contains u.core.task.tix then endTaskHere u else u) := .ite (triggers_endTaskHere u) (.refl u)
  have hv := visits_tiles (fun u => if ending.contains u.core.task.tix then endTaskHere u else u) fun u => by
    split
    · exact endTaskHere_local u
    · exact ⟨rfl, rfl⟩
  obtain ⟨hwf, hG, hR, -, -⟩ := hv.foldl_each (G := GraphMoves) (R := fun n y => TaskMoved (s.tile n) y) (P := fun _ _ => True) (s₀ := s)
    SameGlobal.graphMoves GraphMoves.trans (fun n u _ hu => ⟨(hf u).graphMoves, hu.trans (hf u).tile, trivial⟩) ts s hs.tiles
    (SameGlobal.refl s).graphMoves (fun n => .refl _)
  exact
    { clock := hG.clock
      wf := ⟨hwf, by rw [hG.gangs]; exact hs.gangs, (hG.nodes hs.nodes).1⟩
      tile := hR
      gang := by rw [gang_of_gangs hG.gangs g]; exact .refl _
      saved := (hG.nodes hs.nodes).2 }

theorem holdStands_listed (x : Gang) : HoldStands x { x with ending := [] } := ⟨rfl, rfl, rfl, fun _ => rfl, fun _ h => h⟩

theorem holdStands_signal (x : Gang) : HoldStands x { x with firstTrap := none, signalled := false } :=
  ⟨rfl, rfl, rfl, fun _ => rfl, fun _ h => h⟩

theorem EndsTasks.mapGang {g : Nat} {s t : State} {f : Gang → Gang} (h : EndsTasks g s t) (hf : ∀ x, HoldStands x (f x)) :
    EndsTasks g s (t.mapGang g f) := h.trans (endsTasks_mapGang g t f h.wf (hf _))

theorem EndsTasks.clearHold {g : Nat} {s t : State} {c : HoldCause} (h : EndsTasks g s t) : EndsTasks g s (t.clearHold g c) :=
  h.trans (endsTasks_clearHold g t c h.wf)

theorem endsTasks_endTasksAtHold (g : Nat) (s : State) (hs : ListsWf s) : EndsTasks g s (endTasksAtHold s g) := by
  have hcancel := ((endsTasks_tiles g (s.gang g).ending (s.gang g).tiles s hs).mapGang holdStands_listed).clearHold (c := .cancel)
  unfold endTasksAtHold
  dsimp only
  split
  · exact (hcancel.mapGang holdStands_signal).clearHold
  · exact hcancel

/-! ### A hold takes effect (R38, R284, R288) -/

/-- The record of a `BRK` or `TRAP` is complete, and nothing that the program works with has changed. -/
structure TrapDone (y z : Tile) : Prop where
  regs : z.regs = y.regs
  staging : z.staging = y.staging
  final : ∀ r, z.ctl.trap = some r → r.final = true

/-- Trap records are written: of the gangs, only which tile trapped first may change. -/
structure RecordsTraps (g : Nat) (s t : State) : Prop where
  clock : t.clock = s.clock
  nodes : t.lk = s.lk
  gangs : twf {} s.gangs = true → twf {} t.gangs = true ∧ ∃ f, t.gang g = { s.gang g with firstTrap := f }

theorem RecordsTraps.refl (g : Nat) (s : State) : RecordsTraps g s s := ⟨rfl, rfl, fun h => ⟨h, _, rfl⟩⟩

theorem RecordsTraps.trans {g : Nat} {s t u : State} (h : RecordsTraps g s t) (k : RecordsTraps g t u) : RecordsTraps g s u where
  clock := k.clock.trans h.clock
  nodes := k.nodes.trans h.nodes
  gangs := fun hs => by
    obtain ⟨ht, f, hf⟩ := h.gangs hs
    obtain ⟨hu, f', hf'⟩ := k.gangs ht
    exact ⟨hu, f', by rw [hf', hf]⟩

theorem SameGlobal.recordsTraps (g : Nat) {s t : State} (h : SameGlobal s t) : RecordsTraps g s t := by
  obtain ⟨_, _, _, rfl⟩ := h
  exact ⟨rfl, rfl, fun h => ⟨h, _, rfl⟩⟩

theorem gang_mapGang (s : State) (g k : Nat) (f : Gang → Gang) (hw : twf {} s.gangs = true) :
    (s.mapGang g f).gang k = if k = g then f (s.gang g) else s.gang k := tget_tset _ _ _ _ _ hw

theorem recordsTraps_firstTrap (g k : Nat) (s : State) (f : Mem → Mem) (first : Gang → Option Nat) :
    RecordsTraps g s ((s.mapMem f).mapGang k fun x => { x with firstTrap := first x }) :=
  ⟨rfl, rfl, fun hw => ⟨twf_tset _ _ _ _ hw, by
    rw [gang_mapGang (s.mapMem f) k g _ hw]
    split
    · next hg => rw [hg]; exact ⟨first (s.gang k), rfl⟩
    · exact ⟨(s.gang g).firstTrap, rfl⟩⟩⟩

theorem writeTrapRecord_records (g : Nat) (s : State) : RecordsTraps g s (writeTrapRecord s) ∧ (writeTrapRecord s).core = s.core ∧
    (writeTrapRecord s).tiles = s.tiles ∧ (writeTrapRecord s).cur = s.cur := by
  unfold writeTrapRecord
  split
  · exact ⟨.refl g s, rfl, rfl, rfl⟩
  · exact ⟨recordsTraps_firstTrap g _ s _ _, by simp only [mapGang_core, mapMem_core],
      by simp only [mapGang_tiles, mapMem_tiles], by simp only [mapGang_cur, mapMem_cur]⟩

theorem completeTrap_cases (s : State) : (completeTrap s = s ∧ ∀ r, s.core.ctl.trap = some r → r.final = true) ∨
    ∃ c : Ctl, (∀ r, c.trap = some r → r.final = true) ∧ completeTrap s = writeTrapRecord (s.mapCtl fun _ => c) := by
  unfold completeTrap
  split
  · next h => exact .inl ⟨rfl, by simp [h]⟩
  · next r h =>
    split
    · next hr => exact .inl ⟨rfl, by simp [h, hr]⟩
    · exact .inr ⟨_, fun q hq => by cases hq; rfl, rfl⟩

theorem completeTrap_done (g : Nat) (s : State) : RecordsTraps g s (completeTrap s) ∧ TrapDone s.core (completeTrap s).core ∧
    (completeTrap s).tiles = s.tiles ∧ (completeTrap s).cur = s.cur := by
  rcases completeTrap_cases s with ⟨h, hfinal⟩ | ⟨c, hfinal, h⟩
  · rw [h]
    exact ⟨.refl g s, ⟨rfl, rfl, hfinal⟩, rfl, rfl⟩
  · obtain ⟨hrec, hcore, htiles, hcur⟩ := writeTrapRecord_records g (s.mapCtl fun _ => c)
    rw [h, hcore, htiles, hcur]
    exact ⟨(SameGlobal.recordsTraps g ⟨_, _, _, rfl⟩).trans hrec, ⟨rfl, rfl, hfinal⟩, rfl, rfl⟩

/-- A gang as its hold takes effect at a clock (R38, R288). -/
def Gang.takesHold (x : Gang) (clock : Nat) : Gang :=
  { x with held := true, heldSince := clock, effectAt := none,
           causes := if x.causes.contains .trap then x.causes.filter fun c => !(c == .preempt) else x.causes }

theorem takesHold_causes (x : Gang) (clock : Nat) (h : .trap ∈ x.causes) : .preempt ∉ (x.takesHold clock).causes := by
  have hc : x.causes.contains .trap = true := by simpa using h
  rw [show (x.takesHold clock).causes = x.causes.filter fun c => !(c == .preempt) from if_pos hc]
  simp

/-- What a hold that takes effect leaves: the gang held from this clock, every record of it complete, and no register and no byte of staging changed. -/
structure TakesHold (g : Nat) (s t : State) : Prop where
  clock : t.clock = s.clock
  gang : HoldStands ((s.gang g).takesHold s.clock) (t.gang g)
  kept : ∀ n, (t.tile n).regs = (s.tile n).regs ∧ (t.tile n).staging = (s.tile n).staging
  final : ∀ n ∈ (s.gang g).tiles, ∀ r, (t.tile n).ctl.trap = some r → r.final = true

theorem TakesHold.then_ends {g : Nat} {s t u : State} (h : TakesHold g s t) (k : EndsTasks g t u) : TakesHold g s u where
  clock := k.clock.trans h.clock
  gang := h.gang.trans k.gang
  kept := fun n => by rw [(k.tile n).frame]; exact h.kept n
  final := fun n hn r hr => (k.tile n).trap.elim (fun e => by rw [e] at hr; cases hr) fun e => h.final n hn r (e ▸ hr)

theorem holdStands_firstTrap (x : Gang) (f : Option Nat) : HoldStands x { x with firstTrap := f } :=
  ⟨rfl, rfl, rfl, fun _ => rfl, fun _ h => h⟩

/-- Every record of the gang is completed, with the gang held. -/
theorem takesHold_records (g : Nat) (s : State) (hs : ListsWf s) :
    let t := (s.gang g).tiles.foldl (fun s n => s.onTile n completeTrap) (s.mapGang g fun x => x.takesHold s.clock)
    ListsWf t ∧ TakesHold g s t := by
  intro t
  have hgangs : twf {} (s.mapGang g fun x => x.takesHold s.clock).gangs = true := twf_tset _ _ _ _ hs.gangs
  obtain ⟨hwf, hG, hR, -, hP⟩ := (visits_tiles completeTrap fun u => (completeTrap_done g u).2.2).foldl_each (G := RecordsTraps g)
    (R := fun n y => y.regs = (s.tile n).regs ∧ y.staging = (s.tile n).staging)
    (P := fun _ y => ∀ r, y.ctl.trap = some r → r.final = true) (s₀ := s.mapGang g fun x => x.takesHold s.clock)
    (SameGlobal.recordsTraps g) RecordsTraps.trans
    (fun n u _ hu => by
      obtain ⟨hrec, hdone, -⟩ := completeTrap_done g u
      exact ⟨hrec, ⟨hdone.regs.trans hu.1, hdone.staging.trans hu.2⟩, hdone.final⟩)
    (s.gang g).tiles (s.mapGang g fun x => x.takesHold s.clock) hs.tiles (.refl g _) fun _ => ⟨rfl, rfl⟩
  obtain ⟨ht, f, hf⟩ := hG.gangs hgangs
  refine ⟨⟨hwf, ht, by rw [hG.nodes]; exact hs.nodes⟩, hG.clock, ?_, hR, fun n hn => hP n (.inl (by rwa [List.map_id]))⟩
  rw [hf, gang_mapGang_same s g _ hs.gangs]
  exact holdStands_firstTrap _ f

theorem takeHold_takes (g : Nat) (s : State) (hs : ListsWf s) : TakesHold g s (takeHold s g) := by
  obtain ⟨hwf, htakes⟩ := takesHold_records g s hs
  have htiles : ((s.mapGang g fun x => x.takesHold s.clock).gang g).tiles = (s.gang g).tiles := by
    rw [gang_mapGang_same s g _ hs.gangs]; rfl
  rw [← htiles] at hwf htakes
  unfold takeHold
  dsimp only
  split
  · exact htakes.then_ends (endsTasks_endTasksAtHold g _ hwf)
  · exact htakes

/-! ### A gang resumes (R39, R66, R287) -/

theorem tget_map {α : Type} (d : α) (f : α → α) (hd : f d = d) (t : Table α) (k : Nat) :
    tget d (t.map fun x => (x.1, f x.2)) k = f (tget d t k) := by
  induction t with
  | nil => exact hd.symm
  | cons c t ih =>
    obtain ⟨a, x⟩ := c
    simp only [List.map_cons, tget]
    split
    · rfl
    · exact ih

theorem returnFromTrap_ctl (s : State) : (returnFromTrap s).core.ctl = match s.core.ctl.trap with
    | none => s.core.ctl
    | some r => if s.core.ctl.status = .stopped then s.core.ctl
      else { s.core.ctl with trap := none, pc := if s.core.ctl.status = .waiting then s.core.ctl.pc else r.npc } := rfl

/-- Each tile of a gang on the grid resumes once, and no other tile and nothing else changes. -/
theorem foldl_resumeTile (g : Gang) (d : Nat) (s : State) (hs : twf {} s.tiles = true) (hg : g.ox + g.w ≤ 16) :
    let t := g.tiles.foldl (fun s n => s.onTile n (resumeTile d)) s
    SameGlobal s t ∧ (∀ n, n ∉ g.tiles → t.tile n = s.tile n) ∧
      ∀ n ∈ g.tiles, ∃ u, u.core = s.tile n ∧ t.tile n = (resumeTile d u).core := by
  intro t
  obtain ⟨-, hsame, hother, heach⟩ := (visits_tiles (resumeTile d) fun _ => ⟨rfl, rfl⟩).foldl_nodup (G := SameGlobal) id SameGlobal.trans
    (fun _ u => ⟨_, _, _, rfl⟩) g.tiles s hs (by rw [List.map_id]; exact g.tiles_nodup hg)
  rw [List.map_id] at hother
  exact ⟨hsame, hother, fun n hn => let ⟨u, _, _, hcore, htile, _⟩ := heach n hn; ⟨u, hcore, htile⟩⟩

/-- A gang that goes on after a hold of `d` cycles (R39). -/
def Gang.resumed (x : Gang) (d : Nat) : Gang :=
  { x with held := false, resumeAt := none, effectAt := none, firstTrap := none, signalled := false,
           releases := x.releases.map fun r => (r.1, r.2.1, r.2.2 + d) }

/-- What the resume of a gang leaves beside the tiles: the gang, and the rows in flight, with their intervals moved. -/
theorem resumeGang_global (g : Nat) (s : State) (hs : ListsWf s) (hg : (s.gang g).ox + (s.gang g).w ≤ 16) :
    (resumeGang s g).gang g = (s.gang g).resumed (s.clock - (s.gang g).heldSince) ∧
      (resumeGang s g).flights = s.flights.map (fun f => if f.gid = g then { f with enters := f.enters + (s.clock - (s.gang g).heldSince) } else f) ∧
      (resumeGang s g).mem = s.mem := by
  obtain ⟨hsame, -⟩ := foldl_resumeTile (s.gang g) (s.clock - (s.gang g).heldSince) s hs.tiles hg
  unfold resumeGang
  dsimp only
  generalize (s.gang g).tiles.foldl _ s = u at hsame ⊢
  obtain ⟨m, c, ts, rfl⟩ := hsame
  refine ⟨tget_tset_same _ s.gangs g _ hs.gangs, ?_, rfl⟩
  simp only [mapGang_flights, beq_iff_eq]

end Sys2Proof.Machine

namespace Sys2Proof.Claims

open Sys2Proof Sys2Proof.Machine

/-- Settles O8: each word takes its effect on the state as it stands (`issueWord_plain`), and that effect is an arrival, a wait or both. -/
theorem barriersAndWaits : Obligations.BarriersAndWaits := by
  intro s b c k a p
  refine ⟨fun h => ?arrb, fun h => ?waitb, fun h => ?waitt, fun h => ?waitp⟩
  case arrb =>
    show execArrb b c p s = _
    rw [execArrb, issueWord_plain _ p s _ [] rfl h, arriveAt_snd]
  case waitb =>
    show execWaitb b c p s = _
    simp only [execWaitb, issueWord_plain _ p s _ [] rfl h, arriveAt_snd, arriveAt_fst, waitFor_eq]
  case waitt =>
    show execWaitt k p s = _
    simp only [execWaitt, issueWord_plain _ p s _ [] rfl h, waitHolds_token, waitFor_eq]
    rfl
  case waitp =>
    show execWaitp k a p s = _
    simp only [execWaitp, issueWord_plain _ p s _ [a] rfl h, waitHolds_pointer, waitFor_eq, taintIf_eq]
    rfl

/-- Settles O34: the releases are `foldl_releasePhase`, the hold is `takeHold_takes`, and the tiles that resume are `foldl_resumeTile`. -/
theorem barriersAndHolds : Obligations.BarriersAndHolds := by
  intro s g hwf x d
  have hs := listsWf_of_wf s hwf
  refine ⟨fun b hheld ⟨r, hr, hb, hr'⟩ => ?release, fun c hlife hheld heffect hc => ?hold, fun c hgrid hheld hcauses hresume hc => ?resume⟩
  case release =>
    have hdue : r ∈ dueReleases s g b := (mem_dueReleases s g b r).mpr ⟨hr, hb, hr'⟩
    have hrel := foldl_releasePhase g (dueReleases s g b) s hs.tiles
    refine ⟨_, execBarrierRelease_due g b s hheld (List.ne_nil_of_mem hdue), ?_, hrel.same.mem_eq, hrel.same.clock_eq, fun n => ⟨?_, ?_⟩⟩
    · rw [gang_mapGang_same _ g _ (by rw [hrel.same.gangs_eq]; exact hs.gangs), hrel.same.gang_eq, filter_not_dueReleases]
    · rintro ⟨hn, hstatus, w, q, hw, hq, hqb, hqc, hon⟩
      refine hrel.freed n hn q ((mem_dueReleases s g b q).mpr ⟨hq, hqb, hqc⟩) ⟨hstatus, w, hw, ?_⟩
      rw [hon, hqb]
    · intro hfreed
      refine hrel.kept n ?_
      by_cases hn : n ∈ x.tiles
      · refine .inr fun q hq hwait => hfreed ?_
        obtain ⟨hstatus, w, hw, hon⟩ := hwait
        obtain ⟨hmem, hqb, hqc⟩ := (mem_dueReleases s g b q).mp hq
        exact ⟨hn, hstatus, w, q, hw, hmem, hqb, hqc, hqb ▸ hon⟩
      · exact .inl hn
  case hold =>
    have htakes := takeHold_takes g s hs
    have hdue : holdDue s (s.gang g) = true := by
      simp only [holdDue, show (s.gang g).held = false from hheld, show (s.gang g).life = .started from hlife,
        show (s.gang g).effectAt = some c from heffect]
      simpa using hc
    refine ⟨takeHold s g, ?_, htakes.gang.held, htakes.gang.since, htakes.gang.effect rfl, htakes.final, fun htrap hpre => ?_, htakes.kept, htakes.clock⟩
    · show execHoldTakeEffect g s = _
      rw [execHoldTakeEffect, if_pos hdue]
    · exact takesHold_causes _ _ htrap (htakes.gang.causes _ hpre)
  case resume =>
    obtain ⟨-, hother, heach⟩ := foldl_resumeTile x d s hs.tiles hgrid.1
    have hdue : resumeDue s (s.gang g) = true := by
      simp only [resumeDue, show (s.gang g).held = true from hheld, show (s.gang g).causes = [] from hcauses,
        show (s.gang g).resumeAt = some c from hresume]
      simpa using hc
    obtain ⟨hgang, hflights, hmem⟩ := resumeGang_global g s hs hgrid.1
    refine ⟨resumeGang s g, ?_, hgang, hflights, hmem, fun n => ⟨hother n, fun hn => ?_⟩⟩
    · show execGangResume g s = _
      rw [execGangResume, if_pos hdue]
    · obtain ⟨u, hcore, htile⟩ := heach n hn
      have htile' : (resumeGang s g).tile n = (resumeTile d u).core := htile
      rw [htile', ← hcore]
      refine ⟨rfl, rfl, rfl, rfl, rfl, fun l => ?_, rfl, rfl, returnFromTrap_ctl _⟩
      exact tget_map [] (List.map fun h : Held => { h with since := h.since + d }) rfl u.core.canal.latches l

end Sys2Proof.Claims
end

section
/-! PROOFS. Bytes and words of the memories outside the tiles: what a run reads after a write, what a write leaves of the device, and what the
Lockkeeper reads when every write is visible (R179, R208, R220, R230, R270). -/

namespace Sys2Proof.Machine

/-! ### Runs of bytes -/

theorem readBytes_eq (t : Table Byte) (a n : Nat) : readBytes t a n = (List.range n).map fun i => tget 0 t (a + i) := tgetList_eq _ _ _ _ _

theorem readBytes_length (t : Table Byte) (a n : Nat) : (readBytes t a n).length = n := tgetList_length _ _ _ _ _

theorem bytesAt_eq (s : State) (sp : MemSpace) (a n : Nat) : Claims.bytesAt s sp a n = readBytes (s.mem.space sp) a n :=
  (readBytes_eq _ _ _).symm

theorem wordAt_eq (s : State) (sp : MemSpace) (a : Nat) : Claims.wordAt s sp a = readWord (s.mem.space sp) a := by
  rw [Claims.wordAt, bytesAt_eq, readWord]

/-- A part of a run. -/
theorem readBytes_part (t : Table Byte) (a n k m : Nat) (h : k + m ≤ n) : ((readBytes t a n).drop k).take m = readBytes t (a + k) m := by
  rw [readBytes_eq, readBytes_eq]
  refine List.ext_getElem (by simp; omega) fun i hi _ => ?_
  simp [Nat.add_assoc]

/-- Bytes that a write has put. -/
theorem readBytes_writeBytes (t : Table Byte) (a : Nat) (bs : List Byte) (h : twf 0 t = true) (k n : Nat) (hk : k + n ≤ bs.length) :
    readBytes (writeBytes t a bs) (a + k) n = (bs.drop k).take n := by
  rw [readBytes_eq]
  refine List.ext_getElem (by simp; omega) fun i hi _ => ?_
  have hi' : i < n := by simpa using hi
  simp only [List.getElem_map, List.getElem_range, List.getElem_take, List.getElem_drop]
  rw [tget_writeBytes t a bs h, if_pos (by omega), List.getD_eq_getElem?_getD, List.getElem?_eq_getElem (by omega)]
  simp [show a + k + i - a = k + i by omega]

/-- Element `i` of a list laid out in runs of `m` bytes. -/
theorem flatMap_part {α β : Type} (m : Nat) (f : α → List β) (hf : ∀ x, (f x).length = m) (xs : List α) (i : Nat) (hi : i < xs.length) :
    ((xs.flatMap f).drop (m * i)).take m = f xs[i] := by
  induction xs generalizing i with
  | nil => simp at hi
  | cons x xs ih =>
    rw [List.flatMap_cons]
    cases i with
    | zero => simp [← hf x]
    | succ i =>
      rw [show m * (i + 1) = (f x).length + m * i by rw [hf]; ring, List.drop_append]
      simp only [List.getElem_cons_succ]
      rw [Nat.add_sub_cancel_left, List.drop_eq_nil_of_le (by omega), List.nil_append]
      exact ih i (by simpa using hi)

theorem flatMap_length {α β : Type} (m : Nat) (f : α → List β) (hf : ∀ x, (f x).length = m) (xs : List α) :
    (xs.flatMap f).length = m * xs.length := by
  simp [List.length_flatMap, hf, Nat.mul_comm]

theorem bitVec_ofBytes_bytesOf (x : Nat) : BitVec.ofNat 64 (ofBytes (bytesOf 8 x)) = BitVec.ofNat 64 x := by
  rw [ofBytes_bytesOf]
  exact BitVec.eq_of_toNat_eq (by simp)

/-! ### Writes -/

theorem Mem.space_setSpace (m : Mem) (sp : MemSpace) (t : Table Byte) (h : Memory.wf m = true) : (m.setSpace sp t).space sp = t := by
  rw [Memory.wf_iff] at h
  obtain ⟨-, -, hhost, -, -, hpeers, -, -⟩ := h
  cases sp with
  | reservoir => rfl
  | host p => exact tget_tset_same _ _ _ _ hhost
  | queueSram => rfl
  | peer n => exact tget_tset_same _ _ _ _ hpeers

theorem Mem.space_store (m : Mem) (sp : MemSpace) (a : Nat) (bs : List Byte) (h : Memory.wf m = true) :
    (m.store sp a bs).space sp = writeBytes (m.space sp) a bs := by
  unfold Mem.store
  split
  · next hb => rw [List.isEmpty_iff.mp hb]; rfl
  · exact Mem.space_setSpace m sp _ h

/-- A write into a memory goes through the MMP's books, the jobs' generations and the rows of vaults, and is reported to the Lockkeeper; nothing else
changes. -/
def Stores (s t : State) : Prop := ∃ c ts js m rs, t = { s with core := c, tiles := ts, jobs := js, mem := m, lk := { s.lk with reports := rs } }

theorem Stores.refl (s : State) : Stores s s := ⟨_, _, _, _, _, rfl⟩

theorem Stores.trans {s t u : State} (h : Stores s t) (k : Stores t u) : Stores s u := by
  obtain ⟨_, _, _, _, _, rfl⟩ := h
  obtain ⟨_, _, _, _, _, rfl⟩ := k
  exact ⟨_, _, _, _, _, rfl⟩

theorem Stores.foldl {β : Type} {f : State → β → State} (hf : ∀ s x, Stores s (f s x)) (xs : List β) (s : State) : Stores s (xs.foldl f s) := by
  induction xs generalizing s with
  | nil => exact .refl s
  | cons x xs ih => exact (hf s x).trans (ih _)

theorem stores_mem (s : State) (m : Mem) : Stores s { s with mem := m } := ⟨_, _, _, _, _, rfl⟩

theorem stores_mapJob (s : State) (p : Nat) (f : Job → Job) : Stores s (s.mapJob p f) := ⟨_, _, _, _, _, rfl⟩

theorem stores_mapTile (s : State) (n : Nat) (f : Tile → Tile) : Stores s (s.mapTile n f) := by
  unfold State.mapTile
  split <;> exact ⟨_, _, _, _, _, rfl⟩

theorem stores_cleanRows (s : State) (p : Nat) : Stores s (s.cleanRows p) := by
  have hrows : Stores s ((s.job p).parts.foldl (fun s x => s.mapTile x.1 fun t => { t with vault := clearRows t.vault x.2.1 x.2.2 }) s) :=
    .foldl (fun s x => stores_mapTile s _ _) _ s
  unfold State.cleanRows
  exact hrows.trans (stores_mapJob _ _ _)

theorem stores_failGens (s : State) (p : Nat) (f : Gen → Bool) : Stores s (s.failGens p f) := by
  have hmarked := (stores_mapJob s p fun j => { j with gens := j.gens.map fun g => if f g && g.kept then g.fail else g }).trans
    (stores_mem _ (((s.job p).gens.filter fun g => f g && g.kept).foldl markFailed s.mem))
  unfold State.failGens
  dsimp only
  split
  · exact hmarked.trans (stores_cleanRows _ p)
  · exact hmarked

theorem stores_copyOnWrite (s : State) (frame : Nat) : Stores s (s.copyOnWrite frame) := by
  unfold State.copyOnWrite
  dsimp only
  split
  · exact .refl s
  · split
    · exact .refl s
    · split
      · exact stores_mem s _
      · split
        · exact (stores_mem s _).trans (stores_failGens _ _ _)
        · exact (stores_mem s _).trans (stores_mapJob _ _ _)

theorem stores_copyShared (s : State) (sp : MemSpace) (a n : Nat) : Stores s (s.copyShared sp a n) := by
  unfold State.copyShared State.copyFrames
  split
  · split
    · exact .refl s
    · exact .foldl (fun s k => stores_copyOnWrite s _) _ s
  · exact .refl s

theorem stores_writeSpace (s : State) (sp : MemSpace) (a : Nat) (bs : List Byte) : Stores s (s.writeSpace sp a bs) := by
  obtain ⟨us, rs, hreport⟩ := report_frame ((s.copyShared sp a bs.length).mapMem fun m =>
    { m.store sp a bs with unfenced := m.unfenced.filter fun u => !(u.within sp a bs.length) }) sp a bs.length
  unfold State.writeSpace
  rw [hreport]
  exact (stores_copyShared s sp a bs.length).trans ⟨_, _, _, _, _, rfl⟩

/-- What a write leaves in its own run. -/
theorem readBytes_writeSpace (s : State) (sp : MemSpace) (a : Nat) (bs : List Byte) (h : Memory.wf s.mem = true) (k n : Nat)
    (hk : k + n ≤ bs.length) : readBytes ((s.writeSpace sp a bs).mem.space sp) (a + k) n = (bs.drop k).take n := by
  have hshared := wf_copyShared s sp a bs.length h
  obtain ⟨us, rs, hreport⟩ := report_frame ((s.copyShared sp a bs.length).mapMem fun m =>
    { m.store sp a bs with unfenced := m.unfenced.filter fun u => !(u.within sp a bs.length) }) sp a bs.length
  have hspace : (s.writeSpace sp a bs).mem.space sp = writeBytes ((s.copyShared sp a bs.length).mem.space sp) a bs := by
    rw [← Mem.space_store _ sp a bs hshared, State.writeSpace, hreport]
    cases sp <;> rfl
  rw [hspace, readBytes_writeBytes _ _ _ (Mem.twf_space _ sp hshared) k n hk]

/-- A word written is read back. -/
theorem wordAt_writeSpaceWord (s : State) (sp : MemSpace) (a : Nat) (x : Scalar) (h : Memory.wf s.mem = true) :
    Claims.wordAt (s.writeSpaceWord sp a x) sp a = x := by
  have hread := readBytes_writeSpace s sp a (bytesOf 8 x.toNat) h 0 8 (by rw [bytesOf_length])
  rw [Nat.add_zero, List.drop_zero, List.take_of_length_le (by rw [bytesOf_length])] at hread
  rw [wordAt_eq, readWord, State.writeSpaceWord, hread, bitVec_ofBytes_bytesOf, BitVec.ofNat_toNat, BitVec.setWidth_eq]

/-! ### Completion records (R270) -/

theorem stores_writeRecord (s : State) (job : Nat) (p : List Scalar) (ws : List Nat) : Stores s (writeRecord s job p ws) := by
  unfold writeRecord
  dsimp only
  split
  · exact .refl s
  · split
    · exact stores_writeSpace _ _ _ _
    · exact .refl s

/-- A record whose address is there holds its words. -/
theorem wordAt_writeRecord (s : State) (job : Nat) (p : List Scalar) (ws : List Nat) (sp : MemSpace) (h : Memory.wf s.mem = true)
    (hsp : recordSpace job (bits (pword p 5) 49 48) = some sp) (ha : Claims.there s sp (bits (pword p 5) 47 0) 32) (i : Nat)
    (hi : i < ws.length) : Claims.wordAt (writeRecord s job p ws) sp (bits (pword p 5) 47 0 + 8 * i) = BitVec.ofNat 64 (ws.getD i 0) := by
  have hw : writeRecord s job p ws = s.writeSpace sp (bits (pword p 5) 47 0) (ws.flatMap (bytesOf 8)) := by
    simp only [writeRecord, hsp]
    rw [if_pos ((Mem.fits_iff _ _ _ _).mpr ha)]
  have hlen := flatMap_length 8 (bytesOf 8) (bytesOf_length 8) ws
  rw [wordAt_eq, readWord, hw, readBytes_writeSpace s sp _ _ h (8 * i) 8 (by rw [hlen]; omega),
    flatMap_part 8 (bytesOf 8) (bytesOf_length 8) ws i hi, bitVec_ofBytes_bytesOf]
  simp [hi]

/-! ### Reads when every write is visible -/

theorem readRun_visible (s : State) (who : Reader) (sp : MemSpace) (a n : Nat) (h : s.mem.unfenced = []) :
    readRun s who sp a n = (readBytes (s.mem.space sp) a n, s) := by
  have hnone : unseenElements s.mem sp a n = [] := by simp [unseenElements, h]
  rw [readRun, hnone]
  rfl

theorem readSpaceWord_visible (s : State) (sp : MemSpace) (a : Nat) (h : s.mem.unfenced = []) :
    readSpaceWord s sp a = (Claims.wordAt s sp a, s) := by
  rw [readSpaceWord, readRun_visible s _ sp a 8 h, wordAt_eq]
  rfl

theorem readSpaceWords_visible (s : State) (sp : MemSpace) (a n : Nat) (h : s.mem.unfenced = []) :
    readSpaceWords s sp a n = ((List.range n).map fun i => Claims.wordAt s sp (a + 8 * i), s) := by
  rw [readSpaceWords, readRun_visible s _ sp a (8 * n) h]
  refine Prod.ext (List.map_congr_left fun i hi => ?_) rfl
  rw [List.mem_range] at hi
  rw [readBytes_part _ _ _ _ _ (by omega), wordAt_eq, readWord]

end Sys2Proof.Machine
end

section
/-! PROOFS. The checks of launch and wait packets, each as the manual states it, and the lowest code of those that fail (R47, R150, R268, R272, R273,
R275). -/

namespace Sys2Proof.Machine

open Claims (packetWord originFits ownedRun outside FirstOf imageThere)

/-- The first check of a list fails, or the rest decides. -/
theorem firstOf_cons {q c : Prop} [Decidable c] {k e : Nat} {qs : List (Prop × Nat)} (h : c ↔ q) (hrest : ¬ q → FirstOf qs e) :
    FirstOf ((q, k) :: qs) (if c then k else e) := by
  refine ⟨fun hq => if_pos (h.mpr hq), fun hq => ?_⟩
  rw [if_neg fun hc => hq (h.mp hc)]
  exact hrest hq

theorem bits_zero (x hi : Nat) : bits x hi 0 = x % 2 ^ (hi + 1) := by simp [bits]

theorem packetType_eq (p : List Scalar) : packetType p = packetWord p 0 % 16 := bits_zero _ 3

theorem pword_eq (p : List Scalar) (i : Nat) : pword p i = packetWord p i := rfl

theorem ite_bool {c : Prop} [Decidable c] (a b : Bool) : ((if c then a else b) = true) ↔ if c then a = true else b = true := by
  split <;> exact Iff.rfl

/-! ### Frames of a job -/

/-- A run that is not empty lies in the frames that it begins and ends in, and in those between. -/
theorem ownsRun_iff (s : State) (p a n : Nat) (hn : 0 < n) : ownsRun s p a n = true ↔ ownedRun s p a n := by
  simp only [ownsRun, ownedRun, framesOf, Config.frameBytes, List.all_eq_true, List.mem_range, beq_iff_eq]
  constructor
  · intro h k hk
    have := h ((a + k) / 65536 - a / 65536) (by omega)
    rwa [show a / 65536 + ((a + k) / 65536 - a / 65536) = (a + k) / 65536 by omega] at this
  · intro h k hk
    have := h (if k = 0 then 0 else 65536 * (a / 65536 + k) - a) (by split <;> omega)
    split at this
    · next hk => rwa [hk, Nat.add_zero]
    · rwa [show (a + (65536 * (a / 65536 + k) - a)) / 65536 = a / 65536 + k by omega] at this

theorem not_ownsRun_iff (s : State) (p a n : Nat) (hn : 0 < n) : (!ownsRun s p a n) = true ↔ ¬ ownedRun s p a n := by
  rw [← ownsRun_iff s p a n hn, Bool.not_eq_true', Bool.not_eq_true]

/-- Outside the job's frames, or outside queue SRAM. -/
theorem spaceBad_recordSpace (s : State) (p c a n : Nat) (hn : 0 < n) :
    spaceBad s p (recordSpace p c) a n = true ↔ outside s p c a n := by
  unfold recordSpace outside
  by_cases h1 : c = 1
  · simp only [h1, if_true, spaceBad, not_ownsRun_iff s p a n hn]; simp
  · by_cases h2 : c = 2
    · simp [h2, spaceBad]
    · by_cases h3 : c = 3
      · have hsram : decide (Config.queueSramBytes < a + n) = true ↔ 0x1000000 < a + n := decide_eq_true_iff
        simpa [h3, spaceBad] using hsram
      · simp [h1, h2, h3, spaceBad]

theorem spaceBad_qSpace (s : State) (p qcb a n : Nat) (hn : 0 < n) :
    spaceBad s p (some (qSpace s qcb)) a n = true ↔ outside s p (if qKind s qcb = 0 then 3 else 1) a n := by
  rw [← spaceBad_recordSpace s p _ a n hn, qSpace]
  split <;> rfl

/-! ### The checks of a launch packet -/

theorem word5Bad_iff (p : List Scalar) : word5Bad p = true ↔ bits (packetWord p 5) 63 50 ≠ 0 ∨ packetWord p 5 % 32 ≠ 0 := by
  simp only [word5Bad, Bool.or_eq_true, decide_eq_true_eq]
  exact Iff.rfl

theorem launchReserved_iff (p : List Scalar) :
    let w := packetWord p
    let f (i hi lo : Nat) : Nat := bits (w i) hi lo
    let nvar := f 0 28 27
    let nin := f 0 47 44
    launchReserved p = true ↔ f 0 63 48 ≠ 0 ∨ f 0 31 29 ≠ 0 ∨
      (∃ i, i < 3 ∧ if i < nvar then f (1 + i) 63 62 ≠ 0 ∨ w (1 + i) % 32 ≠ 0 else w (1 + i) ≠ 0) ∨ f 4 63 54 ≠ 0 ∨ w 4 % 8 ≠ 0 ∨
      f 5 63 50 ≠ 0 ∨ w 5 % 32 ≠ 0 ∨ f 6 63 48 ≠ 0 ∨ (f 0 26 24 = 0 ∧ w 6 ≠ 0) ∨
      (∃ i, i < 4 ∧ if i < nin then f (7 + i) 63 14 ≠ 0 else w (7 + i) ≠ 0) ∨ ∃ i, i < 4 ∧ w (11 + i) ≠ 0 := by
  simp only [launchReserved, Bool.or_eq_true, Bool.and_eq_true, decide_eq_true_eq, List.any_eq_true, List.mem_range, ite_bool,
    word5Bad_iff, or_assoc]
  exact Iff.rfl

/-- The origins that a dispatcher tries are those that R47 allows. -/
theorem mem_candidates (p : List Scalar) (o : Nat × Nat) : o ∈ candidates p ↔ originFits p o := by
  obtain ⟨x, y⟩ := o
  have hx : bits (packetWord p 0) 19 16 < 16 := bits_lt _ 19 16
  have hy : bits (packetWord p 0) 23 20 < 16 := bits_lt _ 23 20
  unfold candidates originFits
  dsimp only
  rw [pword_eq]
  generalize bits (packetWord p 0) 19 16 = ox at *
  generalize bits (packetWord p 0) 23 20 = oy at *
  generalize bits (packetWord p 0) 11 8 = w
  generalize bits (packetWord p 0) 15 12 = h
  split
  · next hfixed =>
    simp only [hfixed, forall_const, Prod.mk.injEq]
    split
    · next hfits =>
      simp only [Bool.and_eq_true, decide_eq_true_eq] at hfits
      simp only [List.mem_singleton, Prod.mk.injEq]
      constructor
      · rintro ⟨rfl, rfl⟩; exact ⟨⟨rfl, rfl⟩, rfl, rfl, hfits.1, hfits.2⟩
      · exact fun h => h.1
    · next hfits =>
      simp only [Bool.and_eq_true, decide_eq_true_eq] at hfits
      simp only [List.not_mem_nil, false_iff]
      rintro ⟨⟨rfl, rfl⟩, -, -, hw, hh⟩
      exact hfits ⟨hw, hh⟩
  · next hfloat =>
    simp only [hfloat, false_implies, true_and, List.mem_flatMap, List.mem_filterMap, List.mem_cons, List.not_mem_nil, or_false,
      Bool.and_eq_true, decide_eq_true_eq, Option.ite_none_right_eq_some, Option.some.injEq, Prod.mk.injEq]
    constructor
    · rintro ⟨b, hb, a, ha, ⟨hw, hh⟩, rfl, rfl⟩
      omega
    · rintro ⟨ha, hb, hw, hh⟩
      exact ⟨y, by omega, x, by omega, ⟨hw, hh⟩, rfl, rfl⟩

theorem candidates_isEmpty (p : List Scalar) : (candidates p).isEmpty = true ↔ ∀ o, ¬ originFits p o := by
  simp only [List.isEmpty_iff, List.eq_nil_iff_forall_not_mem, mem_candidates]

/-- No origin fits, read off the packet. -/
theorem noOrigin_iff (p : List Scalar) : (∀ o, ¬ originFits p o) ↔
    let f (hi lo : Nat) : Nat := bits (packetWord p 0) hi lo
    if f 6 6 = 1 then 16 < f 19 16 + (f 11 8 + 1) ∨ 16 < f 23 20 + (f 15 12 + 1)
    else ∀ ox oy, ox % 8 = f 19 16 % 8 → oy % 8 = f 23 20 % 8 → 16 < ox + (f 11 8 + 1) ∨ 16 < oy + (f 15 12 + 1) := by
  dsimp only [originFits]
  split
  · next hfixed =>
    constructor
    · intro h
      have := h (bits (packetWord p 0) 19 16, bits (packetWord p 0) 23 20)
      simp only [implies_true, true_and] at this
      omega
    · rintro h ⟨x, y⟩ ⟨ho, -, -, hw, hh⟩
      obtain ⟨rfl, rfl⟩ := Prod.mk.inj (ho hfixed)
      dsimp only at hw hh
      omega
  · next hfloat =>
    constructor
    · intro h ox oy hox hoy
      have := h (ox, oy)
      simp only [hfloat, false_implies, true_and, hox, hoy] at this
      omega
    · rintro h ⟨x, y⟩ ⟨-, hx, hy, hw, hh⟩
      have := h x y hx hy
      dsimp only at hw hh
      omega

theorem imageFits_iff (s : State) (w : Nat) : imageFits s w = true ↔ imageThere s w := Mem.fits_iff _ _ _ _

/-- A variant of a packet, by its number. -/
theorem exists_variant (n : Nat) (f : Nat → Prop) : (∃ k, k < n ∧ f (k + 1)) ↔ ∃ k, 1 ≤ k ∧ k ≤ n ∧ f k := by
  constructor
  · rintro ⟨k, hk, h⟩; exact ⟨k + 1, by omega, by omega, h⟩
  · rintro ⟨k, h1, hk, h⟩; exact ⟨k - 1, by omega, by rwa [Nat.sub_add_cancel h1]⟩

theorem variantsBad_iff (s : State) (p : List Scalar) :
    let w := packetWord p
    let f (i hi lo : Nat) : Nat := bits (w i) hi lo
    variantsBad s p = true ↔ f 0 28 27 = 0 ∨ ∃ k, 1 ≤ k ∧ k ≤ f 0 28 27 ∧
      (f k 49 48 = 3 ∨ f k 61 50 = 0 ∨ 3072 < f k 61 50 ∨
        (imageThere s (w k) ∧ imageThere s (w 1) ∧ imageSegments s (w k) ≠ imageSegments s (w 1))) := by
  dsimp only
  rw [← exists_variant (bits (packetWord p 0) 28 27) fun k => bits (packetWord p k) 49 48 = 3 ∨ bits (packetWord p k) 61 50 = 0 ∨
    3072 < bits (packetWord p k) 61 50 ∨ (imageThere s (packetWord p k) ∧ imageThere s (packetWord p 1) ∧
      imageSegments s (packetWord p k) ≠ imageSegments s (packetWord p 1))]
  simp only [variantsBad, Bool.or_eq_true, Bool.and_eq_true, decide_eq_true_eq, List.any_eq_true, List.mem_map, List.mem_range,
    imageFits_iff, bne_iff_ne, exists_exists_and_eq_and, or_assoc, and_assoc, ← exists_or, ← and_or_left]
  exact Iff.rfl

theorem inUse_iff (x : Node) : x.inUse = true ↔ x.life ≠ .free := by simp [Node.inUse]

theorem sourceBad_iff (s : State) (p q : Nat) : sourceBad s p q = true ↔
    ¬ ((s.node q).owner = some p ∧ ((s.node q).life ≠ .free ∨ (tget none (s.node q).last p).isSome = true)) := by
  simp only [sourceBad, Bool.not_eq_true', Bool.and_eq_false_iff, Bool.or_eq_false_iff, decide_eq_false_iff_not, ← inUse_iff, not_and_or,
    not_or, Bool.not_eq_true]

theorem any_packetEdges (p : List Scalar) (f : Nat → Bool) : (packetEdges p).any f = true ↔
    ∃ i, i < min (bits (packetWord p 0) 47 44) 4 ∧ f (packetWord p (7 + i)) = true := by
  simp only [packetEdges, List.any_map, List.any_eq_true, List.mem_range, Function.comp, pword_eq]

/-- The addresses of a launch packet whose variants have bundles. -/
theorem launchAddress_iff (s : State) (t : Thread) (job : Nat) (hsize : ∀ k, 1 ≤ k → k ≤ bits (packetWord t.packet 0) 28 27 →
      bits (packetWord t.packet k) 61 50 ≠ 0) :
    let f (i hi lo : Nat) : Nat := bits (packetWord t.packet i) hi lo
    launchAddress s t job = true ↔ (∃ k, 1 ≤ k ∧ k ≤ f 0 28 27 ∧ ¬ ownedRun s job (f k 47 0) (32 * f k 61 50)) ∨
      (0 < f 4 53 48 ∧ outside s job (if qKind s t.qcb = 0 then 3 else 1) (f 4 47 0) (8 * f 4 53 48)) ∨ outside s job (f 5 49 48) (f 5 47 0) 32 := by
  intro f
  have himages : ((List.range (variantCount t.packet)).any fun k =>
      !ownsRun s job (variantImage (pword t.packet (k + 1))) (32 * variantSize (pword t.packet (k + 1)))) = true ↔
      ∃ k, 1 ≤ k ∧ k ≤ f 0 28 27 ∧ ¬ ownedRun s job (f k 47 0) (32 * f k 61 50) := by
    rw [← exists_variant (f 0 28 27) fun k => ¬ ownedRun s job (f k 47 0) (32 * f k 61 50), List.any_eq_true]
    refine exists_congr fun k => ?_
    rw [List.mem_range]
    refine and_congr_right fun hk => not_ownsRun_iff _ _ _ _ ?_
    have := hsize (k + 1) (by omega) hk
    exact Nat.mul_pos (by decide) (Nat.pos_of_ne_zero this)
  have hargs : (decide (0 < bits (pword t.packet 4) 53 48) &&
      spaceBad s job (some (qSpace s t.qcb)) (bits (pword t.packet 4) 47 0) (8 * bits (pword t.packet 4) 53 48)) = true ↔
      0 < f 4 53 48 ∧ outside s job (if qKind s t.qcb = 0 then 3 else 1) (f 4 47 0) (8 * f 4 53 48) := by
    rw [Bool.and_eq_true, decide_eq_true_eq]
    exact and_congr_right fun hn => spaceBad_qSpace _ _ _ _ _ (Nat.mul_pos (by decide) hn)
  unfold launchAddress
  dsimp only
  rw [Bool.or_eq_true, Bool.or_eq_true, himages, hargs, spaceBad_recordSpace s job _ _ 32 (by decide), or_assoc]
  rfl

/-- A launch packet is rejected with the code of its first cause. -/
theorem launchError_first (s : State) (y : Thread) : FirstOf (Claims.launchChecks s y) (launchError s y) := by
  unfold Claims.launchChecks launchError
  refine firstOf_cons (by rw [packetType_eq]) fun _ => firstOf_cons (launchReserved_iff _) fun _ => firstOf_cons Iff.rfl fun _ =>
    firstOf_cons ((candidates_isEmpty _).trans (noOrigin_iff _)) fun _ => firstOf_cons (variantsBad_iff _ _) fun hvariants =>
    firstOf_cons Iff.rfl fun _ => firstOf_cons ?owner fun _ => firstOf_cons ?source fun _ => firstOf_cons ?address fun _ =>
    firstOf_cons Iff.rfl fun _ => rfl
  case owner =>
    rw [Bool.or_eq_true, Bool.or_eq_true, decide_eq_true_eq, Bool.not_eq_true', inUse_iff, or_assoc]
    rfl
  case source =>
    simp only [any_packetEdges, sourceBad_iff]
  case address =>
    exact launchAddress_iff s y _ fun k h1 hk hzero => hvariants (.inr ⟨k, h1, hk, .inr (.inl hzero)⟩)

/-! ### The checks of a wait packet -/

theorem waitError_first (s : State) (y : Thread) : FirstOf (Claims.waitChecks s y) (waitError s y) := by
  unfold Claims.waitChecks waitError
  refine firstOf_cons ?reserved fun _ => firstOf_cons ?address fun _ => firstOf_cons ?op fun _ => rfl
  case reserved =>
    simp only [Bool.or_eq_true, decide_eq_true_eq, word5Bad_iff, List.any_eq_true, or_assoc]
    refine or_congr_right (or_congr_right (or_congr_right (or_congr_right (or_congr_right ?_))))
    constructor
    · rintro ⟨i, hi, h⟩
      simp only [List.mem_cons, List.not_mem_nil, or_false] at hi
      rcases hi with rfl | rfl | hi
      · exact .inl h
      · exact .inr (.inl h)
      · exact .inr (.inr ⟨i, by omega, by omega, h⟩)
    · rintro (h | h | ⟨i, h6, h15, h⟩)
      · exact ⟨3, by simp, h⟩
      · exact ⟨4, by simp, h⟩
      · exact ⟨i, by simp only [List.mem_cons]; omega, h⟩
  case address =>
    rw [Bool.or_eq_true, Bool.or_eq_true, decide_eq_true_eq, spaceBad_recordSpace s _ _ _ 8 (by decide),
      spaceBad_recordSpace s _ _ _ 32 (by decide), or_assoc]
    rfl
  case op =>
    rw [Bool.or_eq_true, decide_eq_true_eq, decide_eq_true_eq]
    rfl

end Sys2Proof.Machine
end

section
/-! PROOFS. What the Lockkeeper does with a packet: a slot taken, a packet rejected, cancelled before it ran or entered at its node, and a wait (R259, R267
to R275, R280). -/

namespace Sys2Proof.Machine

open Claims (threadAt wordAt there packetWord)

/-! ### Steps of the Lockkeeper -/

theorem reaching_next (s : State) (ok : Bool) (f : State → State) (hc : controlRuns s = true) (hok : ok = true) :
    reaching s ok f = .next (f s) := by simp [reaching, controlled, fitted, hc, hok]

theorem reaching_stops (s : State) (ok : Bool) (f : State → State) (hc : controlRuns s = true) (hok : ok = false) :
    reaching s ok f = .fault .noSuchFrame := by simp [reaching, fitted, hc, hok]

theorem controlled_next (s : State) (f : State → State) (hc : controlRuns s = true) : controlled s f = .next (f s) := by
  simp [controlled, hc]

/-! ### Threads -/

theorem threads_of_wf (s : State) (h : Safety.wf s = true) : twf {} s.lk.threads = true := by
  simp only [Safety.wf, Bool.and_eq_true] at h
  tauto

theorem mem_of_wf (s : State) (h : Safety.wf s = true) : Memory.wf s.mem = true := by
  simp only [Safety.wf, Bool.and_eq_true] at h
  tauto

theorem threadAt_setThread (s : State) (n m : Nat) (t : Thread) (h : twf {} s.lk.threads = true) :
    threadAt (setThread s n t) m = if m = n then t else threadAt s m := tget_tset _ _ _ _ _ h

/-- The threads, the clock and the platform are those of before. -/
def SameThreads (s t : State) : Prop := t.lk.threads = s.lk.threads ∧ t.clock = s.clock ∧ t.platform = s.platform

theorem Stores.sameThreads {s t : State} (h : Stores s t) : SameThreads s t := by
  obtain ⟨_, _, _, _, _, rfl⟩ := h
  exact ⟨rfl, rfl, rfl⟩

theorem SameThreads.trans {s t u : State} (h : SameThreads s t) (k : SameThreads t u) : SameThreads s u :=
  ⟨k.1.trans h.1, k.2.1.trans h.2.1, k.2.2.trans h.2.2⟩

theorem SameThreads.threadAt_eq {s t : State} (h : SameThreads s t) (n : Nat) : threadAt t n = threadAt s n := by
  rw [threadAt, h.1, threadAt]

/-- A thread as it goes on to the next index of its ring. -/
def Thread.goesOn (t : Thread) (clock halves : Nat) : Thread :=
  { t with act := .taking, packet := [], idleSince := clock, servedAt := halves }

theorem threadAt_nextIndex {s u : State} (h : SameThreads s u) (hw : twf {} s.lk.threads = true) (n : Nat) :
    threadAt (nextIndex u n) n = (threadAt s n).goesOn s.clock s.platform.halves := by
  obtain ⟨hthreads, hclock, hplatform⟩ := h
  have hset : threadAt (nextIndex u n) n = (threadAt u n).goesOn u.clock u.platform.halves := by
    rw [nextIndex, mapThread, threadAt_setThread u n n _ (by rw [hthreads]; exact hw), if_pos rfl]
    rfl
  rw [hset, SameThreads.threadAt_eq ⟨hthreads, hclock, hplatform⟩, hclock, hplatform]

theorem node_nextIndex (s : State) (n k : Nat) : (nextIndex s n).node k = s.node k := rfl

theorem holdsPacket_iff (s : State) (n : Nat) (f : Nat → Bool) :
    holdsPacket s n f = true ↔ (threadAt s n).act = .packet ∧ f (packetWord (threadAt s n).packet 0 % 16) = true := by
  rw [holdsPacket, Bool.and_eq_true, decide_eq_true_eq, packetType_eq]
  rfl

/-! ### A slot is taken (R267) -/

/-- A published slot within K, with all that it reaches there, is copied. -/
theorem execSlotTake_takes (n : Nat) (s : State) (hc : controlRuns s = true) (hu : s.mem.unfenced = [])
    (hact : (threadAt s n).act = .taking) (hkick : (threadAt s n).ridx < (threadAt s n).kick)
    (hseq : (wordAt s (qSpace s (threadAt s n).qcb) (ringSlot s (threadAt s n).qcb (threadAt s n).ridx + 120)).toNat = (threadAt s n).ridx)
    (hqcb : there s .reservoir (threadAt s n).qcb 64)
    (hslot : there s (qSpace s (threadAt s n).qcb) (ringSlot s (threadAt s n).qcb (threadAt s n).ridx) 128)
    (hridx : there s (qSpace s (threadAt s n).qcb) (ridxAddr s (threadAt s n).qcb) 8) :
    let y := threadAt s n
    let u := s.writeSpaceWord (qSpace s y.qcb) (ridxAddr s y.qcb) (BitVec.ofNat 64 (y.ridx + 1))
    execSlotTake n s = .next (setThread u n (served u { y with
      act := .packet, ridx := y.ridx + 1,
      packet := (List.range 15).map fun i => wordAt s (qSpace s y.qcb) (ringSlot s y.qcb y.ridx + 8 * i) })) := by
  intro y u
  have hy : threadOf s n = y := rfl
  have hdue : (decide (y.act = .taking) && decide (y.ridx < y.kick)) = true := by simp [y, hact, hkick]
  have hfits : (qcbFits s y.qcb && s.mem.fits (qSpace s y.qcb) (ringSlot s y.qcb y.ridx) 128 &&
      s.mem.fits (qSpace s y.qcb) (ridxAddr s y.qcb) 8) = true := by
    simp only [Bool.and_eq_true, qcbFits, Mem.fits_iff]
    exact ⟨⟨fun _ => hqcb rfl, hslot⟩, hridx⟩
  have hpublished : ((wordAt s (qSpace s y.qcb) (ringSlot s y.qcb y.ridx + 120)).toNat == y.ridx) = true := beq_iff_eq.mpr hseq
  simp only [execSlotTake, hy]
  rw [reaching_next s _ _ hc (by rw [hfits, Bool.or_true]), if_pos hdue, readSpaceWord_visible s _ _ hu, if_pos hpublished,
    readSpaceWords_visible s _ _ _ hu]

/-! ### Rejected and cancelled packets (R268, R280) -/

/-- A state whose memories are those after a record has been written holds the words of the record. -/
theorem wordAt_record (s t : State) (job : Nat) (p : List Scalar) (ws : List Nat) (h : Memory.wf s.mem = true)
    (ht : t.mem = (writeRecord s job p ws).mem) (i : Nat) (hi : i < ws.length) (sp : MemSpace)
    (hsp : recordSpace job (bits (packetWord p 5) 49 48) = some sp) (ha : there s sp (bits (packetWord p 5) 47 0) 32) :
    wordAt t sp (bits (packetWord p 5) 47 0 + 8 * i) = BitVec.ofNat 64 (ws.getD i 0) := by
  rw [← wordAt_writeRecord s job p ws sp h hsp ha i hi, wordAt_eq, wordAt_eq, ht]
  rfl

theorem launchHere_rejects (s : State) (n : Nat) (h0 : launchError s (threadAt s n) ≠ 0)
    (h7 : launchError s (threadAt s n) = 7 → waitsForNode s (threadAt s n) = false) :
    launchHere s n = reject s n (launchError s (threadAt s n)) := by
  have hy : threadOf s n = threadAt s n := rfl
  rw [launchHere, hy]
  split
  · next h => exact absurd h h0
  · next h => rw [h7 h, h]; rfl
  · rfl

theorem launchHere_waits (s : State) (n : Nat) (h7 : launchError s (threadAt s n) = 7) (hw : waitsForNode s (threadAt s n) = true) :
    launchHere s n = s := by
  have hy : threadOf s n = threadAt s n := rfl
  rw [launchHere, hy]
  simp only [h7, hw, if_true]

theorem launchHere_enters (s : State) (n : Nat) (h0 : launchError s (threadAt s n) = 0) (hp : pendingCancel s (threadAt s n) = none) :
    launchHere s n = enterLaunch s n := by
  have hy : threadOf s n = threadAt s n := rfl
  rw [launchHere, hy]
  simp only [h0, hp]

theorem launchHere_cancels (s : State) (n : Nat) (c : Nat × Nat × Nat) (h0 : launchError s (threadAt s n) = 0)
    (hp : pendingCancel s (threadAt s n) = some c) :
    launchHere s n = cancelPacket (s.mapLk fun l => { l with cancels := l.cancels.filter fun d => d != c }) n c.2.2 := by
  have hy : threadOf s n = threadAt s n := rfl
  rw [launchHere, hy]
  simp only [h0, hp]

theorem not_and_zero_of_ite {c : Prop} [Decidable c] {k e : Nat} (hk : k ≠ 0) (h : (if c then k else e) = 0) : ¬ c ∧ e = 0 := by
  split at h
  · exact absurd h hk
  · exact ⟨‹_›, h⟩

/-- An accepted launch has a place for each of its edges, its node is of the job of its queue, and that node is free. -/
theorem launchError_zero (s : State) (y : Thread) (h : launchError s y = 0) :
    bits (packetWord y.packet 0) 47 44 ≤ 4 ∧ (s.node (packetNode y.packet)).owner = some (qPasid s y.qcb) ∧
      (s.node (packetNode y.packet)).life = .free := by
  unfold launchError at h
  obtain ⟨-, h⟩ := not_and_zero_of_ite (by decide) h
  obtain ⟨-, h⟩ := not_and_zero_of_ite (by decide) h
  obtain ⟨-, h⟩ := not_and_zero_of_ite (by decide) h
  obtain ⟨-, h⟩ := not_and_zero_of_ite (by decide) h
  obtain ⟨-, h⟩ := not_and_zero_of_ite (by decide) h
  obtain ⟨-, h⟩ := not_and_zero_of_ite (by decide) h
  obtain ⟨hnode, h⟩ := not_and_zero_of_ite (by decide) h
  obtain ⟨-, h⟩ := not_and_zero_of_ite (by decide) h
  obtain ⟨-, h⟩ := not_and_zero_of_ite (by decide) h
  obtain ⟨hedges, -⟩ := not_and_zero_of_ite (by decide) h
  rw [Bool.or_eq_true, Bool.or_eq_true, decide_eq_true_eq, Bool.not_eq_true', not_or, not_or, Node.inUse, decide_eq_true_eq] at hnode
  exact ⟨Nat.not_lt.mp hedges, not_not.mp hnode.1.1, not_not.mp hnode.2⟩

/-- A rejected packet leaves the nodes, and the thread goes on. -/
theorem reject_rejects (s : State) (n err : Nat) (hw : twf {} s.lk.threads = true) :
    threadAt (reject s n err) n = (threadAt s n).goesOn s.clock s.platform.halves ∧ (reject s n err).lk.nodes = s.lk.nodes ∧
      (reject s n err).mem = (writeRecord s (qPasid s (threadAt s n).qcb) (threadAt s n).packet (recordWords err false 0 3 0 0 0 0 0)).mem := by
  have hstores := stores_writeRecord s (qPasid s (threadAt s n).qcb) (threadAt s n).packet (recordWords err false 0 3 0 0 0 0 0)
  refine ⟨threadAt_nextIndex hstores.sameThreads hw n, ?_, rfl⟩
  obtain ⟨_, _, _, _, _, hrec⟩ := hstores
  show (writeRecord s (qPasid s (threadAt s n).qcb) (threadAt s n).packet (recordWords err false 0 3 0 0 0 0 0)).lk.nodes = _
  rw [hrec]

/-- What a launch packet that meets a cancel leaves. -/
structure Cancelled (s : State) (n c : Nat) (t : State) : Prop where
  thread : threadAt t n = (threadAt s n).goesOn s.clock s.platform.halves
  cancels : t.lk.cancels = s.lk.cancels
  order : t.lk.order = s.lk.order
  gangs : t.gangs = s.gangs
  mem : t.mem = (writeRecord s (qPasid s (threadAt s n).qcb) (threadAt s n).packet (recordWords 0 true 2 2 0 0 0 0 c)).mem
  msix : t.lk.msix = s.lk.msix ++ if (packetWord (threadAt s n).packet 0).testBit 7 then [bits (qcbWord t (threadAt s n).qcb 0) 45 40] else []
  node : t.node (packetNode (threadAt s n).packet) = (s.node (packetNode (threadAt s n).packet)).freed .tainted

theorem cancelPacket_cancelled (s : State) (n c : Nat) (hw : twf {} s.lk.threads = true) (hn : twf {} s.lk.nodes = true)
    (hfree : (s.node (packetNode (threadAt s n).packet)).life = .free) : Cancelled s n c (cancelPacket s n c) := by
  have hstores := stores_writeRecord s (qPasid s (threadAt s n).qcb) (threadAt s n).packet (recordWords 0 true 2 2 0 0 0 0 c)
  have hin : (s.node (packetNode (threadAt s n).packet)).inUse = false := by simp [Node.inUse, hfree]
  have hy : threadOf s n = threadAt s n := rfl
  rw [cancelPacket, cancelEntry, hy]
  generalize hu : writeRecord s (qPasid s (threadAt s n).qcb) (threadAt s n).packet (recordWords 0 true 2 2 0 0 0 0 c) = u at hstores
  obtain ⟨co, ts, js, m, rs, rfl⟩ := hstores
  have hset (v : State) (hv : v.lk.nodes = s.lk.nodes) (i : Nat) : (nextIndex (v.mapNode (packetNode (threadAt s n).packet) fun x =>
      if x.inUse then x else x.freed .tainted) i).node (packetNode (threadAt s n).packet) =
      (s.node (packetNode (threadAt s n).packet)).freed .tainted := by
    rw [node_nextIndex, node_mapNode _ _ _ _ (by rw [hv]; exact hn), if_pos rfl, State.node, hv, ← State.node, hin]
    rfl
  dsimp only
  split
  · next hirq =>
    have hirq' : (packetWord (threadAt s n).packet 0).testBit 7 = true := hirq
    exact ⟨threadAt_nextIndex (s := s) ⟨rfl, rfl, rfl⟩ hw n, rfl, rfl, rfl, by rw [hu]; rfl, by rw [if_pos hirq']; rfl, hset _ rfl n⟩
  · next hirq =>
    have hirq' : ¬ (packetWord (threadAt s n).packet 0).testBit 7 = true := hirq
    exact ⟨threadAt_nextIndex (s := s) ⟨rfl, rfl, rfl⟩ hw n, rfl, rfl, rfl, by rw [hu]; rfl, by rw [if_neg hirq', List.append_nil]; rfl, hset _ rfl n⟩

/-! ### A launch is entered at its node (R269, R273 to R275) -/

theorem mem_of_tget_ne {α : Type} (d : α) (t : Table α) (k : Nat) (h : tget d t k ≠ d) : (k, tget d t k) ∈ t := by
  induction t with
  | nil => exact absurd rfl h
  | cons c t ih =>
    obtain ⟨i, v⟩ := c
    simp only [tget] at h ⊢
    split
    · next hk => exact hk ▸ List.mem_cons_self
    · next hk =>
      rw [if_neg hk] at h
      exact List.mem_cons_of_mem _ (ih h)

/-- Only nodes, and the next number of a graph, are others. -/
def NodesAlone (s t : State) : Prop := ∃ ns g, t = { s with lk := { s.lk with nodes := ns, nextGraph := g } }

theorem NodesAlone.refl (s : State) : NodesAlone s s := ⟨_, _, rfl⟩

theorem NodesAlone.trans {s t u : State} (h : NodesAlone s t) (k : NodesAlone t u) : NodesAlone s u := by
  obtain ⟨_, _, rfl⟩ := h
  obtain ⟨_, _, rfl⟩ := k
  exact ⟨_, _, rfl⟩

/-- Nodes that are changed in turn, each graph by `h`: a second change of a graph is the first again. -/
theorem foldl_mapNode_graph {β : Type} (key : β → Nat) (f : Node → Node) (h : Nat → Nat) (hf : ∀ x, (f x).graph = h x.graph)
    (hh : ∀ a, h (h a) = h a) (xs : List β) (s : State) (hw : twf {} s.lk.nodes = true) :
    let t := xs.foldl (fun s x => s.mapNode (key x) f) s
    NodesAlone s t ∧ twf {} t.lk.nodes = true ∧
      ∀ m, (t.node m).graph = if m ∈ xs.map key then h (s.node m).graph else (s.node m).graph := by
  induction xs generalizing s with
  | nil => exact ⟨.refl s, hw, fun m => (if_neg (List.not_mem_nil)).symm⟩
  | cons x xs ih =>
    obtain ⟨halone, hwf, hgraph⟩ := ih (s.mapNode (key x) f) (twf_tset _ _ _ _ hw)
    refine ⟨.trans ⟨_, _, rfl⟩ halone, hwf, fun m => ?_⟩
    rw [List.foldl_cons, hgraph m, node_mapNode _ _ _ _ hw, List.map_cons]
    by_cases hx : m = key x
    · subst hx; simp [hf, hh]
    · simp [hx]

/-- A launch and its sources are in one graph. -/
structure Joined (s : State) (k : Nat) (srcs : List Nat) (t : State) : Prop where
  alone : NodesAlone s t
  wf : twf {} t.lk.nodes = true
  sources : ∀ m ∈ srcs, (s.node m).graph ≠ 0 → (t.node m).graph = (t.node k).graph

theorem joinGraphs_joined (s : State) (k : Nat) (srcs : List Nat) (hw : twf {} s.lk.nodes = true) : Joined s k srcs (joinGraphs s k srcs) := by
  unfold joinGraphs
  extract_lets g gs ns
  obtain ⟨halone, hwf, hgraph⟩ := foldl_mapNode_graph (fun m => m) (fun x => { x with graph := g }) (fun _ => g) (fun _ => rfl) (fun _ => rfl)
    (k :: ns) (s.mapLk fun l => { l with nextGraph := g + 1 }) hw
  rw [List.map_id'] at hgraph
  refine ⟨.trans ⟨_, _, rfl⟩ halone, hwf, fun m hm hgr => ?_⟩
  have hlisted : m ∈ ns := by
    have hmem : (m, s.node m) ∈ s.lk.nodes := mem_of_tget_ne _ _ _ fun h => hgr (by rw [State.node, h])
    refine List.mem_map.mpr ⟨_, List.mem_filter.mpr ⟨hmem, ?_⟩, rfl⟩
    simp only [List.contains_eq_mem, decide_eq_true_eq]
    exact List.mem_filter.mpr ⟨List.mem_map.mpr ⟨m, hm, rfl⟩, by simpa using hgr⟩
  rw [hgraph m, hgraph k, if_pos (List.mem_cons_of_mem _ hlisted), if_pos List.mem_cons_self]

/-- Sources that have satisfied an early edge stay in their graphs. -/
theorem Joined.foldl_gaveEarly {s t : State} {k : Nat} {srcs : List Nat} (h : Joined s k srcs t) (es : List Edge) :
    Joined s k srcs (es.foldl (fun s e => s.mapNode e.src fun x => { x with gaveEarly := true }) t) := by
  obtain ⟨halone, hwf, hgraph⟩ := foldl_mapNode_graph Edge.src (fun x => { x with gaveEarly := true }) id (fun _ => rfl) (fun _ => rfl) es t h.wf
  simp only [id_eq, ite_self] at hgraph
  exact ⟨h.alone.trans halone, hwf, fun m hm hgr => by rw [hgraph, hgraph, h.sources m hm hgr]⟩

/-- How an edge of a packet of job `p` stands as its launch is entered (R35, R275). -/
structure EdgeStands (s : State) (p w : Nat) (e : Edge) : Prop where
  src : e.src = w % 4096
  early : e.early = w.testBit 12
  pass : e.pass = w.testBit 13
  inUse : (s.node (w % 4096)).life ≠ .free → e.satisfied = (e.early && (s.node (w % 4096)).earlyDone) ∧ e.blocked = false ∧ e.final = false
  complete : (s.node (w % 4096)).life = .free →
    (e.satisfied = true ↔ e.pass = true ∨ tget none (s.node (w % 4096)).last p ≠ some .tainted) ∧ e.blocked = !e.satisfied ∧ e.final = true

theorem lastOf_eq_tainted (x : Node) (p : Nat) : lastOf x p = .tainted ↔ tget none x.last p = some .tainted := by
  rw [lastOf]
  cases tget none x.last p <;> simp

theorem newEdge_stands (s : State) (p w : Nat) : EdgeStands s p w (newEdge s p w) := by
  unfold newEdge
  dsimp only
  split
  · next huse =>
    rw [inUse_iff] at huse
    exact ⟨rfl, rfl, rfl, fun _ => ⟨rfl, rfl, rfl⟩, fun h => absurd h huse⟩
  · next huse =>
    rw [inUse_iff, not_not] at huse
    refine ⟨rfl, rfl, rfl, fun h => absurd huse h, fun _ => ⟨?_, rfl, rfl⟩⟩
    show (w.testBit 13 || decide (lastOf (s.node (w % 4096)) p ≠ .tainted)) = true ↔ w.testBit 13 = true ∨ _
    rw [Bool.or_eq_true, decide_eq_true_eq, ne_eq, lastOf_eq_tainted]

/-- A node as it becomes ready. -/
def Node.readied (x : Node) (clock : Nat) : Node :=
  { x with life := .ready, readyAt := clock, prio := bits (pword x.packet 0) 5 4, reserved := false, waited := 0 }

theorem becomeReady_readied (s : State) (k : Nat) (h : (decide ((s.node k).life = .waiting) && (s.node k).satisfied) = true) :
    becomeReady s k = (s.mapNode k fun x => x.readied s.clock).mapLk fun l => { l with order := l.order ++ [k] } := if_pos h

/-- A waiting node after the check for readiness: it is ready and in the order, or it waits for an edge. -/
theorem becomeReady_waiting (s : State) (k : Nat) (hw : twf {} s.lk.nodes = true) (hlife : (s.node k).life = .waiting) :
    let t := becomeReady s k
    (((t.node k).life = .ready ∧ (t.node k).edges.all Edge.satisfied = true ∧ k ∈ t.lk.order) ∨
      ((t.node k).life = .waiting ∧ (t.node k).edges.all Edge.satisfied = false)) ∧
    (t.node k).packet = (s.node k).packet ∧ (t.node k).args = (s.node k).args ∧ (t.node k).edges = (s.node k).edges ∧
    (∀ m, (t.node m).graph = (s.node m).graph) ∧ t.lk.threads = s.lk.threads ∧ t.mem = s.mem := by
  by_cases hready : (s.node k).edges.all Edge.satisfied = true
  · rw [becomeReady_readied s k (by rw [hlife, Node.satisfied, hready]; rfl)]
    have hnode (m : Nat) : ((s.mapNode k fun x => x.readied s.clock).mapLk fun l => { l with order := l.order ++ [k] }).node m =
        if m = k then (s.node k).readied s.clock else s.node m := node_mapNode s k m (fun x => x.readied s.clock) hw
    have hk := (hnode k).trans (if_pos rfl)
    dsimp only
    rw [hk]
    refine ⟨.inl ⟨rfl, hready, List.mem_append_right _ (List.mem_singleton.mpr rfl)⟩, rfl, rfl, rfl, fun m => ?_, rfl, rfl⟩
    rw [hnode]
    split
    · next hm => rw [hm]; rfl
    · rfl
  · have hsame : becomeReady s k = s := if_neg (by rw [Bool.and_eq_true]; exact fun h => hready h.2)
    rw [hsame]
    exact ⟨.inr ⟨hlife, Bool.eq_false_iff.mpr hready⟩, rfl, rfl, rfl, fun _ => rfl, rfl, rfl⟩

/-- A node as a launch is entered there. -/
def Node.launched (x : Node) (p args : List Scalar) (qcb : Nat) (es : List Edge) (vec : Nat) (v : Verdict) : Node :=
  { x with life := .waiting, packet := p, args := args, slotQueue := qcb, edges := es, vec := vec, verdict := v, inherited := v }

/-- What a launch packet of thread `n` leaves once it is entered at its node. -/
structure Entered (s : State) (n : Nat) (t : State) : Prop where
  packet : (t.node (packetNode (threadAt s n).packet)).packet = (threadAt s n).packet
  args : (t.node (packetNode (threadAt s n).packet)).args = (packetArgs s (threadAt s n)).1
  edges : (t.node (packetNode (threadAt s n).packet)).edges =
    (packetEdges (threadAt s n).packet).map (newEdge s (qPasid s (threadAt s n).qcb))
  life : let z := t.node (packetNode (threadAt s n).packet)
    (z.life = .ready ∧ z.edges.all Edge.satisfied = true ∧ packetNode (threadAt s n).packet ∈ t.lk.order) ∨
      (z.life = .waiting ∧ z.edges.all Edge.satisfied = false)
  graphs : ∀ w ∈ packetEdges (threadAt s n).packet, (s.node (w % 4096)).graph ≠ 0 →
    (t.node (w % 4096)).graph = (t.node (packetNode (threadAt s n).packet)).graph
  thread : threadAt t n = (threadAt s n).goesOn s.clock s.platform.halves
  mem : t.mem = s.mem

theorem enterLaunch_entered (s : State) (n : Nat) (hw : twf {} s.lk.threads = true) (hn : twf {} s.lk.nodes = true)
    (hu : s.mem.unfenced = []) : Entered s n (enterLaunch s n) := by
  have hy : threadOf s n = threadAt s n := rfl
  have hargs : (packetArgs s (threadAt s n)).2 = s := by rw [packetArgs, readSpaceWords_visible s _ _ _ hu]
  unfold enterLaunch
  rw [hy]
  extract_lets y p k job es v args u w z
  have hj : Joined s k ((packetEdges p).map fun w => w % 4096) w :=
    (show Joined s k _ u from hargs.symm ▸ joinGraphs_joined s k _ hn).foldl_gaveEarly _
  have hz (m : Nat) : (nextIndex z n).node m = if m = k then (w.node k).launched p args.1 y.qcb es (qVec w y.qcb) v else w.node m :=
    node_mapNode w k m (fun x => x.launched p args.1 y.qcb es (qVec w y.qcb) v) hj.wf
  have hk := hz k
  rw [if_pos rfl] at hk
  have hgraph (m : Nat) : ((nextIndex z n).node m).graph = (w.node m).graph := by
    rw [hz]
    split
    · next hm => rw [hm]; rfl
    · rfl
  have hsame : SameThreads s z ∧ z.mem = s.mem := by
    obtain ⟨ns, g, hw'⟩ := hj.alone
    exact ⟨⟨by simp only [z, hw']; rfl, by simp only [z, hw']; rfl, by simp only [z, hw']; rfl⟩, by simp only [z, hw']; rfl⟩
  obtain ⟨hlife, hpacket, hargs', hedges, hgraphs, hthreads, hmem⟩ :=
    becomeReady_waiting (nextIndex z n) k (twf_tset _ _ _ _ hj.wf) (by rw [hk]; rfl)
  refine ⟨hpacket.trans (by rw [hk]; rfl), hargs'.trans (by rw [hk]; rfl), hedges.trans (by rw [hk]; rfl), hlife, fun w hmem hgr => ?_, ?_, hmem.trans hsame.2⟩
  · rw [hgraphs, hgraphs, hgraph, hgraph]
    exact hj.sources _ (List.mem_map.mpr ⟨w, hmem, rfl⟩) hgr
  · rw [threadAt, hthreads, ← threadAt]
    exact threadAt_nextIndex hsame.1 hw n

/-! ### The packets' operations (R267, R268, R272, R273) -/

/-- The arguments of a launch packet are there (R2). -/
def ArgsThere (s : State) (y : Thread) : Prop :=
  bits (packetWord y.packet 4) 53 48 = 0 ∨ there s (qSpace s y.qcb) (bits (packetWord y.packet 4) 47 0) (8 * bits (packetWord y.packet 4) 53 48)

theorem argsFit_iff (s : State) (y : Thread) : argsFit s y = true ↔ ArgsThere s y := by
  unfold argsFit ArgsThere
  dsimp only
  rw [Bool.or_eq_true, decide_eq_true_eq, Mem.fits_iff]
  exact Iff.rfl

/-- What a launch packet reaches when it is entered is there: its arguments. -/
theorem launchFits_enters (s : State) (n : Nat) (h0 : launchError s (threadAt s n) = 0) (hp : pendingCancel s (threadAt s n) = none) :
    launchFits s n = true ↔ ArgsThere s (threadAt s n) := by
  rw [← argsFit_iff, launchFits, show threadOf s n = threadAt s n from rfl, h0, hp]
  simp

theorem launchFits_other (s : State) (n : Nat) (h : launchError s (threadAt s n) ≠ 0 ∨ ∃ c, pendingCancel s (threadAt s n) = some c) :
    launchFits s n = true := by
  rw [launchFits, show threadOf s n = threadAt s n from rfl]
  obtain h | ⟨c, h⟩ := h <;> simp [h]

theorem holdsPacket_false (s : State) (n : Nat) (f : Nat → Bool) (h : f (packetWord (threadAt s n).packet 0 % 16) = false) :
    holdsPacket s n f = false := by
  rw [Bool.eq_false_iff, ne_eq, holdsPacket_iff, h]
  simp

/-- A launch packet, or one of a type that is rejected, is looked at once what it reaches is there. -/
theorem execLaunchPacket_runs (s : State) (n : Nat) (hc : controlRuns s = true) (hact : (threadAt s n).act = .packet)
    (hkind : packetWord (threadAt s n).packet 0 % 16 = 1 ∨ 3 ≤ packetWord (threadAt s n).packet 0 % 16)
    (hfits : packetWord (threadAt s n).packet 0 % 16 = 1 → launchFits s n = true) : execLaunchPacket n s = .next (launchHere s n) := by
  unfold execLaunchPacket
  rw [reaching_next s _ _ hc, if_pos ((holdsPacket_iff s n _).mpr ⟨hact, by simpa using hkind⟩)]
  by_cases h1 : packetWord (threadAt s n).packet 0 % 16 = 1
  · rw [hfits h1, Bool.or_true]
  · rw [holdsPacket_false s n _ (by simpa using h1)]; rfl

theorem execLaunchPacket_stops (s : State) (n : Nat) (hc : controlRuns s = true) (hact : (threadAt s n).act = .packet)
    (hkind : packetWord (threadAt s n).packet 0 % 16 = 1) (hfits : launchFits s n = false) : execLaunchPacket n s = .fault .noSuchFrame := by
  unfold execLaunchPacket
  rw [reaching_stops s _ _ hc]
  rw [hfits, (holdsPacket_iff s n _).mpr ⟨hact, by simpa using hkind⟩]
  rfl

/-- The thread that waits for node `q` holds a launch packet that names it. -/
theorem waiterFor_eq (s : State) (q : Nat) : waiterFor s q = (List.range 32).find? fun m => (threadAt s m).act == .packet &&
    (packetWord (threadAt s m).packet 0 % 16 == 1) && (bits (packetWord (threadAt s m).packet 0) 43 32 == q) := by
  unfold waiterFor
  congr 1
  funext m
  rw [holdsPacket, packetType_eq]
  rfl

theorem execGraphEntryFree_runs (s : State) (q n : Nat) (hc : controlRuns s = true) (h : waiterFor s q = some n) (hfree : (s.node q).life = .free)
    (hfits : launchFits s n = true) : execGraphEntryFree q s = .next (launchHere s n) := by
  have hidle : (s.node q).inUse = false := by rw [Bool.eq_false_iff, ne_eq, inUse_iff, not_not, hfree]
  unfold execGraphEntryFree
  rw [reaching_next s _ _ hc (by rw [h, Option.all_some, hfits, Bool.or_true]), h]
  dsimp only
  rw [hidle]
  rfl

theorem execGraphEntryFree_stops (s : State) (q n : Nat) (hc : controlRuns s = true) (h : waiterFor s q = some n) (hfree : (s.node q).life = .free)
    (hfits : launchFits s n = false) : execGraphEntryFree q s = .fault .noSuchFrame := by
  have hidle : (s.node q).inUse = false := by rw [Bool.eq_false_iff, ne_eq, inUse_iff, not_not, hfree]
  unfold execGraphEntryFree
  rw [reaching_stops s _ _ hc (by rw [h, Option.all_some, hfits, hidle]; rfl)]

theorem execNopPacket_runs (s : State) (n : Nat) (hc : controlRuns s = true) (hact : (threadAt s n).act = .packet)
    (hkind : packetWord (threadAt s n).packet 0 % 16 = 0) : execNopPacket n s = .next (nextIndex s n) := by
  unfold execNopPacket
  rw [controlled_next s _ hc, if_pos ((holdsPacket_iff s n _).mpr ⟨hact, by simpa using hkind⟩)]

/-- A launch that is free of errors meets a pending cancel: it leaves its node without having run. -/
theorem launchHere_cancelled (s : State) (n : Nat) (c : Nat × Nat × Nat) (hw : twf {} s.lk.threads = true) (hn : twf {} s.lk.nodes = true)
    (h0 : launchError s (threadAt s n) = 0) (hp : pendingCancel s (threadAt s n) = some c) :
    Cancelled (s.mapLk fun l => { l with cancels := l.cancels.filter fun d => d != c }) n c.2.2 (launchHere s n) := by
  obtain ⟨-, -, hfree⟩ := launchError_zero s _ h0
  rw [launchHere_cancels s n c h0 hp]
  exact cancelPacket_cancelled _ n c.2.2 hw hn hfree

/-! ### Wait packets (R259, R272) -/

theorem execWaitPacket_eq (s : State) (n : Nat) (hc : controlRuns s = true) (hact : (threadAt s n).act = .packet)
    (hkind : packetWord (threadAt s n).packet 0 % 16 = 2) : execWaitPacket n s = .next (match waitError s (threadAt s n) with
      | 0 => if watchFree s then mapThread (s.mapLk fun l => { l with watches := l.watches ++ [waitWatch (threadAt s n)] }) n
          fun t => { t with act := .waiting, idleSince := s.clock } else s
      | e => reject s n e) := by
  unfold execWaitPacket
  rw [controlled_next s _ hc, if_pos ((holdsPacket_iff s n _).mpr ⟨hact, by simpa using hkind⟩)]
  rfl

/-- A watched value satisfies a wait packet (R272). -/
def WaitHolds (p : List Scalar) (v : Nat) : Prop := if bits (packetWord p 0) 5 4 = 1 then packetWord p 2 ≤ v else v = packetWord p 2

theorem waitTrue_iff (p : List Scalar) (v : Nat) : waitTrue p v = true ↔ WaitHolds p v := by
  unfold waitTrue WaitHolds
  rw [ite_bool]
  simp only [decide_eq_true_eq, beq_iff_eq]
  exact Iff.rfl

/-- A report that tells a wait of a value which satisfies it. -/
def Told (s : State) (y : Thread) : Prop :=
  ∃ r ∈ s.lk.reports, r.pasid = y.pasid ∧ r.qnum = y.qnum ∧ r.isKick = false ∧ WaitHolds y.packet r.value

theorem reported_waitWatch (s : State) (y : Thread) : (reported s (waitWatch y)).isSome = true ↔ Told s y := by
  have hmeets (v : Nat) : (waitWatch y).meets v = true ↔ WaitHolds y.packet v := by
    rw [← waitTrue_iff]
    unfold Watch.meets waitTrue waitWatch
    simp only [Bool.false_eq_true, if_false, decide_eq_true_eq]
  simp only [reported, Option.isSome_map, List.find?_isSome, Bool.and_eq_true, hmeets, Report.for_, beq_iff_eq, and_assoc]
  exact Iff.rfl

theorem execWaitPacketEnd_stops (s : State) (n : Nat) (hc : controlRuns s = true) (hact : (threadAt s n).act = .waiting)
    (hfits : ¬ there s (waitSpace (threadAt s n).packet) (bits (packetWord (threadAt s n).packet 1) 47 0) 8) :
    execWaitPacketEnd n s = .fault .noSuchFrame := by
  have hno : s.mem.fits (waitSpace (threadAt s n).packet) (bits (packetWord (threadAt s n).packet 1) 47 0) 8 = false :=
    Bool.eq_false_iff.mpr fun h => hfits ((Mem.fits_iff _ _ _ _).mp h)
  unfold execWaitPacketEnd
  refine reaching_stops s _ _ hc (Bool.or_eq_false_iff.mpr ⟨?_, hno⟩)
  rw [show (threadOf s n).act = .waiting from hact]
  rfl

theorem execWaitPacketEnd_eq (s : State) (n : Nat) (hc : controlRuns s = true) (hu : s.mem.unfenced = [])
    (hact : (threadAt s n).act = .waiting)
    (hfits : there s (waitSpace (threadAt s n).packet) (bits (packetWord (threadAt s n).packet 1) 47 0) 8) :
    let y := threadAt s n
    let x := (wordAt s (waitSpace y.packet) (bits (packetWord y.packet 1) 47 0)).toNat
    execWaitPacketEnd n s = .next (if waitTrue y.packet x || (reported s (waitWatch y)).isSome
      then nextIndex (endWaitPacket (dropWatches s y.pasid y.qnum) (qPasid s y.qcb) y.packet s.clock) n else s) := by
  intro y x
  have hok : (decide (y.act ≠ .waiting) || s.mem.fits (waitSpace y.packet) (bits (pword y.packet 1) 47 0) 8) = true := by
    rw [Bool.or_eq_true]
    exact .inr ((Mem.fits_iff _ _ _ _).mpr hfits)
  unfold execWaitPacketEnd
  rw [show threadOf s n = y from rfl, reaching_next s _ _ hc hok, if_pos hact, readSpaceWord_visible s _ _ hu]
  rfl

/-- What the end of a wait leaves. -/
theorem endWait_ends (s : State) (n : Nat) (hw : twf {} s.lk.threads = true) :
    let y := threadAt s n
    let t := nextIndex (endWaitPacket (dropWatches s y.pasid y.qnum) (qPasid s y.qcb) y.packet s.clock) n
    threadAt t n = y.goesOn s.clock s.platform.halves ∧
      t.mem = (writeRecord (dropWatches s y.pasid y.qnum) (qPasid s y.qcb) y.packet (recordWords 0 false 0 2 0 0 0 0 s.clock)).mem ∧
      ∀ w ∈ t.lk.watches, ¬ (w.pasid = y.pasid ∧ w.qnum = y.qnum) := by
  intro y t
  have hstores := stores_writeRecord (dropWatches s y.pasid y.qnum) (qPasid s y.qcb) y.packet (recordWords 0 false 0 2 0 0 0 0 s.clock)
  refine ⟨threadAt_nextIndex (SameThreads.trans (t := dropWatches s y.pasid y.qnum) ⟨rfl, rfl, rfl⟩ hstores.sameThreads) hw n, rfl, fun w hmem => ?_⟩
  have hwatches : t.lk.watches = (dropWatches s y.pasid y.qnum).lk.watches := by
    obtain ⟨_, _, _, _, _, hrec⟩ := hstores
    show (writeRecord _ _ _ _).lk.watches = _
    rw [hrec]
  rw [hwatches] at hmem
  have hkept := (List.mem_filter.mp hmem).2
  simpa only [Bool.not_eq_true', Bool.and_eq_false_iff, beq_eq_false_iff_ne, ← not_and_or, ne_eq] using hkept


/-! ### The conclusions of the manual -/

/-- A slot taken: the packet is copied, RIDX has moved on, and the other threads stand. -/
theorem slotTaken (s : State) (n : Nat) (h : Safety.wf s = true) :
    let y := threadAt s n
    let u := s.writeSpaceWord (qSpace s y.qcb) (ridxAddr s y.qcb) (BitVec.ofNat 64 (y.ridx + 1))
    ∀ z, let t := setThread u n z
      threadAt t n = z ∧ wordAt t (qSpace s y.qcb) (ridxAddr s y.qcb) = BitVec.ofNat 64 (y.ridx + 1) ∧
        (∀ m, m ≠ n → threadAt t m = threadAt s m) ∧ u.platform = s.platform := by
  intro y u z t
  have hsame : SameThreads s u := (stores_writeSpace s _ _ _).sameThreads
  have hset (m : Nat) : threadAt t m = if m = n then z else threadAt u m :=
    threadAt_setThread u n m z (by rw [hsame.1]; exact threads_of_wf s h)
  refine ⟨(hset n).trans (if_pos rfl), ?_, fun m hm => ?_, hsame.2.2⟩
  · exact wordAt_writeSpaceWord s _ _ _ (mem_of_wf s h)
  · rw [hset m, if_neg hm, hsame.threadAt_eq]

/-- The record of a rejected packet names the error. -/
theorem record_reject (s : State) (n err : Nat) (h : Safety.wf s = true) (sp : MemSpace)
    (hsp : recordSpace (qPasid s (threadAt s n).qcb) (bits (packetWord (threadAt s n).packet 5) 49 48) = some sp)
    (ha : there s sp (bits (packetWord (threadAt s n).packet 5) 47 0) 32) :
    wordAt (reject s n err) sp (bits (packetWord (threadAt s n).packet 5) 47 0 + 8 * 0) = BitVec.ofNat 64 (err * 2 ^ 16 + 3) := by
  obtain ⟨-, -, hmem⟩ := reject_rejects s n err (threads_of_wf s h)
  rw [wordAt_record s _ _ _ _ (mem_of_wf s h) hmem 0 (by simp [recordWords]) sp hsp ha]
  simp [recordWords, place]

/-- The record of a cancelled packet reads cancelled and tainted. -/
theorem record_cancelled (s t : State) (n c : Nat) (h : Cancelled s n c t) (hw : Memory.wf s.mem = true) (sp : MemSpace)
    (hsp : recordSpace (qPasid s (threadAt s n).qcb) (bits (packetWord (threadAt s n).packet 5) 49 48) = some sp)
    (ha : there s sp (bits (packetWord (threadAt s n).packet 5) 47 0) 32) :
    wordAt t sp (bits (packetWord (threadAt s n).packet 5) 47 0 + 8 * 0) = BitVec.ofNat 64 (2 + 2 * 2 ^ 5 + 2 ^ 7) := by
  rw [wordAt_record s _ _ _ _ hw h.mem 0 (by simp [recordWords]) sp hsp ha]
  simp [recordWords, place]

theorem last_freed (x : Node) (p : Nat) (v : Verdict) (h : x.owner = some p) : tget none (x.freed v).last p = some v := by
  rw [Node.freed, h]
  exact tget_tset_listed none _ p _ (Option.some_ne_none v)

/-- The edges of an entered launch, one for each source, each as its source stands. -/
theorem Entered.edge {s t : State} {n : Nat} (h : Entered s n t) (hin : bits (packetWord (threadAt s n).packet 0) 47 44 ≤ 4) :
    (t.node (packetNode (threadAt s n).packet)).edges.length = bits (packetWord (threadAt s n).packet 0) 47 44 ∧
      ∀ (j : Nat) (e : Edge), (t.node (packetNode (threadAt s n).packet)).edges[j]? = some e →
        EdgeStands s (qPasid s (threadAt s n).qcb) (packetWord (threadAt s n).packet (7 + j)) e := by
  have hmin : min (bits (pword (threadAt s n).packet 0) 47 44) 4 = bits (packetWord (threadAt s n).packet 0) 47 44 := Nat.min_eq_left hin
  rw [h.edges, packetEdges, hmin]
  refine ⟨by simp, fun j e hj => ?_⟩
  simp only [List.getElem?_map, Option.map_eq_some_iff, List.getElem?_eq_some_iff] at hj
  obtain ⟨w, ⟨q, ⟨hq, rfl⟩, rfl⟩, rfl⟩ := hj
  rw [List.getElem_range]
  exact newEdge_stands s _ _

theorem Entered.graph {s t : State} {n : Nat} (h : Entered s n t) (hin : bits (packetWord (threadAt s n).packet 0) 47 44 ≤ 4) (j : Nat)
    (hj : j < bits (packetWord (threadAt s n).packet 0) 47 44) (hgr : (s.node (packetWord (threadAt s n).packet (7 + j) % 4096)).graph ≠ 0) :
    (t.node (packetWord (threadAt s n).packet (7 + j) % 4096)).graph = (t.node (packetNode (threadAt s n).packet)).graph :=
  h.graphs _ (List.mem_map.mpr ⟨j, List.mem_range.mpr (Nat.lt_min.mpr ⟨hj, Nat.lt_of_lt_of_le hj hin⟩), rfl⟩) hgr

end Sys2Proof.Machine

namespace Sys2Proof.Claims

open Sys2Proof Sys2Proof.Machine

/-- Settles O46. Each operation of a packet is read off the lemma that says what it does: a slot taken, a packet rejected, cancelled or entered at its
node, and the begin and the end of a wait. -/
theorem packetWork : Obligations.PacketWork := by
  intro s n hwf hc hu
  have hthreads := threads_of_wf s hwf
  have hnodes := nodes_of_wf s hwf
  have hmem := mem_of_wf s hwf
  intro y word sp slot kind k free goesOn record entered cancelled at_ x true_ told args
  have henters (i : Instr) (h0 : launchError s y = 0) (hp : free) (hexec : exec i s = .next (launchHere s n)) : entered i := by
    have hin := (launchError_zero s y h0).1
    have hent := enterLaunch_entered s n hthreads hnodes hu
    rw [launchHere_enters s n h0 hp] at hexec
    obtain ⟨hlength, hedge⟩ := hent.edge hin
    refine ⟨_, hexec, hent.packet, ?_, hent.life, fun j m hj hm hgr => ?_, hlength, fun j e he => ?_, hent.thread, hent.mem⟩
    · refine hent.args.trans ?_
      rw [packetArgs, readSpaceWords_visible s _ _ _ hu]
      rfl
    · subst hm
      exact hent.graph hin j hj hgr
    · obtain ⟨hsrc, hearly, hpass, huse, hcomplete⟩ := hedge j e he
      exact ⟨hsrc, hearly, hpass, huse, hcomplete⟩
  have hcancels (i : Instr) (h0 : launchError s y = 0) (hexec : (∃ c, pendingCancel s y = some c) → exec i s = .next (launchHere s n)) :
      cancelled i := by
    intro c hp
    have hcan := launchHere_cancelled s n c hthreads hnodes h0 hp
    obtain ⟨-, howner, -⟩ := launchError_zero s y h0
    have hrec := record_cancelled _ _ n _ hcan hmem
    refine ⟨_, hexec ⟨c, hp⟩, hcan.cancels, congrArg Node.life hcan.node, hcan.order, hcan.gangs, ?_, hrec, hcan.msix, hcan.thread⟩
    exact (congrArg (fun z : Node => tget none z.last (qPasid s y.qcb)) hcan.node).trans (last_freed _ _ _ howner)
  refine ⟨launchError_first s y, waitError_first s y, ?slot, ?nop, ?launch, ?cancel, ?reject, ?full, ?freed, ?freedCancel, ?wait, ?noWatch,
    ?waitReject, ?waitStops, ?waitOn, ?waitEnd⟩
  case slot =>
    intro hact hkick hseq hqcb hslot hridx
    obtain ⟨hthread, hword, hothers, hplatform⟩ := slotTaken s n hwf _
    refine ⟨_, execSlotTake_takes n s hc hu hact hkick hseq hqcb hslot hridx, hthread.trans ?_, hword, hothers⟩
    rw [served, hplatform]
    rfl
  case nop =>
    exact fun hact hkind => ⟨_, execNopPacket_runs s n hc hact hkind, threadAt_nextIndex ⟨rfl, rfl, rfl⟩ hthreads n, rfl, rfl⟩
  case launch =>
    refine fun hact hkind h0 hp => ⟨fun hargs => henters _ h0 hp ?_, fun hargs => ?_⟩
    · exact execLaunchPacket_runs s n hc hact (.inl hkind) fun _ => (launchFits_enters s n h0 hp).mpr hargs
    · exact execLaunchPacket_stops s n hc hact hkind (Bool.eq_false_iff.mpr fun h => hargs ((launchFits_enters s n h0 hp).mp h))
  case cancel =>
    exact fun hact hkind h0 => hcancels _ h0 fun hp => execLaunchPacket_runs s n hc hact (.inl hkind) fun _ => launchFits_other s n (.inr hp)
  case reject =>
    intro hact hkind h0 h7
    have hwaits (he : launchError s y = 7) : waitsForNode s y = false := by
      rw [waitsForNode, Bool.and_eq_false_iff, decide_eq_false_iff_not]
      exact h7 he
    obtain ⟨hthread, hnodes', -⟩ := reject_rejects s n (launchError s y) hthreads
    refine ⟨_, (execLaunchPacket_runs s n hc hact hkind fun _ => launchFits_other s n (.inl h0)).trans
      (congrArg _ (launchHere_rejects s n h0 hwaits)), hthread, hnodes', record_reject s n _ hwf⟩
  case full =>
    intro hact hkind h7 hfull howner
    have hwaits : waitsForNode s y = true := by
      rw [waitsForNode, hfull]
      exact decide_eq_true howner
    refine (execLaunchPacket_runs s n hc hact (.inl hkind) fun _ => launchFits_other s n (.inl ?_)).trans
      (congrArg _ (launchHere_waits s n h7 hwaits))
    rw [show threadAt s n = y from rfl, h7]
    decide
  case freed =>
    intro q hq hfree h0 hp
    replace hq : waiterFor s q = some n := (waiterFor_eq s q).trans hq
    refine ⟨fun hargs => henters _ h0 hp ?_, fun hargs => ?_⟩
    · exact execGraphEntryFree_runs s q n hc hq hfree ((launchFits_enters s n h0 hp).mpr hargs)
    · exact execGraphEntryFree_stops s q n hc hq hfree (Bool.eq_false_iff.mpr fun h => hargs ((launchFits_enters s n h0 hp).mp h))
  case freedCancel =>
    intro q hq hfree h0
    replace hq : waiterFor s q = some n := (waiterFor_eq s q).trans hq
    exact hcancels _ h0 fun hp => execGraphEntryFree_runs s q n hc hq hfree (launchFits_other s n (.inr hp))
  case wait =>
    intro hact hkind h0 hfree
    have hfree' : watchFree s = true := decide_eq_true hfree
    have h := execWaitPacket_eq s n hc hact hkind
    rw [show waitError s (threadAt s n) = 0 from h0] at h
    rw [hfree', if_pos rfl] at h
    refine ⟨_, h, ?_, rfl, waitWatch y, rfl, rfl, rfl, rfl, rfl, rfl⟩
    exact (threadAt_setThread _ n n _ hthreads).trans (if_pos rfl)
  case noWatch =>
    intro hact hkind h0 hfull
    have hfull' : watchFree s = false := decide_eq_false (Nat.not_lt.mpr hfull)
    have h := execWaitPacket_eq s n hc hact hkind
    rw [show waitError s (threadAt s n) = 0 from h0] at h
    rwa [hfull'] at h
  case waitReject =>
    intro hact hkind h0
    obtain ⟨hthread, -, -⟩ := reject_rejects s n (waitError s y) hthreads
    refine ⟨_, (execWaitPacket_eq s n hc hact hkind).trans (congrArg _ ?_), hthread, record_reject s n _ hwf⟩
    split
    · next he => exact absurd he h0
    · rfl
  case waitStops =>
    exact fun hact hno => execWaitPacketEnd_stops s n hc hact hno
  case waitOn =>
    intro hact hthere hfalse huntold
    have hstill : (waitTrue y.packet x || (reported s (waitWatch y)).isSome) = false := by
      rw [Bool.eq_false_iff, ne_eq, Bool.or_eq_true, waitTrue_iff, reported_waitWatch]
      exact fun h => h.elim hfalse huntold
    exact (execWaitPacketEnd_eq s n hc hu hact hthere).trans (congrArg _ (if_neg (Bool.eq_false_iff.mp hstill)))
  case waitEnd =>
    intro hact hthere htrue
    have hends : (waitTrue y.packet x || (reported s (waitWatch y)).isSome) = true := by
      rw [Bool.or_eq_true, waitTrue_iff, reported_waitWatch]
      exact htrue
    obtain ⟨hthread, hrec, hwatches⟩ := endWait_ends s n hthreads
    refine ⟨_, (execWaitPacketEnd_eq s n hc hu hact hthere).trans (congrArg _ (if_pos hends)), hthread, fun rsp hsp hrsp => ?_,
      fun rsp hsp hrsp => ?_, hwatches⟩
    · exact wordAt_record (dropWatches s y.pasid y.qnum) _ _ _ _ hmem hrec 0 (by simp [recordWords]) rsp hsp hrsp
    · exact wordAt_record (dropWatches s y.pasid y.qnum) _ _ _ _ hmem hrec 3 (by simp [recordWords]) rsp hsp hrsp

end Sys2Proof.Claims
end

section
/-! PROOFS. Re-planning: the swap of a variant at a re-planning point (R42, R43, R152, R153, R277). -/

namespace Sys2Proof.Machine

open Claims (packetWord imageThere bytesAt)

theorem jobs_of_wf (s : State) (h : Safety.wf s = true) : twf {} s.jobs = true := by
  simp only [Safety.wf, Bool.and_eq_true] at h
  tauto

/-- The parts of a tile in canonical form that a save and a restore look at. -/
theorem parts_of_tileWf (t : Tile) (h : Safety.tileWf t = true) :
    Safety.regsWf t.regs = true ∧ Safety.isramWf t.isram = true ∧ Safety.vaultWf t.vault = true := by
  rw [Safety.tileWf, Bool.and_eq_true, Bool.and_eq_true, Bool.and_eq_true, Bool.and_eq_true, Bool.and_eq_true, Bool.and_eq_true,
    Bool.and_eq_true] at h
  obtain ⟨⟨⟨⟨⟨⟨⟨-, hregs⟩, -⟩, -⟩, hisram⟩, hvault⟩, -⟩, -⟩ := h
  exact ⟨hregs, hisram, hvault⟩

theorem bundles_of_tileWf (t : Tile) (h : Safety.tileWf t = true) : twf 0 t.isram.bundles = true := by
  have hisram := (parts_of_tileWf t h).2.1
  rw [Safety.isramWf, Bool.and_eq_true] at hisram
  exact hisram.1

/-! ### The loader (R277) -/

theorem loadBundle_bundles (m : Mem) (r : Isram) (addr k : Nat) :
    (loadBundle m r addr k).bundles = tset 0 r.bundles k (BitVec.ofNat 256 (ofBytes (readBytes m.res (addr + 32 * k) 32))) := by
  rw [loadBundle]

theorem foldl_loadBundle (m : Mem) (addr n : Nat) (r : Isram) (h : twf 0 r.bundles = true) :
    let q := (List.range n).foldl (fun r k => loadBundle m r addr k) r
    twf 0 q.bundles = true ∧ ∀ k, tget 0 q.bundles k =
      if k < n then BitVec.ofNat 256 (ofBytes (readBytes m.res (addr + 32 * k) 32)) else tget 0 r.bundles k := by
  induction n with
  | zero => exact ⟨h, fun k => (if_neg (Nat.not_lt_zero k)).symm⟩
  | succ n ih =>
    obtain ⟨hwf, hget⟩ := ih
    dsimp only
    rw [List.range_succ, List.foldl_append, List.foldl_cons, List.foldl_nil, loadBundle_bundles]
    refine ⟨twf_tset _ _ _ _ hwf, fun k => ?_⟩
    rw [tget_tset _ _ _ _ _ hwf, hget k]
    by_cases hk : k = n
    · rw [if_pos hk, if_pos (by omega), hk]
    · rw [if_neg hk]
      exact if_congr (by omega) rfl rfl

/-- The bundles of an image that is loaded. -/
theorem loadImage_bundles (m : Mem) (r : Isram) (addr n k : Nat) (h : twf 0 r.bundles = true) (hk : k < n) :
    tget 0 (loadImage m r addr n).bundles k = BitVec.ofNat 256 (ofBytes (readBytes m.res (addr + 32 * k) 32)) :=
  ((foldl_loadBundle m addr n r h).2 k).trans (if_pos hk)

theorem loadImage_wf (m : Mem) (r : Isram) (addr n : Nat) (h : twf 0 r.bundles = true) : twf 0 (loadImage m r addr n).bundles = true :=
  (foldl_loadBundle m addr n r h).1

/-! ### The tiles of a gang that swaps its variant -/

theorem swapTile_core (oldW newW : Nat) (s : State) : ∃ pc, swapTile oldW newW s = s.mapCore fun t => { t with
    isram := loadImage s.mem t.isram (variantImage newW) (variantSize newW), ctl := { t.ctl with pc := pc } } := by
  unfold swapTile
  dsimp only
  split
  · exact ⟨_, rfl⟩
  · exact ⟨s.core.ctl.pc, rfl⟩

theorem swapTiles_swap (g : Gang) (oldW newW : Nat) (s : State) (hs : twf {} s.tiles = true)
    (hi : ∀ n, twf 0 (s.tile n).isram.bundles = true) :
    let t := g.tiles.foldl (fun s n => s.onTile n (swapTile oldW newW)) s
    twf {} t.tiles = true ∧ SameGlobal s t ∧
      (∀ n, (t.tile n).regs = (s.tile n).regs ∧ (t.tile n).ctl.cyc = (s.tile n).ctl.cyc ∧ twf 0 (t.tile n).isram.bundles = true) ∧
      ∀ n ∈ g.tiles, ∀ k, k < bits newW 61 50 →
        tget 0 (t.tile n).isram.bundles k = BitVec.ofNat 256 (ofBytes (bytesAt s .reservoir (bits newW 47 0 + 32 * k) 32)) := by
  have hlocal (s : State) : (swapTile oldW newW s).tiles = s.tiles ∧ (swapTile oldW newW s).cur = s.cur := by
    obtain ⟨pc, h⟩ := swapTile_core oldW newW s
    rw [h]
    exact ⟨rfl, rfl⟩
  obtain ⟨hwf, hG, hR, -, hP⟩ := (visits_tiles (swapTile oldW newW) hlocal).foldl_each (G := SameGlobal) (s₀ := s) id SameGlobal.trans
    (R := fun n y => y.regs = (s.tile n).regs ∧ y.ctl.cyc = (s.tile n).ctl.cyc ∧ twf 0 y.isram.bundles = true)
    (P := fun n y => ∀ k, k < bits newW 61 50 →
      tget 0 y.isram.bundles k = BitVec.ofNat 256 (ofBytes (bytesAt s .reservoir (bits newW 47 0 + 32 * k) 32)))
    (fun n u hu hr => by
      obtain ⟨pc, h⟩ := swapTile_core oldW newW u
      obtain ⟨hregs, hcyc, hbundles⟩ := hr
      rw [h]
      refine ⟨sameGlobal_mapCore _ _, ⟨hregs, hcyc, loadImage_wf _ _ _ _ hbundles⟩, fun k hk => ?_⟩
      rw [bytesAt_eq]
      refine (loadImage_bundles _ _ _ _ k hbundles hk).trans ?_
      rw [hu.mem_eq]
      rfl)
    g.tiles s hs (.refl s) fun n => ⟨rfl, rfl, hi n⟩
  exact ⟨hwf, hG, hR, fun n hn => hP n (.inl (by simpa using hn))⟩

theorem repairLane_lanes (v : Vault) : (repairLane v).lanes = [] := by
  unfold repairLane
  split
  · next h => exact List.isEmpty_iff.mp h
  · rfl

/-- A tile goes on from its re-planning point with its lanes repaired. -/
def Tile.replanned (t : Tile) : Tile := passPoint { t with vault := repairLane t.vault }

theorem repairTiles_repair (g : Gang) (s : State) (hs : twf {} s.tiles = true) :
    let t := g.tiles.foldl (fun s n => s.mapTile n Tile.replanned) s
    SameGlobal s t ∧
      (∀ n, (t.tile n).regs = (s.tile n).regs ∧ (t.tile n).isram = (s.tile n).isram) ∧
      ∀ n ∈ g.tiles, (t.tile n).vault.lanes = [] ∧ (t.tile n).ctl.passes = some (s.tile n).ctl.cyc := by
  obtain ⟨-, hG, hR, -, hP⟩ := (visits_mapTile id fun _ : Nat => Tile.replanned).foldl_each (G := SameGlobal) (s₀ := s) id SameGlobal.trans
    (R := fun n y => y.regs = (s.tile n).regs ∧ y.isram = (s.tile n).isram ∧ y.ctl.cyc = (s.tile n).ctl.cyc)
    (P := fun n y => y.vault.lanes = [] ∧ y.ctl.passes = some (s.tile n).ctl.cyc)
    (fun n u _ hr => ⟨sameGlobal_mapCore _ _, hr, repairLane_lanes _, congrArg some hr.2.2⟩)
    g.tiles s hs (.refl s) fun n => ⟨rfl, rfl, rfl⟩
  exact ⟨hG, fun n => ⟨(hR n).1, (hR n).2.1⟩, fun n hn => hP n (.inl (by simpa using hn))⟩

/-! ### The phase and the hold -/

/-- A gang leaves its phase, when the phase counts it. -/
theorem leavePhase_leaves (s : State) (g : Nat) (hg : twf {} s.gangs = true) (hj : twf {} s.jobs = true) :
    twf {} (leavePhase s g).gangs = true ∧ (leavePhase s g).gang g = { s.gang g with counted := false } ∧
      (leavePhase s g).job (s.gang g).pasid = (let j := s.job (s.gang g).pasid
        if (s.gang g).counted then { j with
          phaseLeft := j.phaseLeft - 1, phaseNum := if j.phaseLeft = 1 then j.phaseNum + 1 else j.phaseNum } else j) ∧
      ∀ n, (leavePhase s g).tile n = s.tile n := by
  unfold leavePhase
  split
  · refine ⟨twf_tset _ _ _ _ hg, gang_mapGang_same s g (fun x => { x with counted := false }) hg, ?_, fun _ => rfl⟩
    exact tget_tset_same _ _ _ _ hj
  · next hcounted => exact ⟨hg, by rw [← Bool.eq_false_iff.mpr hcounted], rfl, fun _ => rfl⟩

theorem clearHold_leaves (s : State) (g : Nat) (c : HoldCause) (hg : twf {} s.gangs = true) :
    c ∉ ((s.clearHold g c).gang g).causes ∧ ((s.clearHold g c).gang g).variant = (s.gang g).variant ∧
      ((s.clearHold g c).gang g).counted = (s.gang g).counted := by
  refine ⟨by rw [clearHold_causes s g c hg]; simp, ?_⟩
  rw [State.clearHold, gang_mapGang_same s g _ hg]
  dsimp only
  split
  · split <;> exact ⟨rfl, rfl⟩
  · exact ⟨rfl, rfl⟩

theorem replanHeld_iff (g : Gang) : replanHeld g = true ↔ g.held = true ∧ .replan ∈ g.causes := by
  simp [replanHeld]

/-- The state in which the tiles of a gang stand as its variant has been loaded, when it is another one. -/
def variantLoaded (s : State) (gid k : Nat) : State :=
  let g := s.gang gid
  let p := (s.node g.node).packet
  if k = g.variant then s
  else (g.tiles.foldl (fun s n => s.onTile n (swapTile (pword p g.variant) (pword p k))) s).mapGang gid fun g => { g with variant := k }

theorem variantLoaded_loads (s : State) (gid k : Nat) (h : Safety.wf s = true) :
    let x := s.gang gid
    let w := pword (s.node x.node).packet k
    let t := variantLoaded s gid k
    twf {} t.tiles = true ∧ twf {} t.gangs = true ∧ t.jobs = s.jobs ∧ t.gang gid = { x with variant := k } ∧
      (∀ n, (t.tile n).regs = (s.tile n).regs ∧ (t.tile n).ctl.cyc = (s.tile n).ctl.cyc) ∧
      (k ≠ x.variant → ∀ n ∈ x.tiles, ∀ k, k < bits w 61 50 →
        tget 0 (t.tile n).isram.bundles k = BitVec.ofNat 256 (ofBytes (bytesAt s .reservoir (bits w 47 0 + 32 * k) 32))) := by
  intro x w t
  have hgangs := gangs_of_wf s h
  by_cases hk : k = x.variant
  · have ht : t = s := if_pos hk
    rw [ht, hk]
    exact ⟨tiles_of_wf s h, hgangs, rfl, rfl, fun _ => ⟨rfl, rfl⟩, fun hne => absurd rfl hne⟩
  · obtain ⟨hwf, hG, hkept, hloaded⟩ := swapTiles_swap x (pword (s.node x.node).packet x.variant) w s (tiles_of_wf s h) fun n =>
      bundles_of_tileWf _ (wf_tile s n h)
    have ht : t = (x.tiles.foldl (fun u n => u.onTile n (swapTile (pword (s.node x.node).packet x.variant) w)) s).mapGang gid fun g =>
        { g with variant := k } := by
      show variantLoaded s gid k = _
      rw [variantLoaded]
      exact if_neg hk
    rw [ht]
    generalize x.tiles.foldl (fun u n => u.onTile n (swapTile (pword (s.node x.node).packet x.variant) w)) s = u at *
    have hug : twf {} u.gangs = true := by rw [hG.gangs_eq]; exact hgangs
    refine ⟨hwf, twf_tset _ _ _ _ hug, hG.jobs_eq, ?_, fun n => ⟨(hkept n).1, (hkept n).2.1⟩, fun _ => hloaded⟩
    rw [gang_mapGang_same _ _ _ hug, hG.gang_eq]

/-- What the swap to variant `k` of gang `gid` leaves. -/
structure Swapped (s : State) (gid k : Nat) (t : State) : Prop where
  variant : (t.gang gid).variant = k
  causes : .replan ∉ (t.gang gid).causes
  counted : (t.gang gid).counted = false
  job : t.job (s.gang gid).pasid = (let j := s.job (s.gang gid).pasid
    if (s.gang gid).counted then { j with
      phaseLeft := j.phaseLeft - 1, phaseNum := if j.phaseLeft = 1 then j.phaseNum + 1 else j.phaseNum } else j)
  regs : ∀ n, (t.tile n).regs = (s.tile n).regs
  passes : ∀ n ∈ (s.gang gid).tiles, (t.tile n).vault.lanes = [] ∧ (t.tile n).ctl.passes = some (s.tile n).ctl.cyc
  bundles : k ≠ (s.gang gid).variant → ∀ n ∈ (s.gang gid).tiles,
    let w := packetWord (s.node (s.gang gid).node).packet k
    ∀ i, i < bits w 61 50 →
      tget 0 (t.tile n).isram.bundles i = BitVec.ofNat 256 (ofBytes (bytesAt s .reservoir (bits w 47 0 + 32 * i) 32))

/-- A variant that is loaded, the lanes repaired, the phase left and the cause cleared: the gang has swapped. -/
theorem variantLoaded_swapped (s : State) (gid k : Nat) (h : Safety.wf s = true) :
    Swapped s gid k ((leavePhase ((s.gang gid).tiles.foldl (fun u n => u.mapTile n Tile.replanned) (variantLoaded s gid k)) gid).clearHold gid
      .replan) := by
  obtain ⟨htiles, hgangs, hjobs, hgang, hkept, hloaded⟩ := variantLoaded_loads s gid k h
  obtain ⟨hG, hrepair, hpasses⟩ := repairTiles_repair (s.gang gid) (variantLoaded s gid k) htiles
  generalize variantLoaded s gid k = u at *
  generalize (s.gang gid).tiles.foldl (fun u n => u.mapTile n Tile.replanned) u = v at *
  have hvgang : v.gang gid = { s.gang gid with variant := k } := (hG.gang_eq gid).trans hgang
  have hvjob (p : Nat) : v.job p = s.job p := by rw [State.job, hG.jobs_eq, hjobs, State.job]
  obtain ⟨hwf, hleft, hjob, htile⟩ := leavePhase_leaves v gid (by rw [hG.gangs_eq]; exact hgangs) (by rw [hG.jobs_eq, hjobs]; exact jobs_of_wf s h)
  obtain ⟨hcauses, hvariant, hcounted⟩ := clearHold_leaves (leavePhase v gid) gid .replan hwf
  have hlast (n : Nat) : ((leavePhase v gid).clearHold gid .replan).tile n = v.tile n := htile n
  refine ⟨?_, hcauses, ?_, ?_, fun n => ?_, fun n hn => ?_, fun hne n hn i hi => ?_⟩
  · rw [hvariant, hleft, hvgang]
  · rw [hcounted, hleft]
  · rw [hvgang] at hjob
    dsimp only at hjob
    rw [hvjob] at hjob
    exact hjob
  · rw [hlast, (hrepair n).1, (hkept n).1]
  · rw [hlast, (hpasses n hn).1, (hpasses n hn).2, (hkept n).2]
    exact ⟨rfl, rfl⟩
  · rw [hlast, (hrepair n).2]
    exact hloaded hne n hn i hi

theorem execVariantSwap_eq (s : State) (gid : Nat) (hheld : (s.gang gid).held = true) (hcause : .replan ∈ (s.gang gid).causes) :
    let x := s.gang gid
    let k := pickVariant (s.node x.node).packet (gangGrade s x)
    execVariantSwap gid s = fitted (k == x.variant || imageFits s (packetWord (s.node x.node).packet k)) (.next
      ((leavePhase (x.tiles.foldl (fun u n => u.mapTile n Tile.replanned) (variantLoaded s gid k)) gid).clearHold gid .replan)) := by
  intro x k
  unfold execVariantSwap
  exact if_pos ((replanHeld_iff _).mpr ⟨hheld, hcause⟩)

end Sys2Proof.Machine
end
section
/-! PROOFS. Pre-emption, before the save: the tiles draw back, and the errors that a save meets where none stand (R289, R293, R295). -/

namespace Sys2Proof.Machine

open Claims (errorFree)

/-! ### Tables in canonical form -/

section
variable {α : Type} [DecidableEq α] (d : α)

/-- An entry of a table is read under its key. -/
theorem tget_of_mem (t : Table α) (lo : Nat) (h : tsorted d lo t = true) (x : Nat × α) (hx : x ∈ t) : lo ≤ x.1 ∧ tget d t x.1 = x.2 := by
  induction t generalizing lo with
  | nil => exact absurd hx List.not_mem_nil
  | cons c t ih =>
    obtain ⟨a, y⟩ := c
    simp only [tsorted, Bool.and_eq_true, decide_eq_true_eq] at h
    rcases List.mem_cons.mp hx with rfl | hx
    · exact ⟨h.1.1, if_pos rfl⟩
    · obtain ⟨hlo, hget⟩ := ih _ h.2 hx
      exact ⟨by omega, by rw [tget, if_neg (by omega), hget]⟩

/-- Nothing is dropped where nothing is listed. -/
theorem tdel_self (t : Table α) (lo k : Nat) (h : tsorted d lo t = true) (hk : tget d t k = d) : tdel t k = t := by
  induction t generalizing lo with
  | nil => rfl
  | cons c t ih =>
    obtain ⟨a, y⟩ := c
    simp only [tsorted, Bool.and_eq_true, Bool.not_eq_true', decide_eq_false_iff_not, decide_eq_true_eq] at h
    rw [tget] at hk
    split at hk
    · exact absurd hk h.1.2
    · next hne =>
      rw [tdel, if_neg hne]
      split
      · rfl
      · rw [ih _ h.2 hk]

/-- What is listed is put back in its place. -/
theorem tput_self (t : Table α) (lo k : Nat) (h : tsorted d lo t = true) (hk : tget d t k ≠ d) : tput t k (tget d t k) = t := by
  induction t generalizing lo with
  | nil => exact absurd rfl hk
  | cons c t ih =>
    obtain ⟨a, y⟩ := c
    simp only [tsorted, Bool.and_eq_true, decide_eq_true_eq] at h
    rw [tget] at hk ⊢
    split at hk
    · next ha => rw [if_pos ha, tput, if_neg (by omega), if_pos ha, ha]
    · next ha =>
      have hlt : ¬ k < a := fun hlt => hk (tget_below d t (a + 1) k h.2 (by omega))
      rw [if_neg ha, tput, if_neg hlt, if_neg ha, ih _ h.2 hk]

/-- A value written where it is read already leaves the table. -/
theorem tset_self (t : Table α) (k : Nat) (h : twf d t = true) : tset d t k (tget d t k) = t := by
  unfold tset
  split
  · next hd => exact tdel_self d t 0 k h hd
  · next hd => exact tput_self d t 0 k h hd

end

/-! ### The tiles draw back (R289) -/

theorem modeAt_active (b : Bank) (clock : Nat) : b.modeAt clock = .active ↔ b.mode = .active := by
  unfold Bank.modeAt
  cases h : b.mode with
  | refreshing => simp only [reduceCtorEq, iff_false]; split <;> simp
  | _ => simp

/-- A bank that is precharged, when it is open. -/
def Bank.closed (b : Bank) (clock : Nat) : Bank := if b.mode = .active then { b with mode := .idle, actAt := clock + 30 } else b

/-- A bank put where it stands already leaves the vault. -/
theorem setBank_self (s : State) (n : Nat) (h : twf {} s.core.vault.banks = true) : setBank s n (bankOf s n) = s := by
  rw [setBank, bankOf, State.mapVault, State.mapCore]
  simp only [tset_self _ _ n h]

theorem prechargeBank_eq (s : State) (n : Nat) (h : twf {} s.core.vault.banks = true) :
    prechargeBank s n = setBank s n ((bankOf s n).closed s.clock) := by
  unfold prechargeBank Bank.closed
  by_cases hm : (bankOf s n).mode = .active
  · rw [if_pos hm]
    exact if_pos ((modeAt_active _ _).mpr hm)
  · rw [if_neg hm, setBank_self s n h]
    exact if_neg (mt (modeAt_active _ _).mp hm)

/-- Banks changed one after the other, each by `f`: those listed are changed once, the others stand. -/
theorem forEach_setBank (g : State → Nat → State) (f : Nat → Bank → Bank) (clock : Nat)
    (hg : ∀ s n, s.clock = clock → twf {} s.core.vault.banks = true → g s n = setBank s n (f n (bankOf s n))) (ns : List Nat)
    (hns : ns.Nodup) (s : State) (hs : s.clock = clock) (h : twf {} s.core.vault.banks = true) :
    ∃ bs, forEach s g ns = s.mapVault (fun v => { v with banks := bs }) ∧ twf {} bs = true ∧
      ∀ m, tget {} bs m = if m ∈ ns then f m (bankOf s m) else bankOf s m := by
  unfold forEach
  induction ns generalizing s with
  | nil => exact ⟨s.core.vault.banks, rfl, h, fun m => (if_neg List.not_mem_nil).symm⟩
  | cons n ns ih =>
    rw [List.nodup_cons] at hns
    obtain ⟨bs, hfold, hwf, hget⟩ := ih hns.2 (setBank s n (f n (bankOf s n))) hs (twf_tset _ _ _ _ h)
    refine ⟨bs, by rw [List.foldl_cons, hg s n hs h, hfold]; rfl, hwf, fun m => ?_⟩
    rw [hget m]
    by_cases hm : m = n
    · subst hm
      rw [if_neg hns.1, if_pos List.mem_cons_self, bankOf_setBank_same s m _ h]
    · rw [bankOf_setBank_ne s n m _ hm]
      simp only [List.mem_cons, hm, false_or]

theorem readyBanks_eq (s : State) :
    readyBanks s = (List.range 64).filter fun n => decide ((bankOf s n).mode = .active) && decide ((bankOf s n).preAt ≤ s.clock) := by
  have hactive : (activeBanks s).map (fun x => x.1) = (List.range 64).filter fun n => decide ((bankOf s n).mode = .active) := by
    rw [activeBanks, List.map_filterMap, ← List.filterMap_eq_filter]
    refine List.filterMap_congr fun n _ => ?_
    by_cases hm : (bankOf s n).mode = .active
    · simp [(modeAt_active _ s.clock).mpr hm, hm, Option.guard]
    · simp [mt (modeAt_active _ s.clock).mp hm, hm, Option.guard]
  rw [readyBanks, hactive, List.filter_filter]
  exact List.filter_congr fun n _ => Bool.and_comm _ _

theorem mem_readyBanks (s : State) (n : Nat) :
    n ∈ readyBanks s ↔ n < 64 ∧ (bankOf s n).mode = .active ∧ (bankOf s n).preAt ≤ s.clock := by
  rw [readyBanks_eq, List.mem_filter, List.mem_range, Bool.and_eq_true, decide_eq_true_eq, decide_eq_true_eq]

/-- A bank of a tile that draws back: closed once its PRERDY reads 0. -/
def Bank.drawnBack (b : Bank) (clock m : Nat) : Bank :=
  if m < 64 ∧ b.mode = .active ∧ b.preAt ≤ clock then { b with mode := .idle, actAt := clock + 30 } else b

theorem drawBack_draws (s : State) (h : twf {} s.core.vault.banks = true) : ∃ bs i,
    drawBack s = s.mapVault (fun v => { v with image := some i, banks := bs }) ∧ ∀ m, tget {} bs m = (bankOf s m).drawnBack s.clock m := by
  let u := s.mapVault fun v => { v with image := some (v.image.getD (bankImage s)) }
  obtain ⟨bs, hfold, -, hget⟩ := forEach_setBank prechargeBank (fun _ b => b.closed s.clock) s.clock
    (fun t n ht hb => by rw [prechargeBank_eq t n hb, ht]) (readyBanks u)
    (by rw [readyBanks_eq]; exact List.nodup_range.filter _) u rfl h
  refine ⟨bs, s.core.vault.image.getD (bankImage s), hfold, fun m => (hget m).trans ?_⟩
  have hready : m ∈ readyBanks u ↔ m < 64 ∧ (bankOf s m).mode = .active ∧ (bankOf s m).preAt ≤ s.clock := mem_readyBanks u m
  have hbank : bankOf u m = bankOf s m := rfl
  unfold Bank.drawnBack
  rw [hbank]
  by_cases hopen : m < 64 ∧ (bankOf s m).mode = .active ∧ (bankOf s m).preAt ≤ s.clock
  · rw [if_pos (hready.mpr hopen), if_pos hopen]
    exact if_pos hopen.2.1
  · rw [if_neg (mt hready.mp hopen), if_neg hopen]

/-- Only the tile checked out is another. -/
def CoreAlone (s t : State) : Prop := ∃ c, t = { s with core := c }

theorem CoreAlone.trans {s t u : State} (h : CoreAlone s t) (k : CoreAlone t u) : CoreAlone s u := by
  obtain ⟨_, rfl⟩ := h
  obtain ⟨_, rfl⟩ := k
  exact ⟨_, rfl⟩

theorem CoreAlone.forEach {f : State → Nat → State} (hf : ∀ s n, CoreAlone s (f s n)) (ns : List Nat) (s : State) :
    CoreAlone s (forEach s f ns) := by
  unfold Machine.forEach
  induction ns generalizing s with
  | nil => exact ⟨_, rfl⟩
  | cons n ns ih => exact (hf s n).trans (ih _)

theorem CoreAlone.sameGlobal {s t : State} (h : CoreAlone s t) : SameGlobal s t := by
  obtain ⟨_, rfl⟩ := h
  exact ⟨_, _, _, rfl⟩

theorem coreAlone_prechargeBank (s : State) (n : Nat) : CoreAlone s (prechargeBank s n) := by
  unfold prechargeBank
  dsimp only
  split <;> exact ⟨_, rfl⟩

theorem coreAlone_drawBack (s : State) : CoreAlone s (drawBack s) :=
  CoreAlone.trans (t := s.mapVault fun v => { v with image := some (v.image.getD (bankImage s)) }) ⟨_, rfl⟩
    (.forEach coreAlone_prechargeBank _ _)

theorem banks_of_tileWf (t : Tile) (h : Safety.tileWf t = true) : twf {} t.vault.banks = true := by
  have hvault := (parts_of_tileWf t h).2.2
  rw [Safety.vaultWf, Bool.and_eq_true, Bool.and_eq_true, Bool.and_eq_true, Bool.and_eq_true, Bool.and_eq_true, Bool.and_eq_true,
    Bool.and_eq_true] at hvault
  obtain ⟨⟨⟨⟨⟨⟨⟨-, hbanks⟩, -⟩, -⟩, -⟩, -⟩, -⟩, -⟩ := hvault
  exact hbanks

/-- Every tile of a gang draws back. -/
theorem drawBack_tiles (g : Gang) (s : State) (h : Safety.wf s = true) (hg : g.ox + g.w ≤ 16) :
    let t := g.tiles.foldl (fun s n => s.onTile n drawBack) s
    SameGlobal s t ∧ ∀ n ∈ g.tiles, (t.tile n).vault.image.isSome = true ∧ (t.tile n).regs = (s.tile n).regs ∧
      ∀ m, tget {} (t.tile n).vault.banks m = (tget {} (s.tile n).vault.banks m).drawnBack s.clock m := by
  have hlocal (s : State) : (drawBack s).tiles = s.tiles ∧ (drawBack s).cur = s.cur := by
    obtain ⟨_, hc⟩ := coreAlone_drawBack s
    rw [hc]
    exact ⟨rfl, rfl⟩
  obtain ⟨-, hG, -, heach⟩ := (visits_tiles drawBack hlocal).foldl_nodup (G := SameGlobal) id SameGlobal.trans
    (fun _ s => (coreAlone_drawBack s).sameGlobal) g.tiles s (tiles_of_wf s h) (by rw [List.map_id]; exact g.tiles_nodup hg)
  refine ⟨hG, fun n hn => ?_⟩
  obtain ⟨u, hu, -, hcore, htile, -⟩ := heach n hn
  obtain ⟨bs, i, hdraw, hbanks⟩ := drawBack_draws u (by rw [hcore]; exact banks_of_tileWf _ (wf_tile s n h))
  have htile' : (g.tiles.foldl (fun s n => s.onTile n drawBack) s).tile n =
      { s.tile n with vault := { (s.tile n).vault with image := some i, banks := bs } } := by
    rw [← show u.core = s.tile n from hcore]
    exact htile.trans (by rw [hdraw]; rfl)
  refine ⟨by rw [htile']; rfl, by rw [htile'], fun m => ?_⟩
  rw [htile']
  refine (hbanks m).trans ?_
  rw [bankOf, hcore, hu.clock_eq]
  rfl

theorem execPreemptionSave_draws (s : State) (gid : Nat) (hdue : drawBackDue s gid = true) :
    execPreemptionSave gid s = .next ((s.gang gid).tiles.foldl (fun s n => s.onTile n drawBack) s) := if_pos hdue

/-! ### A save meets no error where none stands (R293, R295) -/

theorem any_eq_false {β : Type} (xs : List β) (f : β → Bool) (h : ∀ x ∈ xs, f x = false) : xs.any f = false := by
  rw [List.any_eq_false]
  exact fun x hx => by rw [h x hx]; exact Bool.false_ne_true

theorem meetErrors_errorFree (s : State) (h : errorFree s.core) (hq : twf {} s.core.regs.q = true) : meetErrors s = s := by
  obtain ⟨hs, hv, hm, hacc, hstreams, hstaging⟩ := h
  have hgood (x : Nat × Stream) (hx : x ∈ s.core.regs.q) : x.2.mark = .good := by
    rw [← (tget_of_mem ({} : Stream) s.core.regs.q 0 hq x hx).2]
    exact hstreams x.1
  have hany : s.core.regs.q.any (fun x => x.2.mark == .correctable) = false := any_eq_false _ _ fun x hx => by rw [hgood x hx]; rfl
  have hfold (ns : List Nat) : ns.foldl (fun q n =>
      let x := tget {} q n
      tset {} q n { x with poison := x.poison || !(x.mark == .good || x.mark == .correctable) }) s.core.regs.q = s.core.regs.q := by
    induction ns with
    | nil => rfl
    | cons n ns ih =>
      rw [List.foldl_cons]
      have hone : ({ tget {} s.core.regs.q n with poison := (tget {} s.core.regs.q n).poison ||
          !((tget {} s.core.regs.q n).mark == .good || (tget {} s.core.regs.q n).mark == .correctable) } : Stream) =
          tget {} s.core.regs.q n := by
        rw [hstreams n]
        simp
      dsimp only
      rw [hone, tset_self _ _ n hq, ih]
  have htag (xs : Table Bool) (hx : xs = []) (p : Table Bool) :
      (xs.map Prod.fst).foldl (fun p n => tset false p n true) p = p := by rw [hx]; rfl
  have hbad (xs : Table Mark) (hx : xs = []) : (xs.filter fun x => !(x.2 == .good || x.2 == .correctable)).map Prod.fst = [] := by
    rw [hx]; rfl
  have hfix (xs : Table Mark) (hx : xs = []) : xs.any (fun x => x.2 == .correctable) = false := by rw [hx]; rfl
  unfold meetErrors
  simp only [State.mapRegs, State.mapStaging, State.mapCore, htag _ hs, htag _ hv, htag _ hm, hbad _ hacc, hbad _ hstaging, hfix _ hacc,
    hfix _ hstaging, hany, Bool.or_self, State.correctIf, Bool.false_eq_true, if_false, List.map_nil, List.foldl_nil, spoilUnits, hfold]

end Sys2Proof.Machine
end
section
/-! PROOFS. The context area of a task: what a save writes there, region by region (R179, R289, R290, Tables 13.5 and 13.8). -/

namespace Sys2Proof.Machine

/-! ### Regions laid out one after the other -/

/-- Regions, by offset and size, lie between two bounds, one after the other. -/
structure Laid (lo hi : Nat) (rs : List (Nat × Nat)) : Prop where
  within : ∀ r ∈ rs, lo ≤ r.1 ∧ r.1 + r.2 ≤ hi
  apart : rs.Pairwise fun r q => r.1 + r.2 ≤ q.1

theorem Laid.nil {lo hi : Nat} : Laid lo hi [] := ⟨fun _ h => absurd h List.not_mem_nil, .nil⟩

theorem Laid.single {lo hi off n : Nat} (hlo : lo ≤ off) (hhi : off + n ≤ hi) : Laid lo hi [(off, n)] :=
  ⟨fun r hr => by rw [List.mem_singleton] at hr; subst hr; exact ⟨hlo, hhi⟩, List.pairwise_singleton _ _⟩

theorem Laid.append {lo mid hi : Nat} {rs qs : List (Nat × Nat)} (h : Laid lo mid rs) (k : Laid mid hi qs) (hlo : lo ≤ mid)
    (hhi : mid ≤ hi) : Laid lo hi (rs ++ qs) where
  within := fun r hr => by
    rcases List.mem_append.mp hr with hr | hr
    · have := h.within r hr; omega
    · have := k.within r hr; omega
  apart := List.pairwise_append.mpr ⟨h.apart, k.apart, fun r hr q hq => by
    have := h.within r hr
    have := k.within q hq
    omega⟩

theorem Laid.cons {lo mid hi off n : Nat} {qs : List (Nat × Nat)} (hoff : lo ≤ off) (hmid : off + n ≤ mid) (hhi : mid ≤ hi)
    (k : Laid mid hi qs) : Laid lo hi ((off, n) :: qs) :=
  (Laid.single hoff hmid).append k (by omega) hhi

/-- Groups of regions, each in its own stride. -/
theorem Laid.flatMap {lo w : Nat} {f : Nat → List (Nat × Nat)} (hf : ∀ i, Laid (lo + w * i) (lo + w * (i + 1)) (f i)) (n : Nat) :
    Laid lo (lo + w * n) ((List.range n).flatMap f) := by
  induction n with
  | zero => exact .nil
  | succ n ih =>
    rw [List.range_succ, List.flatMap_append, List.flatMap_cons, List.flatMap_nil, List.append_nil]
    exact ih.append (hf n) (by omega) (by rw [Nat.mul_add]; omega)

/-! ### Regions written -/

/-- A region by offset and size. -/
def regionSize (r : Nat × List Byte) : Nat × Nat := (r.1, r.2.length)

/-- Bytes with the regions of a list written from a base address. -/
def putRegions (base : Nat) (t : Table Byte) (rs : List (Nat × List Byte)) : Table Byte :=
  rs.foldl (fun t r => writeBytes t (base + r.1) r.2) t

/-- Bytes that lie apart from every region stand. -/
theorem tget_putRegions_apart (base : Nat) (rs : List (Nat × List Byte)) (t : Table Byte) (h : twf 0 t = true) (p : Nat)
    (hp : ∀ r ∈ rs, p < base + r.1 ∨ base + r.1 + r.2.length ≤ p) : tget 0 (putRegions base t rs) p = tget 0 t p := by
  induction rs generalizing t with
  | nil => rfl
  | cons r rs ih =>
    rw [putRegions, List.foldl_cons, ← putRegions, ih _ (twf_writeBytes _ _ _ h) fun q hq => hp q (List.mem_cons_of_mem _ hq),
      tget_writeBytes _ _ _ h, if_neg]
    have := hp r List.mem_cons_self
    omega

/-- Each region of a layout is read back. -/
theorem readBytes_putRegions (base lo hi : Nat) (rs : List (Nat × List Byte)) (hl : Laid lo hi (rs.map regionSize)) (t : Table Byte)
    (h : twf 0 t = true) (r : Nat × List Byte) (hr : r ∈ rs) : readBytes (putRegions base t rs) (base + r.1) r.2.length = r.2 := by
  induction rs generalizing t with
  | nil => exact absurd hr List.not_mem_nil
  | cons q rs ih =>
    obtain ⟨hwithin, hapart⟩ := hl
    rw [List.map_cons, List.pairwise_cons] at hapart
    have hwf := twf_writeBytes t (base + q.1) q.2 h
    rw [putRegions, List.foldl_cons, ← putRegions]
    rcases List.mem_cons.mp hr with rfl | hr
    · have hlater (q : Nat × List Byte) (hq : q ∈ rs) : r.1 + r.2.length ≤ q.1 := hapart.1 _ (List.mem_map_of_mem hq)
      have hown := readBytes_writeBytes t (base + r.1) r.2 h 0 r.2.length (by omega)
      rw [Nat.add_zero, List.drop_zero, List.take_length] at hown
      refine Eq.trans ?_ hown
      rw [readBytes_eq, readBytes_eq]
      refine List.map_congr_left fun i hi => tget_putRegions_apart base rs _ hwf _ fun q hq => ?_
      rw [List.mem_range] at hi
      have := hlater q hq
      omega
    · exact ih ⟨fun q hq => hwithin q (List.mem_cons_of_mem _ hq), hapart.2⟩ _ hwf hr

/-! ### The layout of a context area -/

theorem staging_bytes_length (t : Staging) (a n : Nat) : (t.bytes a n).length = n := tgetList_length _ _ _ _ _

theorem flatMap_bytesOf_length (n k : Nat) (f : Nat → Nat) : ((List.range n).flatMap fun i => bytesOf k (f i)).length = k * n := by
  rw [flatMap_length k _ (fun i => bytesOf_length k _), List.length_range]

theorem controlWords_length (t : Tile) : (controlWords t).length = 128 := by simp [controlWords]

theorem streamRegion_laid (r : Regs) (n : Nat) :
    Laid (0x180000 + 0xC000 * n) (0x180000 + 0xC000 * (n + 1)) ((streamRegion r n).map regionSize) := by
  have hlanes : (streamRegion r n).map regionSize = (List.range 48).flatMap fun i => [(0x180000 + 0xC000 * n + 1024 * i, 1024)] := by
    rw [streamRegion, List.map_map, ← List.map_eq_flatMap]
    exact List.map_congr_left fun i _ => by rw [Function.comp, regionSize, bytesOf_length]
  have h := Laid.flatMap (lo := 0x180000 + 0xC000 * n) (w := 1024) (f := fun i => [(0x180000 + 0xC000 * n + 1024 * i, 1024)])
    (fun i => .single (le_refl _) (by omega)) 48
  rw [hlanes, show 0x180000 + 0xC000 * (n + 1) = 0x180000 + 0xC000 * n + 1024 * 48 by omega]
  exact h

theorem contextRegions_laid (s : State) : Laid 0 0x1E8000 ((contextRegions s).map regionSize) := by
  have hstreams := Laid.flatMap (lo := 0x180000) (w := 0xC000) (fun n => streamRegion_laid s.core.regs n) 8
  unfold contextRegions
  dsimp only
  rw [List.map_append, List.map_append, List.map_flatMap]
  simp only [List.map_cons, List.map_nil, regionSize, staging_bytes_length, flatMap_bytesOf_length, bytesOf_length,
    flatMap_length 8 (bytesOf 8) (bytesOf_length 8), controlWords_length, Config.stagingBytes]
  refine Laid.append (mid := 0x1E0000) (Laid.append (mid := 0x180000) ?stagingAcc hstreams (by omega) (by omega)) ?rest (by omega) (by omega)
  case stagingAcc =>
    exact .cons (le_refl _) (le_refl 0x100000) (by omega) (.single (by omega) (by omega))
  case rest =>
    exact .cons (le_refl _) (le_refl 0x1E6000) (by omega) <| .cons (le_refl _) (le_refl 0x1E7200) (by omega) <|
      .cons (mid := 0x1E7400) (le_refl _) (by omega) (by omega) <| .cons (le_refl _) (le_refl 0x1E7800) (by omega) <|
      .cons (le_refl _) (le_refl 0x1E7A00) (by omega) <| .cons (le_refl _) (le_refl 0x1E7C00) (by omega) <|
      .single (le_refl _) (by omega)

/-! ### What a save writes -/

theorem res_writeRegions (base : Nat) (rs : List (Nat × List Byte)) (m : Mem) :
    (writeRegions base m rs).res = putRegions base m.res rs := by
  have hstore (m : Mem) (a : Nat) (bs : List Byte) : (m.store .reservoir a bs).res = writeBytes m.res a bs := by
    unfold Mem.store
    split
    · next h => rw [List.isEmpty_iff.mp h]; rfl
    · rfl
  unfold writeRegions putRegions
  induction rs generalizing m with
  | nil => rfl
  | cons r rs ih => rw [List.foldl_cons, List.foldl_cons, ih, hstore]

theorem writeRegions_append (base : Nat) (m : Mem) (rs os : List (Nat × List Byte)) :
    writeRegions base m (rs ++ os) = writeRegions base (writeRegions base m rs) os := List.foldl_append

theorem wf_writeRegions (base : Nat) (rs : List (Nat × List Byte)) (m : Mem) (h : Memory.wf m = true) :
    Memory.wf (writeRegions base m rs) = true := by
  unfold writeRegions
  induction rs generalizing m with
  | nil => exact h
  | cons r rs ih => exact ih _ (Mem.wf_store _ _ _ _ h)

/-- Regions with free values, by offset and size, are written as regions are. -/
theorem foldl_openRegions (rs : List (Nat × Nat)) (s : State) : ∃ (os : List (Nat × List Byte)) (k : Nat), os.map regionSize = rs ∧
    rs.foldl (fun s r => s.takeFree.2.mapMem fun m => m.store .reservoir (s.core.task.ctx + r.1) (bytesOf r.2 s.takeFree.1)) s =
      { s with fresh := k, mem := writeRegions s.core.task.ctx s.mem os } := by
  induction rs generalizing s with
  | nil => exact ⟨[], s.fresh, rfl, rfl⟩
  | cons r rs ih =>
    obtain ⟨os, k, hos, hfold⟩ := ih (s.takeFree.2.mapMem fun m => m.store .reservoir (s.core.task.ctx + r.1) (bytesOf r.2 s.takeFree.1))
    refine ⟨(r.1, bytesOf r.2 s.takeFree.1) :: os, k, ?_, ?_⟩
    · rw [List.map_cons, hos, regionSize, bytesOf_length]
    · rw [List.foldl_cons, hfold]
      rfl

/-- A context is written as its regions, with those that hold free values behind them. -/
theorem writeContext_writes (s : State) : ∃ (os : List (Nat × List Byte)) (k : Nat),
    Laid 0 0x200000 ((contextRegions s ++ os).map regionSize) ∧
    writeContext s = { s with fresh := k, mem := writeRegions s.core.task.ctx s.mem (contextRegions s ++ os) } := by
  obtain ⟨os, k, hos, hfold⟩ := foldl_openRegions openRegions { s with mem := writeRegions s.core.task.ctx s.mem (contextRegions s) }
  refine ⟨os, k, ?_, ?_⟩
  · rw [List.map_append, hos, openRegions]
    exact (contextRegions_laid s).append (.cons (le_refl _) (le_refl 0x1EA000) (by omega) <| .cons (le_refl _) (le_refl 0x1EE000) (by omega) <|
      .cons (le_refl _) (le_refl 0x1F0000) (by omega) <| .single (le_refl _) (by omega)) (by omega) (by omega)
  · rw [writeRegions_append]
    unfold writeContext State.mapMem
    generalize contextRegions s = rs at *
    exact hfold

/-- What a save writes: the regions of the context, and nothing outside the area. -/
structure SavesContext (s t : State) : Prop where
  frame : ∃ k m, t = { s with fresh := k, mem := m }
  wf : Memory.wf s.mem = true → Memory.wf t.mem = true
  apart : Memory.wf s.mem = true → ∀ p, p < s.core.task.ctx ∨ s.core.task.ctx + 0x200000 ≤ p → tget 0 t.mem.res p = tget 0 s.mem.res p
  region : Memory.wf s.mem = true → ∀ r ∈ contextRegions s, readBytes t.mem.res (s.core.task.ctx + r.1) r.2.length = r.2

theorem writeContext_saves (s : State) : SavesContext s (writeContext s) := by
  obtain ⟨os, k, hlaid, hwrite⟩ := writeContext_writes s
  rw [hwrite]
  refine ⟨⟨_, _, rfl⟩, ?_, fun hwf p hp => ?_, fun hwf r hr => ?_⟩
  · generalize contextRegions s ++ os = rs
    exact wf_writeRegions _ _ _
  · have hres := Mem.twf_space s.mem .reservoir hwf
    dsimp only
    rw [res_writeRegions]
    refine tget_putRegions_apart _ _ _ hres p fun r hr => ?_
    have := hlaid.within _ (List.mem_map_of_mem hr)
    dsimp only [regionSize] at this
    omega
  · have hres := Mem.twf_space s.mem .reservoir hwf
    dsimp only
    rw [res_writeRegions]
    exact readBytes_putRegions _ _ _ _ hlaid _ hres r (List.mem_append_left _ hr)

/-! ### What a context area holds (Tables 13.5 and 13.8) -/

/-- Bytes hold the context of a tile at its area, as far as the manual gives the layout. -/
structure ContextHolds (y : Tile) (t : Table Byte) : Prop where
  staging : ∀ k, k < 2 ^ 20 → tget 0 t (y.task.ctx + k) = tget 0 y.staging.cells k
  acc : ∀ k, k < 2048 → readBytes t (y.task.ctx + 0x100000 + 256 * k) 256 = bytesOf 256 (tget 0 y.regs.acc k).toNat
  m : ∀ k, k < 256 → readBytes t (y.task.ctx + 0x1E0000 + 96 * k) 96 = bytesOf 96 (tget 0 y.regs.m k).toNat
  v : ∀ k, k < 48 → readBytes t (y.task.ctx + 0x1E6000 + 96 * k) 96 = bytesOf 96 (tget 0 y.regs.v k).toNat
  s : ∀ k, k < 56 → readWord t (y.task.ctx + 0x1E7200 + 8 * k) = if k = 0 then 0 else tget 0 y.regs.s k
  p : ∀ k, k < 8 → (readWord t (y.task.ctx + 0x1E7430)).getLsbD k = (k == 0 || tget false y.regs.p k)
  cyc : readWord t (y.task.ctx + 0x1E7408) = BitVec.ofNat 64 y.ctl.cyc
  image : ∀ im, y.vault.image = some im → readBytes t (y.task.ctx + 0x1E7C00) 544 = bytesOf 544 im.toNat

theorem readBytes_congr (t u : Table Byte) (a n : Nat) (h : ∀ p, a ≤ p → p < a + n → tget 0 u p = tget 0 t p) :
    readBytes u a n = readBytes t a n := by
  rw [readBytes_eq, readBytes_eq]
  refine List.map_congr_left fun i hi => h _ (by omega) ?_
  rw [List.mem_range] at hi
  omega

/-- What an area holds depends on its own bytes alone. -/
theorem ContextHolds.congr {y : Tile} {t u : Table Byte} (h : ContextHolds y t)
    (hu : ∀ p, y.task.ctx ≤ p → p < y.task.ctx + 0x200000 → tget 0 u p = tget 0 t p) : ContextHolds y u := by
  have hbytes (o n : Nat) (hn : o + n ≤ 0x200000) : readBytes u (y.task.ctx + o) n = readBytes t (y.task.ctx + o) n :=
    readBytes_congr _ _ _ _ fun p hlo hhi => hu p (by omega) (by omega)
  have hword (o : Nat) (hn : o + 8 ≤ 0x200000) : readWord u (y.task.ctx + o) = readWord t (y.task.ctx + o) := by
    rw [readWord, hbytes o 8 hn, readWord]
  refine ⟨fun k hk => ?_, fun k hk => ?_, fun k hk => ?_, fun k hk => ?_, fun k hk => ?_, fun k hk => ?_, ?_, fun im him => ?_⟩
  · rw [hu _ (by omega) (by omega), h.staging k hk]
  · rw [Nat.add_assoc, hbytes _ _ (by omega), ← Nat.add_assoc, h.acc k hk]
  · rw [Nat.add_assoc, hbytes _ _ (by omega), ← Nat.add_assoc, h.m k hk]
  · rw [Nat.add_assoc, hbytes _ _ (by omega), ← Nat.add_assoc, h.v k hk]
  · rw [Nat.add_assoc, hword _ (by omega), ← Nat.add_assoc, h.s k hk]
  · rw [hword _ (by omega), h.p k hk]
  · rw [hword _ (by omega), h.cyc]
  · rw [hbytes _ _ (by omega), h.image im him]

/-- Bit `k` of a number made of flags. -/
theorem testBit_flagWord (f : Nat → Bool) (n k : Nat) : (flagWord f n).testBit k = (decide (k < n) && f k) := by
  have hbound (n : Nat) : flagWord f n < 2 ^ n := by
    induction n with
    | zero => exact Nat.one_pos
    | succ n ih =>
      have hbit : (f n).toNat ≤ 1 := Bool.toNat_le _
      have hterm : (f n).toNat * 2 ^ n ≤ 2 ^ n := by nlinarith [Nat.two_pow_pos n]
      rw [flagWord] at ih ⊢
      rw [List.range_succ, List.map_append, List.sum_append, List.map_singleton, List.sum_singleton, place, Nat.pow_succ]
      omega
  induction n with
  | zero => simp [flagWord]
  | succ n ih =>
    have hsplit : flagWord f (n + 1) = 2 ^ n * (f n).toNat + flagWord f n := by
      rw [flagWord, List.range_succ, List.map_append, List.sum_append, List.map_singleton, List.sum_singleton, place, Nat.add_comm,
        Nat.mul_comm]
      rfl
    rw [hsplit, Nat.testBit_two_pow_mul_add _ (hbound n)]
    by_cases hk : k < n
    · rw [if_pos hk, ih]
      simp [hk, Nat.lt_succ_of_lt hk]
    · rw [if_neg hk]
      by_cases hkn : k = n
      · subst hkn
        cases f k <;> simp
      · have hlt : ¬ k < n + 1 := by omega
        obtain ⟨i, hi⟩ : ∃ i, k - n = i + 1 := ⟨k - n - 1, by omega⟩
        rw [hi]
        cases f n <;> simp [hlt, Nat.testBit_succ]

/-- A run within a region that is laid out in equal parts. -/
theorem readBytes_region {t : Table Byte} {a o n k : Nat} {f : Nat → Nat} (m : Nat)
    (h : readBytes t (a + o) ((List.range n).flatMap fun i => bytesOf m (f i)).length = (List.range n).flatMap fun i => bytesOf m (f i))
    (hk : k < n) : readBytes t (a + o + m * k) m = bytesOf m (f k) := by
  have hlen : m * k + m ≤ ((List.range n).flatMap fun i => bytesOf m (f i)).length := by
    rw [flatMap_bytesOf_length]
    calc m * k + m = m * (k + 1) := by ring
      _ ≤ m * n := Nat.mul_le_mul_left m hk
  rw [← readBytes_part t (a + o) _ (m * k) m hlen, h,
    flatMap_part m (fun i => bytesOf m (f i)) (fun i => bytesOf_length m _) (List.range n) k (by rw [List.length_range]; exact hk),
    List.getElem_range]

/-- A word of the control region. -/
theorem readWord_region {t : Table Byte} {a o i : Nat} {ws : List Nat}
    (h : readBytes t (a + o) (ws.flatMap (bytesOf 8)).length = ws.flatMap (bytesOf 8)) (hi : i < ws.length) :
    readWord t (a + o + 8 * i) = BitVec.ofNat 64 ws[i] := by
  have hlen : 8 * i + 8 ≤ (ws.flatMap (bytesOf 8)).length := by
    rw [flatMap_length 8 (bytesOf 8) (bytesOf_length 8)]
    omega
  rw [readWord, ← readBytes_part t (a + o) _ (8 * i) 8 hlen, h, flatMap_part 8 (bytesOf 8) (bytesOf_length 8) ws i hi, bitVec_ofBytes_bytesOf]

theorem controlWords_cyc (y : Tile) (h : 1 < (controlWords y).length) : (controlWords y)[1] = y.ctl.cyc := rfl

theorem controlWords_preds (y : Tile) (h : 6 < (controlWords y).length) :
    (controlWords y)[6] = flagWord (fun i => i == 0 || tget false y.regs.p i) 8 := rfl

/-- The regions of a context that a restore reads back, by offset. -/
theorem mem_contextRegions (s : State) :
    (0, s.core.staging.bytes 0 Config.stagingBytes) ∈ contextRegions s ∧
    (0x100000, (List.range 2048).flatMap fun n => bytesOf 256 (tget 0 s.core.regs.acc n).toNat) ∈ contextRegions s ∧
    (0x1E0000, (List.range 256).flatMap fun n => bytesOf 96 (tget 0 s.core.regs.m n).toNat) ∈ contextRegions s ∧
    (0x1E6000, (List.range 48).flatMap fun n => bytesOf 96 (tget 0 s.core.regs.v n).toNat) ∈ contextRegions s ∧
    (0x1E7200, (List.range 56).flatMap fun n => bytesOf 8 (readS s n).1.toNat) ∈ contextRegions s ∧
    (0x1E7400, (controlWords s.core).flatMap (bytesOf 8)) ∈ contextRegions s ∧
    (0x1E7C00, bytesOf 544 (s.core.vault.image.getD (bankImage s)).toNat) ∈ contextRegions s := by
  have hfirst (r : Nat × List Byte) (hr : r ∈ [(0x000000, s.core.staging.bytes 0 Config.stagingBytes),
      (0x100000, (List.range 2048).flatMap fun n => bytesOf 256 (tget 0 s.core.regs.acc n).toNat)]) : r ∈ contextRegions s :=
    List.mem_append_left _ (List.mem_append_left _ hr)
  have hlast (r : Nat × List Byte) (hr : r ∈ [(0x1E0000, (List.range 256).flatMap fun n => bytesOf 96 (tget 0 s.core.regs.m n).toNat),
      (0x1E6000, (List.range 48).flatMap fun n => bytesOf 96 (tget 0 s.core.regs.v n).toNat),
      (0x1E7200, (List.range 56).flatMap fun n => bytesOf 8 (readS s n).1.toNat),
      (0x1E7400, (controlWords s.core).flatMap (bytesOf 8)),
      (0x1E7800, (List.range 64).flatMap fun k => bytesOf 8 (tokenWord s k).toNat),
      (0x1E7A00, (List.range 64).flatMap fun k => bytesOf 8 (tget 0 s.core.canal.routes k).toNat),
      (0x1E7C00, bytesOf 544 (s.core.vault.image.getD (bankImage s)).toNat)]) : r ∈ contextRegions s :=
    List.mem_append_right _ hr
  exact ⟨hfirst _ (.head _), hfirst _ (.tail _ (.head _)), hlast _ (.head _), hlast _ (.tail _ (.head _)), hlast _ (.tail _ (.tail _ (.head _))),
    hlast _ (.tail _ (.tail _ (.tail _ (.head _)))), hlast _ (.tail _ (.tail _ (.tail _ (.tail _ (.tail _ (.tail _ (.head _)))))))⟩

/-- An area that a save has written holds the context of its tile. -/
theorem SavesContext.holds {s t : State} (h : SavesContext s t) (hwf : Memory.wf s.mem = true) : ContextHolds s.core t.mem.res := by
  obtain ⟨hstaging, hacc, hm, hv, hs, hcontrol, himage⟩ := mem_contextRegions s
  have hregion := h.region hwf
  replace hacc := hregion _ hacc
  replace hm := hregion _ hm
  replace hv := hregion _ hv
  replace hs := hregion _ hs
  have hwords := hregion _ hcontrol
  dsimp only at hacc hm hv hs
  refine ⟨fun k hk => ?_, fun k hk => readBytes_region (a := s.core.task.ctx) (o := 0x100000) 256 hacc hk,
    fun k hk => readBytes_region (a := s.core.task.ctx) (o := 0x1E0000) 96 hm hk,
    fun k hk => readBytes_region (a := s.core.task.ctx) (o := 0x1E6000) 96 hv hk, fun k hk => ?_, fun k hk => ?_, ?_, fun im him => ?_⟩
  · have hbytes := hregion _ hstaging
    dsimp only at hbytes
    rw [staging_bytes_length, readBytes_eq, Staging.bytes, tgetList_eq, Nat.add_zero] at hbytes
    have hbyte := List.map_inj_left.mp hbytes k (List.mem_range.mpr hk)
    rwa [Nat.zero_add, stageAddr, Nat.mod_eq_of_lt (show k < Config.stagingBytes from hk)] at hbyte
  · rw [readWord, readBytes_region (a := s.core.task.ctx) (o := 0x1E7200) 8 hs hk, bitVec_ofBytes_bytesOf, BitVec.ofNat_toNat, BitVec.setWidth_eq, readS]
    split <;> rfl
  · have hword := readWord_region (i := 6) hwords (by rw [controlWords_length]; omega)
    rw [controlWords_preds] at hword
    rw [show s.core.task.ctx + 0x1E7430 = s.core.task.ctx + 0x1E7400 + 8 * 6 by omega, hword, BitVec.getLsbD_ofNat, testBit_flagWord]
    simp [hk, show k < 64 by omega]
  · have hword := readWord_region (i := 1) hwords (by rw [controlWords_length]; omega)
    rwa [controlWords_cyc] at hword
  · have hbytes := hregion _ himage
    rw [him] at hbytes
    rwa [bytesOf_length] at hbytes

end Sys2Proof.Machine
end
section
/-! PROOFS. A gang is saved: its tiles go one by one into their context areas and are free (R289, R290). -/

namespace Sys2Proof.Machine

open Claims (errorFree inPlace keptKey)

/-- The key under which a save keeps a tile, and what it keeps. -/
def Tile.saveKey (y : Tile) : Nat := savedKey y.task.gid y.task.tix

/-- See `keptTile`: what a save keeps of a tile. -/
def Tile.keptPart (y : Tile) : Tile := { y with isram := {}, barge := { y.barge with lookaside := [] }, vault := {} }

/-- The tile checked out is saved. -/
structure SavesTile (s t : State) : Prop where
  frame : ∃ k m c vs, t = { s with fresh := k, mem := m, core := c, saved := vs }
  status : t.core.ctl.status = .idle
  kept : t.saved = tset {} s.saved s.core.saveKey s.core.keptPart
  wf : Memory.wf s.mem = true → Memory.wf t.mem = true
  apart : Memory.wf s.mem = true → ∀ p, p < s.core.task.ctx ∨ s.core.task.ctx + 0x200000 ≤ p → tget 0 t.mem.res p = tget 0 s.mem.res p
  holds : Memory.wf s.mem = true → ContextHolds s.core t.mem.res

theorem saveTile_saves (s : State) (h : errorFree s.core) (hw : Safety.tileWf s.core = true) : SavesTile s (saveTile s) := by
  have hq : twf {} s.core.regs.q = true := by
    have hregs := (parts_of_tileWf _ hw).1
    simp only [Safety.regsWf, Bool.and_eq_true] at hregs
    obtain ⟨⟨⟨-, hq⟩, -⟩, -⟩ := hregs
    exact hq
  have hsaves := writeContext_saves s
  unfold saveTile
  rw [meetErrors_errorFree s h hq]
  obtain ⟨k, m, hwrite⟩ := hsaves.frame
  have hholds := hsaves.holds
  have hapart := hsaves.apart
  have hwf := hsaves.wf
  rw [hwrite] at hholds hapart hwf ⊢
  exact ⟨⟨_, _, _, _, rfl⟩, rfl, rfl, hwf, hapart, hholds⟩

/-- What is needed of a list of tiles to be saved one by one. -/
structure Saveable (s : State) (ns : List Nat) : Prop where
  nodup : ns.Nodup
  tiles : twf {} s.tiles = true
  mem : Memory.wf s.mem = true
  saved : twf {} s.saved = true
  each : ∀ n ∈ ns, errorFree (s.tile n) ∧ Safety.tileWf (s.tile n) = true
  keys : ∀ n ∈ ns, ∀ m ∈ ns, n ≠ m →
    (s.tile n).saveKey ≠ (s.tile m).saveKey

/-- Tiles are saved one by one. -/
structure SavesTiles (ns : List Nat) (s t : State) : Prop where
  frame : ∃ k m c ts vs n, t = { s with fresh := k, mem := m, core := c, tiles := ts, saved := vs, cur := n }
  other : ∀ n, n ∉ ns → t.tile n = s.tile n
  status : ∀ n ∈ ns, (t.tile n).ctl.status = .idle
  kept : ∀ n ∈ ns, tget {} t.saved (s.tile n).saveKey = (s.tile n).keptPart
  unkept : ∀ k, (∀ n ∈ ns, k ≠ (s.tile n).saveKey) → tget {} t.saved k = tget {} s.saved k
  apart : ∀ p, (∀ n ∈ ns, p < (s.tile n).task.ctx ∨ (s.tile n).task.ctx + 0x200000 ≤ p) → tget 0 t.mem.res p = tget 0 s.mem.res p
  holds : ∀ n ∈ ns, (∀ m ∈ ns, m ≠ n → (s.tile n).task.ctx + 0x200000 ≤ (s.tile m).task.ctx ∨
    (s.tile m).task.ctx + 0x200000 ≤ (s.tile n).task.ctx) → ContextHolds (s.tile n) t.mem.res

/-- One tile is saved. -/
theorem savesTiles_one (s : State) (n : Nat) (htiles : twf {} s.tiles = true) (hmem : Memory.wf s.mem = true)
    (hsaved : twf {} s.saved = true) (herr : errorFree (s.tile n)) (htile : Safety.tileWf (s.tile n) = true) :
    let t := s.onTile n saveTile
    SavesTiles [n] s t ∧ twf {} t.tiles = true ∧ Memory.wf t.mem = true ∧ twf {} t.saved = true := by
  intro t
  have hcore := select_core s n htiles
  have hone := saveTile_saves (s.select n) (by rw [hcore]; exact herr) (by rw [hcore]; exact htile)
  obtain ⟨k, m, c, vs, hframe⟩ := hone.frame
  obtain ⟨htilesT, htileT⟩ := tile_onTile_local s n saveTile htiles (by rw [hframe]; exact ⟨rfl, rfl⟩)
  obtain ⟨co, ts, hselect⟩ := select_only s n
  obtain ⟨co', ts', hback⟩ := select_only (saveTile (s.select n)) s.cur
  have hmemT : t.mem = (saveTile (s.select n)).mem := by rw [show t = s.onTile n saveTile from rfl, State.onTile, hback]
  have hsavedT : t.saved = (saveTile (s.select n)).saved := by rw [show t = s.onTile n saveTile from rfl, State.onTile, hback]
  have hframeT : ∃ k m c ts vs n', t = { s with fresh := k, mem := m, core := c, tiles := ts, saved := vs, cur := n' } := by
    rw [show t = s.onTile n saveTile from rfl, State.onTile, hback, hframe, hselect]
    exact ⟨_, _, _, _, _, _, rfl⟩
  have hkept := hone.kept
  have hapart := hone.apart
  have hholds := hone.holds
  have hwf := hone.wf
  rw [hcore] at hkept hapart hholds
  rw [show (s.select n).mem = s.mem by rw [hselect], ← hmemT] at hapart hholds hwf
  rw [show (s.select n).saved = s.saved by rw [hselect], ← hsavedT] at hkept
  refine ⟨⟨hframeT, fun q hq => ?_, fun q hq => ?_, fun q hq => ?_, fun q hq => ?_, fun p hp => ?_, fun q hq _ => ?_⟩, htilesT, hwf hmem,
    by rw [hkept]; exact twf_tset _ _ _ _ hsaved⟩
  · rw [List.mem_singleton] at hq
    rw [htileT, if_neg hq]
  · rw [List.mem_singleton] at hq
    rw [htileT, if_pos hq, hone.status]
  · rw [List.mem_singleton] at hq
    rw [hkept, hq, tget_tset_same _ _ _ _ hsaved]
  · rw [hkept, tget_tset_ne _ _ _ _ _ (hq n (List.mem_singleton.mpr rfl))]
  · exact hapart hmem p (hp n (List.mem_singleton.mpr rfl))
  · rw [List.mem_singleton] at hq
    rw [hq]
    exact hholds hmem

/-- A tile is saved, and then the others of the list. -/
theorem SavesTiles.cons {n : Nat} {ns : List Nat} {s t u : State} (h : SavesTiles [n] s t) (k : SavesTiles ns t u) (hn : n ∉ ns)
    (hkeys : ∀ m ∈ ns, (s.tile n).saveKey ≠ (s.tile m).saveKey) :
    SavesTiles (n :: ns) s u := by
  have hne (m : Nat) (hm : m ∈ ns) : m ≠ n := fun e => hn (e ▸ hm)
  have hstill (m : Nat) (hm : m ∈ ns) : t.tile m = s.tile m := h.other m (by rw [List.mem_singleton]; exact hne m hm)
  refine ⟨?_, fun m hm => ?_, fun m hm => ?_, fun m hm => ?_, fun i hi => ?_, fun p hp => ?_, fun m hm hapart => ?_⟩
  · obtain ⟨_, _, _, _, _, _, rfl⟩ := h.frame
    obtain ⟨_, _, _, _, _, _, rfl⟩ := k.frame
    exact ⟨_, _, _, _, _, _, rfl⟩
  · rw [List.mem_cons, not_or] at hm
    rw [k.other m hm.2, h.other m (by rw [List.mem_singleton]; exact hm.1)]
  · rcases List.mem_cons.mp hm with rfl | hm
    · rw [k.other m hn, h.status m (List.mem_singleton.mpr rfl)]
    · exact k.status m hm
  · rcases List.mem_cons.mp hm with rfl | hm
    · rw [k.unkept _ fun q hq => by rw [hstill q hq]; exact hkeys q hq, h.kept m (List.mem_singleton.mpr rfl)]
    · rw [← hstill m hm, k.kept m hm]
  · rw [k.unkept i fun m hm => by rw [hstill m hm]; exact hi m (List.mem_cons_of_mem _ hm), h.unkept i fun m hm => by
      rw [List.mem_singleton.mp hm]; exact hi n List.mem_cons_self]
  · rw [k.apart p fun m hm => by rw [hstill m hm]; exact hp m (List.mem_cons_of_mem _ hm), h.apart p fun m hm => by
      rw [List.mem_singleton.mp hm]; exact hp n List.mem_cons_self]
  · rcases List.mem_cons.mp hm with rfl | hm
    · refine (h.holds m (List.mem_singleton.mpr rfl) fun q hq hqm => absurd (List.mem_singleton.mp hq) hqm).congr fun p hlo hhi => ?_
      refine k.apart p fun q hq => ?_
      have := hapart q (List.mem_cons_of_mem _ hq) (hne q hq)
      rw [hstill q hq]
      omega
    · rw [← hstill m hm]
      refine k.holds m hm fun q hq hqm => ?_
      rw [hstill m hm, hstill q hq]
      exact hapart q (List.mem_cons_of_mem _ hq) hqm

theorem foldl_saveTile (ns : List Nat) (s : State) (h : Saveable s ns) : SavesTiles ns s (ns.foldl (fun s n => s.onTile n saveTile) s) := by
  induction ns generalizing s with
  | nil => exact ⟨⟨_, _, _, _, _, _, rfl⟩, fun _ _ => rfl, by simp, by simp, fun _ _ => rfl, fun _ _ => rfl, by simp⟩
  | cons n ns ih =>
    obtain ⟨hnodup, htiles, hmem, hsaved, heach, hkeys⟩ := h
    rw [List.nodup_cons] at hnodup
    have hne (m : Nat) (hm : m ∈ ns) : m ≠ n := fun e => hnodup.1 (e ▸ hm)
    obtain ⟨hone, htilesT, hmemT, hsavedT⟩ := savesTiles_one s n htiles hmem hsaved (heach n List.mem_cons_self).1 (heach n List.mem_cons_self).2
    rw [List.foldl_cons]
    generalize s.onTile n saveTile = t at *
    have hstill (m : Nat) (hm : m ∈ ns) : t.tile m = s.tile m := hone.other m (by rw [List.mem_singleton]; exact hne m hm)
    refine hone.cons (ih t ⟨hnodup.2, htilesT, hmemT, hsavedT, fun m hm => ?_, fun m hm q hq hmq => ?_⟩) hnodup.1 fun m hm =>
      hkeys n List.mem_cons_self m (List.mem_cons_of_mem _ hm) (hne m hm).symm
    · rw [hstill m hm]
      exact heach m (List.mem_cons_of_mem _ hm)
    · rw [hstill m hm, hstill q hq]
      exact hkeys m (List.mem_cons_of_mem _ hm) q (List.mem_cons_of_mem _ hq) hmq

/-! ### The gang is saved (R48, R51, R289) -/

theorem saved_of_wf (s : State) (h : Safety.wf s = true) : twf {} s.saved = true := by
  simp only [Safety.wf, Bool.and_eq_true] at h
  tauto

theorem saveKey_of_inPlace (s : State) (g i n : Nat) (h : inPlace s g) (hi : (s.gang g).tiles[i]? = some n) :
    (s.tile n).saveKey = keptKey s g i := by
  obtain ⟨hgid, htix⟩ := h i n hi
  rw [Tile.saveKey, savedKey, hgid, htix, keptKey, Nat.add_assoc]

/-- The tasks of a gang that stands on the grid, free of errors, can be saved one by one. -/
theorem saveable_of_inPlace (s : State) (g : Nat) (h : Safety.wf s = true) (hg : (s.gang g).ox + (s.gang g).w ≤ 16) (hplace : inPlace s g)
    (herr : ∀ n ∈ (s.gang g).tiles, errorFree (s.tile n)) : Saveable s (s.gang g).tiles where
  nodup := (s.gang g).tiles_nodup hg
  tiles := tiles_of_wf s h
  mem := mem_of_wf s h
  saved := saved_of_wf s h
  each := fun n hn => ⟨herr n hn, wf_tile s n h⟩
  keys := fun n hn m hm hnm he => by
    obtain ⟨i, hi⟩ := List.mem_iff_getElem?.mp hn
    obtain ⟨j, hj⟩ := List.mem_iff_getElem?.mp hm
    rw [saveKey_of_inPlace s g i n hplace hi, saveKey_of_inPlace s g j m hplace hj, keptKey, keptKey, Nat.add_left_cancel_iff] at he
    rw [he, hj] at hi
    exact hnm (Option.some.inj hi).symm

/-- What the save of gang `g` leaves. -/
structure GangSaved (s : State) (g : Nat) (t : State) : Prop where
  life : (t.gang g).life = .saved
  node : (t.node (s.gang g).node).life = .ready ∧ (t.node (s.gang g).node).saved = true
  tile : ∀ (i n : Nat), (s.gang g).tiles[i]? = some n → (t.tile n).ctl.status = .idle ∧ tget {} t.saved (keptKey s g i) = (s.tile n).keptPart
  holds : ∀ (i n : Nat), (s.gang g).tiles[i]? = some n → (∀ (j m : Nat), (s.gang g).tiles[j]? = some m → j ≠ i →
    (s.tile n).task.ctx + 0x200000 ≤ (s.tile m).task.ctx ∨ (s.tile m).task.ctx + 0x200000 ≤ (s.tile n).task.ctx) →
    ContextHolds (s.tile n) t.mem.res

theorem saveGang_saves (s : State) (g : Nat) (h : Safety.wf s = true) (hg : (s.gang g).ox + (s.gang g).w ≤ 16) (hplace : inPlace s g)
    (herr : ∀ n ∈ (s.gang g).tiles, errorFree (s.tile n)) : GangSaved s g (saveGang s g) := by
  have hsaves := foldl_saveTile _ s (saveable_of_inPlace s g h hg hplace herr)
  have hnodup := (s.gang g).tiles_nodup hg
  unfold saveGang
  generalize (s.gang g).tiles.foldl (fun s n => s.onTile n saveTile) s = u at *
  have hgangs : u.gangs = s.gangs := by obtain ⟨_, _, _, _, _, _, rfl⟩ := hsaves.frame; rfl
  have hnodes : u.lk.nodes = s.lk.nodes := by obtain ⟨_, _, _, _, _, _, rfl⟩ := hsaves.frame; rfl
  have hnode (f : Node → Node) : (((u.mapGang g fun x => { x with life := .saved }).mapNode (s.gang g).node f).mapLk fun l =>
      { l with order := l.order ++ [(s.gang g).node] }).node (s.gang g).node = f (u.node (s.gang g).node) :=
    (node_mapNode (u.mapGang g fun x => { x with life := .saved }) _ _ f (by
      show twf {} u.lk.nodes = true
      rw [hnodes]; exact nodes_of_wf s h)).trans (if_pos rfl)
  refine ⟨?_, ?_, fun i n hi => ?_, fun i n hi hapart => ?_⟩
  · exact congrArg Gang.life (gang_mapGang_same u g (fun x => { x with life := .saved }) (by rw [hgangs]; exact gangs_of_wf s h))
  · dsimp only
    rw [hnode]
    exact ⟨rfl, rfl⟩
  · have hn : n ∈ (s.gang g).tiles := List.mem_of_getElem? hi
    refine ⟨hsaves.status n hn, ?_⟩
    rw [← saveKey_of_inPlace s g i n hplace hi]
    exact hsaves.kept n hn
  · refine hsaves.holds n (List.mem_of_getElem? hi) fun m hm hmn => ?_
    obtain ⟨j, hj⟩ := List.mem_iff_getElem?.mp hm
    refine hapart j m hj fun hji => hmn ?_
    rw [hji, hi] at hj
    exact (Option.some.inj hj).symm

theorem execPreemptionSave_saves (s : State) (g : Nat) (hc : controlRuns s = true) (hdraw : drawBackDue s g = false) (hdue : saveDue s g = true) :
    execPreemptionSave g s = .next (saveGang s g) := by
  unfold execPreemptionSave
  rw [hdraw, if_neg Bool.false_ne_true, controlled_next s _ hc, if_pos hdue]

end Sys2Proof.Machine
end
section
/-! PROOFS. One task is restored from its context area: its registers, its staging, its control state and its banks (R51, R144, R232, R291, R292, R294,
R295). -/

namespace Sys2Proof.Machine

open Claims (bytesAt wordAt)

/-! ### Tables given below a bound -/

theorem tget_tableOf {α : Type} [DecidableEq α] (d : α) (n k : Nat) (f : Nat → α) (hk : k < n) : tget d (tableOf d n f) k = f k := by
  have h := tget_tsetList_mem d id 0 ((List.range n).map f) [] (twf_nil d) (fun i j _ _ hij => by simpa using hij) k (by simpa using hk)
  rw [tableOf]
  simpa using h

/-- The staging cells of a run read back. -/
theorem tget_tsetList_readBytes (t : Table Byte) (a n k : Nat) (hk : k < n) : tget 0 (tsetList 0 id 0 (readBytes t a n) []) k = tget 0 t (a + k) := by
  have h := tget_tsetList_mem 0 id 0 (readBytes t a n) [] (twf_nil 0) (fun i j _ _ hij => by simpa using hij) k
    (by rw [readBytes_length]; exact hk)
  rw [Nat.zero_add, id_eq] at h
  rw [h]
  simp [readBytes_eq]

/-- A word of the reservoir by its value. -/
theorem wordAt_toNat (s : State) (a : Nat) : (wordAt s .reservoir a).toNat = readNat s.mem.res a 8 := by
  have hlt : ofBytes (readBytes s.mem.res a 8) < 2 ^ (8 * 1 * ((readBytes s.mem.res a 8).map BitVec.toNat).length) := ofElems_lt 1 _
  rw [List.length_map, readBytes_length] at hlt
  rw [wordAt_eq, readWord, BitVec.toNat_ofNat, readNat]
  exact Nat.mod_eq_of_lt hlt

theorem readNat_eq (s : State) (a n : Nat) : readNat s.mem.res a n = ofBytes (bytesAt s .reservoir a n) := by
  rw [bytesAt_eq, readNat]
  rfl

/-! ### Blocks that cannot be read (R179, R295) -/

theorem lostBlocks_eq_nil (m : Mem) (a : Nat) (h : ∀ y ∈ m.marks, y.2.bad = true → a ≤ 64 * y.1 → a + 0x200000 ≤ 64 * y.1) :
    lostBlocks m a = [] := by
  rw [lostBlocks, List.map_eq_nil_iff, List.filter_eq_nil_iff]
  intro y hy
  rw [Bool.and_eq_true, Bool.and_eq_true]
  rintro ⟨⟨hbad, hlo⟩, hhi⟩
  exact absurd (of_decide_eq_true hhi) (Nat.not_lt.mpr (h y hy hbad (of_decide_eq_true hlo)))

theorem badRun_of_unreadable (m : Mem) (a n : Nat) (h : ∃ y ∈ m.marks, y.2.bad = true ∧ a / 64 ≤ y.1 ∧ y.1 ≤ (a + n - 1) / 64) :
    m.badRun .reservoir a n = true := by
  obtain ⟨y, hy, hbad, hlo, hhi⟩ := h
  rw [Mem.badRun, List.any_eq_true]
  refine ⟨y, hy, ?_⟩
  rw [hbad, Bool.true_and, Bool.and_eq_true]
  exact ⟨decide_eq_true hlo, decide_eq_true hhi⟩

theorem freeBlocks_frame (bs : List Nat) (s : State) (t : Table Byte) : ∃ k, (freeBlocks bs s t).2 = { s with fresh := k } := by
  induction bs generalizing s t with
  | nil => exact ⟨s.fresh, rfl⟩
  | cons b bs ih =>
    obtain ⟨k, hk⟩ := ih s.takeFree.2 (writeBytes t (64 * b) (bytesOf 64 s.takeFree.1))
    exact ⟨k, hk⟩

/-! ### Banks (R144, R148, R232) -/

/-- A bank as the restore settles it: open when the image holds it Active, every counter 0. -/
def Bank.settledAs (b : Bank) : Option (Nat × Nat × Bool) → Bank
  | some x => { b with mode := .active, row := x.2.1, intent := x.2.2, colAt := 0, preAt := 0, actAt := 0 }
  | none => { b with mode := .idle, row := 0, intent := false, colAt := 0, preAt := 0, actAt := 0 }

/-- Banks that are put in turn leave the rest of the vault. -/
theorem forEach_setBank_frame (f : State → Nat → Bank) (ns : List Nat) (s : State) :
    ∃ bs, forEach s (fun s n => setBank s n (f s n)) ns = s.mapVault fun v => { v with banks := bs } := by
  unfold forEach
  induction ns generalizing s with
  | nil => exact ⟨_, rfl⟩
  | cons n ns ih => exact ih (setBank s n (f s n))

/-- Every bank is put, as it stands and by the clock alone. -/
theorem forEach_setBank_all (s : State) (f : Nat → Bank → Bank) (g : State → Nat → Bank)
    (hg : ∀ t n, t.clock = s.clock → g t n = f n (bankOf t n)) :
    ∃ bs, forEach s (fun s n => setBank s n (g s n)) (List.range 64) = s.mapVault (fun v => { v with banks := bs }) ∧
      (twf {} s.core.vault.banks = true → twf {} bs = true ∧ ∀ m, m < 64 → tget {} bs m = f m (bankOf s m)) := by
  obtain ⟨bs, hframe⟩ := forEach_setBank_frame g (List.range 64) s
  refine ⟨bs, hframe, fun h => ?_⟩
  obtain ⟨cs, hfold, hwf, hget⟩ := forEach_setBank (fun s n => setBank s n (g s n)) f s.clock (fun t n ht _ => by rw [hg t n ht])
    (List.range 64) List.nodup_range s rfl h
  have hbs : bs = cs := congrArg (fun t : State => t.core.vault.banks) (hframe.symm.trans hfold)
  exact hbs ▸ ⟨hwf, fun m hm => by rw [hget m, if_pos (List.mem_range.mpr hm)]⟩

theorem settleBanks_eq (s : State) (saved : List (Nat × Nat × Bool)) : settleBanks s saved =
    (forEach s (fun s n => setBank s n ((bankOf s n).settledAs (saved.find? fun x => x.1 == n))) (List.range 64)).mapVault fun v =>
      { v with channels := [] } := by
  have hstep : (fun (s : State) n => let b := bankOf s n
      match saved.find? fun x => x.1 == n with
      | some x => setBank s n { b with mode := .active, row := x.2.1, intent := x.2.2, colAt := 0, preAt := 0, actAt := 0 }
      | none => setBank s n { b with mode := .idle, row := 0, intent := false, colAt := 0, preAt := 0, actAt := 0 }) =
      fun s n => setBank s n ((bankOf s n).settledAs (saved.find? fun x => x.1 == n)) := by
    funext t n
    dsimp only
    split <;> (next hx => rw [hx]; rfl)
  rw [← hstep]
  rfl

theorem settleBanks_settles (s : State) (saved : List (Nat × Nat × Bool)) :
    ∃ bs, settleBanks s saved = s.mapVault (fun v => { v with banks := bs, channels := [] }) ∧
      (twf {} s.core.vault.banks = true → twf {} bs = true ∧
        ∀ m, m < 64 → tget {} bs m = (bankOf s m).settledAs (saved.find? fun x => x.1 == m)) := by
  obtain ⟨bs, hfold, hget⟩ := forEach_setBank_all s (fun n b => b.settledAs (saved.find? fun x => x.1 == n)) _ fun _ _ _ => rfl
  exact ⟨bs, by rw [settleBanks_eq, hfold]; rfl, hget⟩

/-- DEBT 0 in every bank, and the refreshes that have fallen due meanwhile (R144, R146). -/
theorem clearDebts_clears (s : State) (i : Nat) : ∃ bs,
    forEach s (fun s n => let b := bankOf s n
      setBank s n { b with debt := 0, due := nextDue s.clock i b.due }) (List.range 64) = s.mapVault (fun v => { v with banks := bs }) ∧
    (twf {} s.core.vault.banks = true → ∀ m, m < 64 → tget {} bs m = { bankOf s m with debt := 0, due := nextDue s.clock i (bankOf s m).due }) := by
  obtain ⟨bs, hfold, hget⟩ := forEach_setBank_all s (fun _ b => { b with debt := 0, due := nextDue s.clock i b.due })
    (fun s n => { bankOf s n with debt := 0, due := nextDue s.clock i (bankOf s n).due }) fun t n ht => by rw [ht]
  exact ⟨bs, hfold, fun h => (hget h).2⟩

/-- The rows of a vault are cloned, and a gang may be asked to hold; the banks and the channels stand. -/
structure Reopens (s t : State) : Prop where
  frame : ∃ v gs, t = { s with core := { s.core with vault := v }, gangs := gs }
  banks : t.core.vault.banks = s.core.vault.banks
  channels : t.core.vault.channels = s.core.vault.channels
  gangs : twf {} s.gangs = true → twf {} t.gangs = true

theorem Reopens.refl (s : State) : Reopens s s := ⟨⟨_, _, rfl⟩, rfl, rfl, id⟩

theorem Reopens.trans {s t u : State} (h : Reopens s t) (k : Reopens t u) : Reopens s u where
  frame := by
    obtain ⟨_, _, rfl⟩ := h.frame
    obtain ⟨_, _, rfl⟩ := k.frame
    exact ⟨_, _, rfl⟩
  banks := k.banks.trans h.banks
  channels := k.channels.trans h.channels
  gangs := fun hs => k.gangs (h.gangs hs)

theorem reopens_mapVault (s : State) (f : Vault → Vault) (hb : (f s.core.vault).banks = s.core.vault.banks)
    (hc : (f s.core.vault).channels = s.core.vault.channels) : Reopens s (s.mapVault f) := ⟨⟨_, _, rfl⟩, hb, hc, id⟩

theorem reopens_requestHold (s : State) (g : Nat) (c : HoldCause) : Reopens s (s.requestHold g c) :=
  ⟨⟨_, _, rfl⟩, rfl, rfl, requestHold_wf s g c⟩

theorem reopens_cloneRow (s : State) (n row : Nat) : Reopens s (cloneRow s n row) := by
  unfold cloneRow
  extract_lets v used k cols image g u gid
  have hu : Reopens s u := reopens_mapVault s _ rfl rfl
  split
  · exact hu.trans ((reopens_mapVault u _ rfl rfl).trans (reopens_requestHold _ _ _))
  · exact hu

theorem reopens_reopenClones (saved : List (Nat × Nat × Bool)) (s : State) : Reopens s (reopenClones s saved) := by
  unfold reopenClones
  induction saved generalizing s with
  | nil => exact .refl s
  | cons x saved ih =>
    rw [List.foldl_cons]
    refine Reopens.trans ?_ (ih _)
    split
    · unfold cloneIfNeeded
      split
      · exact .refl s
      · exact reopens_cloneRow s _ _
    · exact .refl s

/-- A list of pairs, one for each number that passes a test, holds a number's own pair first. -/
theorem find?_filterMap_pairs {α : Type} (ns : List Nat) (q : Nat → Prop) [DecidablePred q] (f : Nat → α) (n : Nat) (hn : n ∈ ns) :
    (ns.filterMap fun m => if q m then some (m, f m) else none).find? (fun x => x.1 == n) = if q n then some (n, f n) else none := by
  induction ns with
  | nil => exact absurd hn List.not_mem_nil
  | cons m ns ih =>
    by_cases hmn : m = n
    · subst hmn
      by_cases hq : q m
      · simp [hq]
      · simp only [hq, if_false, List.filterMap_cons_none, List.find?_eq_none, List.mem_filterMap, beq_iff_eq]
        rintro x ⟨k, -, hk⟩ rfl
        split at hk
        · next hqk => cases hk; exact hq hqk
        · exact absurd hk (by simp)
    · have hrest := ih ((List.mem_cons.mp hn).resolve_left (Ne.symm hmn))
      by_cases hq : q m
      · simp only [List.filterMap_cons, hq, if_true, List.find?_cons, beq_eq_false_iff_ne.mpr hmn]
        exact hrest
      · simp only [List.filterMap_cons, hq, if_false]
        exact hrest

theorem find?_savedBanks (m : Table Byte) (a n : Nat) (hn : n < 64) : (savedBanks m a).find? (fun x => x.1 == n) =
    let im := readNat m (a + 0x1E7C00 + 8 * n) 8
    if bits im 43 42 = 1 then some (n, bits im 63 44, im.testBit 41) else none :=
  find?_filterMap_pairs (List.range 64) (fun n => bits (readNat m (a + 0x1E7C00 + 8 * n) 8) 43 42 = 1)
    (fun n => (bits (readNat m (a + 0x1E7C00 + 8 * n) 8) 63 44, (readNat m (a + 0x1E7C00 + 8 * n) 8).testBit 41)) n (List.mem_range.mpr hn)

/-! ### One task is brought back (R291, R292) -/

/-- A task comes back into the tile checked out: besides, only what a clone asks of its gang, and free values, are others. -/
structure RestoreFrame (s t : State) : Prop where
  frame : ∃ c gs k n ts, t = { s with core := c, gangs := gs, fresh := k, cur := n, tiles := ts }
  gangs : twf {} s.gangs = true → twf {} t.gangs = true

theorem RestoreFrame.trans {s t u : State} (h : RestoreFrame s t) (k : RestoreFrame t u) : RestoreFrame s u where
  frame := by
    obtain ⟨_, _, _, _, _, rfl⟩ := h.frame
    obtain ⟨_, _, _, _, _, rfl⟩ := k.frame
    exact ⟨_, _, _, _, _, rfl⟩
  gangs := fun hs => k.gangs (h.gangs hs)

theorem SameGlobal.restoreFrame {s t : State} (h : SameGlobal s t) : RestoreFrame s t := by
  obtain ⟨_, _, _, rfl⟩ := h
  exact ⟨⟨_, _, _, _, _, rfl⟩, id⟩

/-- The bytes of a context area as a restore reads them, with free ones in the blocks that cannot be read. -/
def areaBytes (s : State) (k : Tile) : Table Byte := (freeBlocks (lostBlocks s.mem k.task.ctx) s s.mem.res).1

/-- The tile as it is read back, its vault aside. -/
def restoredTile (s : State) (k : Tile) : Tile := readContext s k (lostBlocks s.mem k.task.ctx) (areaBytes s k)

/-- What a restore leaves in the tile checked out. -/
structure RestoresTile (k : Tile) (s t : State) : Prop where
  frame : RestoreFrame s t
  still : t.tiles = s.tiles ∧ t.cur = s.cur
  core : ∃ v, t.core = { restoredTile s k with vault := v }
  channels : t.core.vault.channels = []
  banks : twf {} s.core.vault.banks = true → ∀ m, m < 64 → ∃ due, tget {} t.core.vault.banks m =
    { (bankOf s m).settledAs ((savedBanks (areaBytes s k) k.task.ctx).find? fun x => x.1 == m) with debt := 0, due := due }

theorem restoreHere_restores (k : Tile) (s : State) : RestoresTile k s (restoreHere k s) := by
  obtain ⟨f, hfree⟩ := freeBlocks_frame (lostBlocks s.mem k.task.ctx) s s.mem.res
  have hrestore : restoreHere k s = (
      let banks := savedBanks (areaBytes s k) k.task.ctx
      let u := reopenClones (settleBanks { s with fresh := f, core := restoredTile s k } banks) banks
      forEach u (fun s' n => let b := bankOf s' n
        setBank s' n { b with debt := 0, due := nextDue s'.clock (Config.refreshInterval (s.grade (quadrantOf s.cur))) b.due }) (List.range 64)) := by
    unfold restoreHere
    dsimp only
    rw [hfree]
    rfl
  rw [hrestore]
  extract_lets banks u
  obtain ⟨bs, hsettle, hbs⟩ := settleBanks_settles { s with fresh := f, core := restoredTile s k } banks
  have hreopen := reopens_reopenClones banks (settleBanks { s with fresh := f, core := restoredTile s k } banks)
  obtain ⟨cs, hclear, hcs⟩ := clearDebts_clears u (Config.refreshInterval (s.grade (quadrantOf s.cur)))
  rw [hclear]
  obtain ⟨v, gs, hframe⟩ := hreopen.frame
  have hgangs : twf {} s.gangs = true → twf {} u.gangs = true := fun h => hreopen.gangs (by rw [hsettle]; exact h)
  have hbanks : u.core.vault.banks = bs := hreopen.banks.trans (by rw [hsettle]; rfl)
  have hchannels : u.core.vault.channels = [] := hreopen.channels.trans (by rw [hsettle]; rfl)
  have hu : u = { s with fresh := f, core := { restoredTile s k with vault := v }, gangs := gs } := by
    rw [show u = reopenClones (settleBanks { s with fresh := f, core := restoredTile s k } banks) banks from rfl, hframe, hsettle]
    rfl
  refine ⟨⟨?_, hgangs⟩, by rw [hu]; exact ⟨rfl, rfl⟩, ⟨{ v with banks := cs }, by rw [hu]; rfl⟩, hchannels, fun h m hm => ?_⟩
  · rw [hu]
    exact ⟨_, _, _, _, _, rfl⟩
  · obtain ⟨hwf, hsettled⟩ := hbs h
    have hbank : bankOf u m = (bankOf s m).settledAs (banks.find? fun x => x.1 == m) := by
      rw [bankOf, hbanks]
      exact hsettled m hm
    exact ⟨_, (hcs (by rw [hbanks]; exact hwf) m hm).trans (by rw [hbank])⟩

/-! ### What a restored tile holds -/

/-- No block of a context area is lost. -/
def AreaReadable (s : State) (a : Nat) : Prop := ∀ y ∈ s.mem.marks, y.2.bad = true → a ≤ 64 * y.1 → a + 0x200000 ≤ 64 * y.1

/-- A run of bytes meets a block that cannot be read. -/
def Unreadable (s : State) (a n : Nat) : Prop := ∃ y ∈ s.mem.marks, y.2.bad = true ∧ a / 64 ≤ y.1 ∧ y.1 ≤ (a + n - 1) / 64

/-- A bank as the image of a context area holds it: reopened when it is Active there, every counter 0 (Table 6.5). -/
def ReopenedBank (s : State) (a b : Nat) (y : Bank) : Prop :=
  let im := (wordAt s .reservoir (a + 0x1E7C00 + 8 * b)).toNat
  y.debt = 0 ∧ y.actAt = 0 ∧ y.preAt = 0 ∧ y.colAt = 0 ∧
    if bits im 43 42 = 1 then y.mode = .active ∧ y.row = bits im 63 44 ∧ y.intent = im.testBit 41 else y.mode = .idle

/-- A tile holds what the context area at `a` holds. -/
structure HoldsArea (s : State) (a : Nat) (y : Tile) : Prop where
  scalars : ∀ r, r < 56 → tget 0 y.regs.s r = wordAt s .reservoir (a + 0x1E7200 + 8 * r)
  vectors : ∀ r, r < 48 → tget 0 y.regs.v r = BitVec.ofNat 768 (ofBytes (bytesAt s .reservoir (a + 0x1E6000 + 96 * r) 96))
  rows : ∀ r, r < 2048 → tget 0 y.regs.acc r = BitVec.ofNat 2048 (ofBytes (bytesAt s .reservoir (a + 0x100000 + 256 * r) 256))
  preds : ∀ r, 0 < r → r < 8 → tget false y.regs.p r = (wordAt s .reservoir (a + 0x1E7430)).getLsbD r
  banks : ∀ b, b < 64 → ReopenedBank s a b (tget {} y.vault.banks b)
  channels : y.vault.channels = []
  staging : ∀ j, j < 2 ^ 20 → tget 0 y.staging.cells j = tget 0 s.mem.res (a + j)
  cyc : y.ctl.cyc = (wordAt s .reservoir (a + 0x1E7408)).toNat

/-- Tile `n` has been restored from the context area of a kept tile. -/
structure Restored (s : State) (n : Nat) (k y : Tile) : Prop where
  holds : AreaReadable s k.task.ctx → HoldsArea s k.task.ctx y
  part : (y.task.vpb, y.task.vpl) = tget (0, 0) (s.job k.task.pasid).parts n
  sPoison : ∀ r, r < 56 → Unreadable s (k.task.ctx + 0x1E7200 + 8 * r) 8 → tget false y.regs.sPoison r = true
  vPoison : ∀ r, r < 48 → Unreadable s (k.task.ctx + 0x1E6000 + 96 * r) 96 → tget false y.regs.vPoison r = true

theorem RestoreFrame.mem_eq {s t : State} (h : RestoreFrame s t) : t.mem = s.mem := by
  obtain ⟨_, _, _, _, _, rfl⟩ := h.frame
  rfl

theorem RestoreFrame.jobs_eq {s t : State} (h : RestoreFrame s t) : t.jobs = s.jobs := by
  obtain ⟨_, _, _, _, _, rfl⟩ := h.frame
  rfl

/-- Of an area that can be read, the bytes are those of the reservoir. -/
theorem areaBytes_readable (s : State) (k : Tile) (h : AreaReadable s k.task.ctx) : areaBytes s k = s.mem.res := by
  rw [areaBytes, lostBlocks_eq_nil s.mem _ h, freeBlocks]

/-- A bank that is settled as the image of a readable area holds it, with DEBT 0. -/
theorem settledAs_reopened (s : State) (a m due : Nat) (b : Bank) (hm : m < 64) :
    ReopenedBank s a m { b.settledAs ((savedBanks s.mem.res a).find? fun x => x.1 == m) with debt := 0, due := due } := by
  rw [find?_savedBanks _ _ _ hm]
  unfold ReopenedBank
  dsimp only
  rw [wordAt_toNat]
  by_cases hopen : bits (readNat s.mem.res (a + 0x1E7C00 + 8 * m) 8) 43 42 = 1
  · rw [if_pos hopen, if_pos hopen]
    exact ⟨rfl, rfl, rfl, rfl, rfl, rfl, rfl⟩
  · rw [if_neg hopen, if_neg hopen]
    exact ⟨rfl, rfl, rfl, rfl, rfl⟩

/-- Bit `r` of a word of the reservoir. -/
theorem wordAt_getLsbD (s : State) (a r : Nat) : (wordAt s .reservoir a).getLsbD r = (readNat s.mem.res a 8).testBit r := by
  rw [← wordAt_toNat, BitVec.testBit_toNat]

theorem wordAt_readNat (s : State) (a : Nat) : wordAt s .reservoir a = BitVec.ofNat 64 (readNat s.mem.res a 8) := by
  rw [wordAt_eq, readWord, readNat]
  rfl

section
variable (bad : Nat → Nat → Bool) (m : Table Byte) (a : Nat) (k : Regs)

theorem savedRegs_s (r : Nat) (hr : r < 56) : tget 0 (savedRegs bad m a k).s r = BitVec.ofNat 64 (readNat m (a + 0x1E7200 + 8 * r) 8) := by
  rw [savedRegs, tget_tableOf _ _ _ _ hr]

theorem savedRegs_v (r : Nat) (hr : r < 48) : tget 0 (savedRegs bad m a k).v r = BitVec.ofNat 768 (readNat m (a + 0x1E6000 + 96 * r) 96) := by
  rw [savedRegs, tget_tableOf _ _ _ _ hr]

theorem savedRegs_acc (r : Nat) (hr : r < 2048) :
    tget 0 (savedRegs bad m a k).acc r = BitVec.ofNat 2048 (readNat m (a + 0x100000 + 256 * r) 256) := by
  rw [savedRegs, tget_tableOf _ _ _ _ hr]

theorem savedRegs_p (r : Nat) (h0 : 0 < r) (hr : r < 8) : tget false (savedRegs bad m a k).p r = (readNat m (a + 0x1E7430) 8).testBit r := by
  rw [savedRegs, tget_tableOf _ _ _ _ hr]
  have hne : (r != 0) = true := by rw [bne_iff_ne]; omega
  rw [hne, Bool.true_and, savedBit, savedWord, Nat.div_eq_of_lt (by omega), Nat.mod_eq_of_lt (by omega)]

theorem savedRegs_sPoison (r : Nat) (hr : r < 56) (hbad : bad (0x1E7200 + 8 * r) 8 = true) :
    tget false (savedRegs bad m a k).sPoison r = true := by
  rw [savedRegs]
  dsimp only
  rw [savedTags, tget_tableOf _ _ _ _ hr, hbad, Bool.or_true]

theorem savedRegs_vPoison (r : Nat) (hr : r < 48) (hbad : bad (0x1E6000 + 96 * r) 96 = true) :
    tget false (savedRegs bad m a k).vPoison r = true := by
  rw [savedRegs]
  dsimp only
  rw [savedTags, tget_tableOf _ _ _ _ hr, hbad, Bool.or_true]

end

/-- What a restore leaves in a tile, part by part. -/
theorem RestoresTile.parts {k : Tile} {u t : State} (h : RestoresTile k u t) :
    t.core.regs = savedRegs (fun o n => u.mem.badRun .reservoir (k.task.ctx + o) n) (areaBytes u k) k.task.ctx k.regs ∧
    t.core.staging.cells = tsetList 0 id 0 (readBytes (areaBytes u k) k.task.ctx Config.stagingBytes) [] ∧
    t.core.ctl.cyc = savedWord (areaBytes u k) k.task.ctx 1 ∧
    (t.core.task.vpb, t.core.task.vpl) = tget (0, 0) (u.job k.task.pasid).parts u.cur := by
  obtain ⟨v, hcore⟩ := h.core
  rw [hcore, restoredTile]
  generalize areaBytes u k = m
  rw [readContext]
  dsimp only
  rw [savedCtl]
  exact ⟨rfl, rfl, rfl, rfl⟩

/-- What a restore leaves in a tile is what the area holds, as far as it can be read. -/
theorem RestoresTile.restored {k : Tile} {s u t : State} {n : Nat} (h : RestoresTile k u t) (hu : RestoreFrame s u) (hcur : u.cur = n)
    (hb : twf {} u.core.vault.banks = true) : Restored s n k t.core := by
  obtain ⟨hregs, hstaging, hcyc, hpart⟩ := h.parts
  have hmem := hu.mem_eq
  have hjob : u.job k.task.pasid = s.job k.task.pasid := by rw [State.job, hu.jobs_eq, State.job]
  have hbad (o n : Nat) (hun : Unreadable s (k.task.ctx + o) n) : u.mem.badRun .reservoir (k.task.ctx + o) n = true :=
    badRun_of_unreadable _ _ _ (by rw [hmem]; exact hun)
  refine ⟨fun hreadable => ?_, by rw [hpart, hjob, hcur], fun r hr hun => ?_, fun r hr hun => ?_⟩
  · have harea : areaBytes u k = s.mem.res := by
      rw [areaBytes_readable u k (by rw [AreaReadable, hmem]; exact hreadable), hmem]
    have hbanks := h.banks hb
    rw [harea] at hregs hstaging hcyc hbanks
    refine ⟨fun r hr => ?_, fun r hr => ?_, fun r hr => ?_, fun r hlo hr => ?_, fun b hlt => ?_, h.channels, fun j hj => ?_, ?_⟩
    · rw [hregs, savedRegs_s _ _ _ _ r hr, wordAt_readNat]
    · rw [hregs, savedRegs_v _ _ _ _ r hr, readNat_eq]
    · rw [hregs, savedRegs_acc _ _ _ _ r hr, readNat_eq]
    · rw [hregs, savedRegs_p _ _ _ _ r hlo hr, wordAt_getLsbD]
    · obtain ⟨due, hbank⟩ := hbanks b hlt
      rw [hbank]
      exact settledAs_reopened s _ b due _ hlt
    · rw [hstaging]
      exact tget_tsetList_readBytes s.mem.res k.task.ctx Config.stagingBytes j hj
    · rw [hcyc, wordAt_toNat, savedWord]
  · rw [hregs]
    exact savedRegs_sPoison _ _ _ _ r hr (hbad _ _ (by rwa [Nat.add_assoc] at hun))
  · rw [hregs]
    exact savedRegs_vPoison _ _ _ _ r hr (hbad _ _ (by rwa [Nat.add_assoc] at hun))

/-- A restored tile whose task then moves on still holds what it was restored with. -/
theorem Restored.moved {s : State} {n : Nat} {k y z : Tile} (h : Restored s n k y) (hm : TaskMoved y z) : Restored s n k z := by
  obtain ⟨hframe, hcyc, ⟨hvpb, hvpl⟩, -⟩ := hm
  obtain ⟨hholds, hpart, hs, hv⟩ := h
  have hregs : z.regs = y.regs := by rw [hframe]
  have hvault : z.vault = y.vault := by rw [hframe]
  have hstaging : z.staging = y.staging := by rw [hframe]
  refine ⟨fun hr => ?_, by rw [hvpb, hvpl, hpart], by rw [hregs]; exact hs, by rw [hregs]; exact hv⟩
  obtain ⟨h1, h2, h3, h4, h5, h6, h7, h8⟩ := hholds hr
  exact ⟨by rw [hregs]; exact h1, by rw [hregs]; exact h2, by rw [hregs]; exact h3, by rw [hregs]; exact h4, by rw [hvault]; exact h5,
    by rw [hvault]; exact h6, by rw [hstaging]; exact h7, by rw [hcyc]; exact h8⟩

end Sys2Proof.Machine
end
section
/-! PROOFS. A gang is restored: the loader, its tiles one by one, and the tasks that a cancel met meanwhile (R51, R277, R291, R292). -/

namespace Sys2Proof.Machine

open Claims (imageThere keptKey packetWord)

/-! ### Tasks that end early (Table 2.3) -/

/-- Tasks of gang `g` are asked to end: what each tile, the gang and the nodes keep. -/
structure EndsEarly (g : Nat) (s t : State) : Prop where
  wf : ListsWf t
  tile : ∀ n, TaskMoved (s.tile n) (t.tile n)
  life : (t.gang g).life = (s.gang g).life
  causes : ∀ c ∈ (t.gang g).causes, c = .cancel ∨ c ∈ (s.gang g).causes
  saved : ∀ n, (t.node n).saved = (s.node n).saved

theorem EndsEarly.trans {g : Nat} {s t u : State} (h : EndsEarly g s t) (k : EndsEarly g t u) : EndsEarly g s u where
  wf := k.wf
  tile := fun n => (h.tile n).trans (k.tile n)
  life := k.life.trans h.life
  causes := fun c hc => (k.causes c hc).elim .inl (h.causes c)
  saved := fun n => (k.saved n).trans (h.saved n)

theorem EndsTasks.endsEarly {g : Nat} {s t : State} (h : EndsTasks g s t) : EndsEarly g s t where
  wf := h.wf
  tile := h.tile
  life := h.gang.life
  causes := fun c hc => .inr (h.gang.causes c hc)
  saved := h.saved

theorem requestHold_life (s : State) (g : Nat) (c : HoldCause) (hw : twf {} s.gangs = true) :
    ((s.requestHold g c).gang g).life = (s.gang g).life := by
  rw [State.requestHold, gang_mapGang_same s g _ hw]
  split
  · rfl
  · dsimp only
    split
    · rfl
    · split <;> rfl

theorem requestEnd_ends (s : State) (g : Nat) (ts : List Nat) (h : ListsWf s) : EndsEarly g s (requestEnd s g ts) := by
  let u := s.mapGang g fun x => { x with ending := x.ending ++ ts.filter fun t => !(x.ending.contains t) }
  have hu : EndsEarly g s u :=
    (endsTasks_mapGang g s _ h ⟨rfl, rfl, rfl, fun _ => rfl, fun _ hc => hc⟩).endsEarly
  have hhold : EndsEarly g u (u.requestHold g .cancel) := {
    wf := ⟨hu.wf.tiles, requestHold_wf u g .cancel hu.wf.gangs, hu.wf.nodes⟩
    tile := fun _ => .refl _
    life := requestHold_life u g .cancel hu.wf.gangs
    causes := fun c hc => by
      rw [requestHold_causes u g .cancel hu.wf.gangs] at hc
      split at hc
      · exact .inr hc
      · rcases List.mem_append.mp hc with hc | hc
        · exact .inr hc
        · exact .inl (List.mem_singleton.mp hc)
    saved := fun _ => rfl }
  unfold requestEnd
  dsimp only
  split
  · exact (hu.trans hhold).trans (endsTasks_endTasksAtHold g _ hhold.wf).endsEarly
  · exact hu.trans hhold

theorem endEarly_ends (s : State) (g : Nat) (h : ListsWf s) : EndsEarly g s (endEarly s g) := by
  unfold endEarly
  dsimp only
  split
  · exact ⟨h, fun _ => .refl _, rfl, fun _ hc => .inr hc, fun _ => rfl⟩
  · let u := s.mapNode (s.gang g).node fun x => { x with endTasks := [] }
    have hu : EndsEarly g s u := {
      wf := ⟨h.tiles, h.gangs, twf_tset _ _ _ _ h.nodes⟩
      tile := fun _ => .refl _
      life := rfl
      causes := fun _ hc => .inr hc
      saved := fun n => by
        rw [node_mapNode s _ _ _ h.nodes]
        split
        · next hn => rw [hn]
        · rfl }
    exact hu.trans (requestEnd_ends u g _ hu.wf)

/-! ### The tiles of a gang that is restored -/

/-- A change of tile after tile keeps what it keeps of each tile. -/
theorem foldl_mapTile_keeps (f : State → Tile → Tile) (P : Tile → Prop) (hf : ∀ s t, P t → P (f s t)) (ns : List Nat) (s : State)
    (hs : twf {} s.tiles = true) (hP : ∀ n, P (s.tile n)) :
    let t := ns.foldl (fun s n => s.mapTile n (f s)) s
    SameGlobal s t ∧ twf {} t.tiles = true ∧ ∀ n, P (t.tile n) := by
  induction ns generalizing s with
  | nil => exact ⟨.refl s, hs, hP⟩
  | cons n ns ih =>
    have hv := visits_mapTile id fun _ : Nat => f s
    have hsame : SameGlobal s (s.mapTile n (f s)) := ((sameGlobal_select s n).trans (sameGlobal_mapCore _ _)).trans (hv.same s n)
    obtain ⟨hG, hwf, hall⟩ := ih (s.mapTile n (f s)) (hv.wf s n hs) fun m => by
      rw [tile_mapTile s n m _ hs]
      split
      · exact hf s _ (hP n)
      · exact hP m
    exact ⟨hsame.trans hG, hwf, hall⟩

/-- The loader changes instruction SRAM alone. -/
theorem loadVariant_loads (s : State) (g k : Nat) (h : Safety.wf s = true) :
    SameGlobal s (loadVariant s g k) ∧ twf {} (loadVariant s g k).tiles = true ∧ ∀ n, twf {} ((loadVariant s g k).tile n).vault.banks = true :=
  foldl_mapTile_keeps (fun s t => { t with isram := loadImage s.mem t.isram _ _ }) (fun t => twf {} t.vault.banks = true)
    (fun _ _ ht => ht) (s.gang g).tiles s (tiles_of_wf s h) fun n => banks_of_tileWf _ (wf_tile s n h)

theorem RestoreFrame.saved_eq {s t : State} (h : RestoreFrame s t) : t.saved = s.saved := by
  obtain ⟨_, _, _, _, _, rfl⟩ := h.frame
  rfl

theorem SameGlobal.saved_eq {s t : State} (h : SameGlobal s t) : t.saved = s.saved := by
  obtain ⟨_, _, _, rfl⟩ := h
  rfl

/-- The kept tile of the task of a gang that stands at place `i`. -/
def keptAt (s : State) (g first i : Nat) : Tile := tget {} s.saved (savedKey g (first + i))

/-- Each tile that is restored is visited, with the kept tile of its task. -/
theorem visits_restoreHere (g first : Nat) : Visits Prod.fst (fun (x : Nat × Nat) s => restoreHere (keptAt s g first x.2) s)
    fun s x => s.onTile x.1 (restoreHere (keptAt s g first x.2)) := by
  have hsteps : (fun (s : State) (x : Nat × Nat) => s.onTile x.1 (restoreHere (keptAt s g first x.2))) =
      fun s x => s.onTile x.1 fun u => restoreHere (keptAt u g first x.2) u := by
    funext s x
    have hkept : keptAt (s.select x.1) g first x.2 = keptAt s g first x.2 := by rw [keptAt, (sameGlobal_select s x.1).saved_eq, keptAt]
    rw [State.onTile, State.onTile, hkept]
  rw [hsteps]
  exact visits_onTile Prod.fst _ fun x s => (restoreHere_restores _ s).still

/-- The tiles of a gang come back one by one. -/
theorem foldl_restoreHere (s u : State) (g first : Nat) (ns : List Nat) (hns : ns.Nodup) (hu : RestoreFrame s u) (hwf : twf {} u.tiles = true)
    (hb : ∀ n, twf {} (u.tile n).vault.banks = true) :
    let t := ns.zipIdx.foldl (fun s x => s.onTile x.1 (restoreHere (keptAt s g first x.2))) u
    twf {} t.tiles = true ∧ RestoreFrame s t ∧ ∀ (i n : Nat), ns[i]? = some n → Restored s n (keptAt s g first i) (t.tile n) := by
  obtain ⟨htiles, hG, -, heach⟩ := (visits_restoreHere g first).foldl_nodup (G := RestoreFrame) SameGlobal.restoreFrame RestoreFrame.trans
    (fun x s => (restoreHere_restores _ s).frame) ns.zipIdx u hwf (by rw [List.zipIdx_map_fst]; exact hns)
  refine ⟨htiles, hu.trans hG, fun i n hi => ?_⟩
  obtain ⟨v, hv, hcur, hcore, htile, -⟩ := heach (n, i) (List.mem_zipIdx_iff_getElem?.mpr hi)
  have hkept : keptAt v g first i = keptAt s g first i := by rw [keptAt, (hu.trans hv).saved_eq, keptAt]
  have hrestored := (restoreHere_restores (keptAt v g first i) v).restored (hu.trans hv) hcur (by rw [hcore]; exact hb n)
  rw [htile]
  rwa [hkept] at hrestored ⊢

/-! ### The gang is restored (R51, R292) -/

/-- What the restore of gang `g` leaves. -/
structure GangRestored (s : State) (g : Nat) (t : State) : Prop where
  life : (t.gang g).life = .started
  causes : .preempt ∉ (t.gang g).causes
  node : (t.node (s.gang g).node).saved = false
  tile : ∀ (i n : Nat), (s.gang g).tiles[i]? = some n → Restored s n (tget {} s.saved (keptKey s g i)) (t.tile n)

theorem RestoreFrame.nodes_eq {s t : State} (h : RestoreFrame s t) : t.lk.nodes = s.lk.nodes := by
  obtain ⟨_, _, _, _, _, rfl⟩ := h.frame
  rfl

theorem mapGang_wf (s : State) (g : Nat) (f : Gang → Gang) (h : twf {} s.gangs = true) : twf {} (s.mapGang g f).gangs = true :=
  twf_tset _ _ _ _ h

/-- A gang whose tiles are back is started, its pre-emption hold is clear, and the tasks that a cancel met end. -/
def gangBack (u : State) (g node : Nat) : State :=
  let v := { u with saved := tclear u.saved (savedKey g 0) (savedKey (g + 1) 0) }
  let w := (v.mapGang g fun x => { x with life := .started }).mapNode node fun x => { x with saved := false }
  endEarly (w.clearHold g .preempt) g

theorem gangBack_started (u : State) (g node : Nat) (h : ListsWf u) :
    ((gangBack u g node).gang g).life = .started ∧ .preempt ∉ ((gangBack u g node).gang g).causes ∧
      ((gangBack u g node).node node).saved = false ∧ ∀ n, TaskMoved (u.tile n) ((gangBack u g node).tile n) := by
  unfold gangBack
  extract_lets v w
  have hgangs : twf {} w.gangs = true := mapGang_wf v g (fun x => { x with life := .started }) h.gangs
  have hends := endEarly_ends (w.clearHold g .preempt) g ⟨h.tiles, clearHold_wf w g .preempt hgangs, twf_tset _ _ _ _ h.nodes⟩
  refine ⟨?_, fun hc => ?_, ?_, hends.tile⟩
  · rw [hends.life, (clearHold_stands w g .preempt hgangs).life]
    exact congrArg Gang.life (gang_mapGang_same v g (fun x => { x with life := .started }) h.gangs)
  · rcases hends.causes _ hc with hc | hc
    · exact absurd hc (by simp)
    · rw [clearHold_causes w g .preempt hgangs] at hc
      simp at hc
  · rw [hends.saved]
    exact congrArg Node.saved ((node_mapNode (v.mapGang g fun x => { x with life := .started }) node node (fun x => { x with saved := false })
      h.nodes).trans (if_pos rfl))

theorem restoreGang_restores (s : State) (g : Nat) (h : Safety.wf s = true) (hg : (s.gang g).ox + (s.gang g).w ≤ 16) :
    GangRestored s g (restoreGang s g) := by
  obtain ⟨hload, hltiles, hlbanks⟩ := loadVariant_loads s g (s.gang g).variant h
  obtain ⟨htiles, hframe, heach⟩ := foldl_restoreHere s (loadVariant s g (s.gang g).variant) g (s.gang g).firstTix (s.gang g).tiles
    ((s.gang g).tiles_nodup hg) hload.restoreFrame hltiles hlbanks
  have hrestore : restoreGang s g = gangBack ((s.gang g).tiles.zipIdx.foldl
      (fun u x => u.onTile x.1 (restoreHere (keptAt u g (s.gang g).firstTix x.2))) (loadVariant s g (s.gang g).variant)) g (s.gang g).node := rfl
  obtain ⟨hlife, hcauses, hnode, hmoved⟩ := gangBack_started _ g (s.gang g).node
    ⟨htiles, hframe.gangs (gangs_of_wf s h), by rw [hframe.nodes_eq]; exact nodes_of_wf s h⟩
  rw [hrestore]
  refine ⟨hlife, hcauses, hnode, fun i n hi => ?_⟩
  have hkept : keptAt s g (s.gang g).firstTix i = tget {} s.saved (keptKey s g i) := by
    rw [keptAt, savedKey, keptKey, Nat.add_assoc]
  rw [← hkept]
  exact (heach i n hi).moved (hmoved n)

theorem execPreemptionRestore_restores (s : State) (g : Nat) (hc : controlRuns s = true) (hdue : restoreDue s g = true)
    (hi : imageThere s (packetWord (s.node (s.gang g).node).packet (s.gang g).variant)) :
    execPreemptionRestore g s = .next (restoreGang s g) := by
  have hfits : imageFits s (variantWord s g (s.gang g).variant) = true := (imageFits_iff s _).mpr hi
  unfold execPreemptionRestore
  rw [reaching_next s _ _ hc (by rw [hfits, Bool.or_true]), if_pos hdue]

theorem execPreemptionRestore_stops (s : State) (g : Nat) (hc : controlRuns s = true) (hdue : restoreDue s g = true)
    (hi : ¬ imageThere s (packetWord (s.node (s.gang g).node).packet (s.gang g).variant)) :
    execPreemptionRestore g s = .fault .noSuchFrame := by
  unfold execPreemptionRestore
  refine reaching_stops s _ _ hc ?_
  rw [hdue]
  exact Bool.eq_false_iff.mpr fun hfits => hi ((imageFits_iff s _).mp hfits)

end Sys2Proof.Machine

namespace Sys2Proof.Claims

open Sys2Proof Sys2Proof.Machine

/-- Settles O37. The swap, the save and the restore of a gang are read off the lemmas that say what each leaves. -/
theorem replanAndPreempt : Obligations.ReplanAndPreempt := by
  intro s g hwf x pick w old unreadable
  refine ⟨?swap, ?swapStops, ?restoreStops, ?draws, ?saves, ?restores⟩
  case swap =>
    intro hheld hcause himage
    have hfits : (pick == x.variant || imageFits s (packetWord (s.node x.node).packet pick)) = true := by
      rw [Bool.or_eq_true, beq_iff_eq, imageFits_iff]
      by_cases hp : pick = x.variant
      · exact .inl hp
      · exact .inr (himage hp)
    have hexec := execVariantSwap_eq s g hheld hcause
    have hswap := variantLoaded_swapped s g pick hwf
    refine ⟨_, hexec.trans (if_pos hfits), hswap.variant, hswap.causes, hswap.counted, hswap.job,
      fun n => ⟨hswap.regs n, hswap.passes n⟩, fun hne n hn => hswap.bundles hne n hn⟩
  case swapStops =>
    intro hheld hcause hne himage
    have hno : (pick == x.variant || imageFits s (packetWord (s.node x.node).packet pick)) = false := by
      rw [Bool.eq_false_iff, ne_eq, Bool.or_eq_true, beq_iff_eq, imageFits_iff]
      exact fun h => h.elim hne himage
    exact (execVariantSwap_eq s g hheld hcause).trans (if_neg (Bool.eq_false_iff.mp hno))
  case restoreStops =>
    exact fun hc hdue himage => execPreemptionRestore_stops s g hc hdue himage
  case draws =>
    intro hg hdue
    obtain ⟨hG, heach⟩ := drawBack_tiles x s hwf hg.1
    refine ⟨_, execPreemptionSave_draws s g hdue, hG.gang_eq g, fun n hn => ?_⟩
    obtain ⟨himage, hregs, hbanks⟩ := heach n hn
    exact ⟨himage, hregs, hbanks⟩
  case saves =>
    intro hc hg hplace hdraw hdue herr
    have hsave := saveGang_saves s g hwf hg.1 hplace herr
    refine ⟨_, execPreemptionSave_saves s g hc hdraw hdue, hsave.life, hsave.node.1, hsave.node.2, fun i n hi => ?_, fun i n hi => ?_⟩
    · obtain ⟨hstatus, hkept⟩ := hsave.tile i n hi
      rw [hkept]
      exact ⟨hstatus, rfl, rfl, rfl⟩
    · intro a r hapart
      obtain ⟨hstaging, hacc, hm, hv, hs, hp, hcyc, himage⟩ := hsave.holds i n hi hapart
      simp only [bytesAt_eq, wordAt_eq]
      exact ⟨hstaging, hacc, hm, hv, hs, hp, hcyc, himage⟩
  case restores =>
    intro hc hg hdue himage
    have hrestore := restoreGang_restores s g hwf hg.1
    refine ⟨_, execPreemptionRestore_restores s g hc hdue himage, hrestore.life, hrestore.causes, hrestore.node, fun i n a hi ha => ?_⟩
    subst ha
    obtain ⟨hholds, hpart, hs, hv⟩ := hrestore.tile i n hi
    refine ⟨fun hreadable => ?_, hpart, hs, hv⟩
    obtain ⟨h1, h2, h3, h4, h5, h6, h7, h8⟩ := hholds hreadable
    exact ⟨h1, h2, h3, h4, h5, h6, h7, h8⟩

end Sys2Proof.Claims
end

section
/-! PROOFS. The end of a launch to be reissued (R21, R37, R286). -/
namespace Sys2Proof.Claims

open Sys2Proof Sys2Proof.Machine

/-- The ended task of tile 0 names gang 2, while the launch at its node runs under gang 1, which is to be reissued. Node 3 waits on that
launch over an early edge. -/
def strayTask : State where
  core := { ctl := { status := .ended }, task := { gid := 2, node := 1 } }
  gangs := [(1, { reissue := true })]
  lk := { nodes := [(1, { life := .running, gid := 1, tasksLeft := 1, untriggered := 1 }),
    (3, { life := .waiting, edges := [{ src := 1, early := true, pass := false, satisfied := false, blocked := false, final := false }] })] }

/-- The premises under which a launch to be reissued is to be ready again hold of `strayTask`. -/
theorem strayTask_complete : Safety.wf strayTask = true ∧ taskDue (strayTask.select 0) = true ∧
    (strayTask.select 0).core.barge.queue = [] ∧ (strayTask.select 0).core.ctl.trap = none ∧
    (∀ b, b < 64 → (bankAt (strayTask.select 0) b).mode = .active → (bankAt (strayTask.select 0) b).preAt ≤ strayTask.clock) ∧
    (strayTask.node 1).tasksLeft = 1 ∧ (strayTask.gang (strayTask.node 1).gid).reissue = true ∧ (strayTask.node 1).gaveEarly = false := by
  decide

/-- The launch is counted: its task triggers under gang 2, which is not to be reissued, and so satisfies the early edge before the launch ends. -/
theorem strayTask_counted : ∃ t, exec (.taskComplete 0) strayTask = .next t ∧ (t.node 1).life = .counted := ⟨_, rfl, by decide⟩

/-- Refutes O47: `TASK_COMPLETE` looks up the reissue mark at the trigger under the gang that the task names, and at the end of the launch under the gang
that the node names; in a state where the two differ (`strayTask`), the last task of a launch to be reissued satisfies an early edge on its way, and the
launch is counted where the statement wants it ready again. -/
theorem not_launchLife : ¬ Obligations.LaunchLife := by
  intro h
  obtain ⟨hwf, hdue, hqueue, htrap, hbanks, hleft, hreissue, hgave⟩ := strayTask_complete
  obtain ⟨-, -, -, -, -, -, -, -, -, -, -, -, hcomplete, -⟩ := h strayTask 0 1 hwf
  obtain ⟨u, hexec, -, -, -, hready, -⟩ := hcomplete hdue
  obtain ⟨-, hlife, -⟩ := hready ⟨hqueue, htrap, hbanks⟩ hleft hreissue hgave
  obtain ⟨t, ht, hcounted⟩ := strayTask_counted
  obtain rfl : u.select strayTask.cur = t := Host.Outcome.next.inj (hexec.symm.trans ht)
  obtain ⟨-, -, -, -, hlk, -⟩ := select_frame u strayTask.cur
  rw [State.node, hlk] at hcounted
  exact absurd (hcounted.symm.trans (show (u.node 1).life = .ready from hlife)) (by decide)

end Sys2Proof.Claims
end

section
/-! PROOFS. The frame of a slot word at issue: what a word may change of its tile and of the device (R57, R58, R295, R347). -/

namespace Sys2Proof.Machine

open Claims (isBranch isSeg isWait isCommand meetsGang)

/-! ### What a word may change -/

/-- A read of staging: tags rise where an error cannot be corrected, and old values that it passes over are gone. -/
structure StagingRead (g g' : Staging) : Prop where
  frame : g' = { g with poison := g'.poison, unseen := g'.unseen }
  tags : ∀ l, tget false g'.poison l = tget false g.poison l ∨
    (tget false g'.poison l = true ∧ ∃ n, n / 4 = l ∧ tget .good g.marks n = .uncorrectable)
  unseen : ∀ y ∈ g'.unseen, y ∈ g.unseen

theorem StagingRead.refl (g : Staging) : StagingRead g g := ⟨rfl, fun _ => .inl rfl, fun _ h => h⟩

theorem StagingRead.trans {g h k : Staging} (a : StagingRead g h) (b : StagingRead h k) : StagingRead g k where
  frame := by rw [b.frame, a.frame]
  tags := fun l => by
    have hm : h.marks = g.marks := by rw [a.frame]
    rcases b.tags l with e | e
    · rw [e]; exact a.tags l
    · rw [hm] at e; exact .inr e
  unseen := fun y hy => a.unseen y (b.unseen y hy)

/-- The registers at issue: a read may tag an accumulator row or a stream in error, and `SEG` may lose the latches. -/
structure RegsRead (i : Instr) (r r' : Regs) : Prop where
  frame : r' = { r with accPoison := r'.accPoison, q := r'.q, latches := r'.latches }
  rows : ∀ k, tget false r'.accPoison k = tget false r.accPoison k ∨
    (tget false r'.accPoison k = true ∧ tget .good r.accMark k ≠ .good ∧ tget .good r.accMark k ≠ .correctable)
  streams : ∀ k, tget {} r'.q k = tget {} r.q k ∨
    (tget {} r'.q k = { tget {} r.q k with poison := true } ∧ (tget {} r.q k).mark ≠ .good ∧ (tget {} r.q k).mark ≠ .correctable)
  latches : r'.latches = r.latches ∨ (isSeg i = true ∧ r'.latches = [])

theorem RegsRead.refl (i : Instr) (r : Regs) : RegsRead i r r := ⟨rfl, fun _ => .inl rfl, fun _ => .inl rfl, .inl rfl⟩

theorem RegsRead.trans {i : Instr} {r r' r'' : Regs} (a : RegsRead i r r') (b : RegsRead i r' r'') : RegsRead i r r'' where
  frame := by rw [b.frame, a.frame]
  rows := fun k => by
    have hm : r'.accMark = r.accMark := by rw [a.frame]
    rcases b.rows k with e | e
    · rw [e]; exact a.rows k
    · rw [hm] at e; exact .inr e
  streams := fun k => by
    rcases b.streams k with e | ⟨e, hb⟩
    · rw [e]; exact a.streams k
    · rcases a.streams k with d | ⟨d, ha⟩
      · rw [d] at e hb; exact .inr ⟨e, hb⟩
      · rw [d] at e; exact .inr ⟨e, ha⟩
  latches := by
    rcases b.latches with e | e
    · rw [e]; exact a.latches
    · exact .inr e

/-- The control state at issue. -/
structure CtlIssued (i : Instr) (c c' : Ctl) : Prop where
  frame : c' = { c with
    npc := c'.npc, ret := c'.ret, status := c'.status, wait := c'.wait, trap := c'.trap, verdict := c'.verdict,
    sgsc := c'.sgsc, sgsh := c'.sgsh, ecnt := c'.ecnt, esig := c'.esig, inseg := c'.inseg, busy := c'.busy, mhadAt := c'.mhadAt }
  segment : isSeg i = false → c'.sgsc = c.sgsc ∧ c'.sgsh = c.sgsh ∧ c'.inseg = c.inseg ∧ c'.ecnt = c.ecnt ∧ c'.esig = c.esig :=
    by exact fun _ => ⟨rfl, rfl, rfl, rfl, rfl⟩
  branch : isBranch i = false → c'.npc = c.npc ∧ c'.ret = c.ret := by exact fun _ => ⟨rfl, rfl⟩
  wait : isWait i = false → c'.status = c.status ∧ c'.wait = c.wait := by exact fun _ => ⟨rfl, rfl⟩
  trap : (∀ n p, i ≠ .brk n p ∧ i ≠ .trap n p) → c'.trap = c.trap := by exact fun _ => rfl

theorem CtlIssued.refl (i : Instr) (c : Ctl) : CtlIssued i c c where
  frame := rfl

theorem CtlIssued.trans {i : Instr} {c d e : Ctl} (a : CtlIssued i c d) (b : CtlIssued i d e) : CtlIssued i c e where
  frame := by rw [b.frame, a.frame]
  segment := fun h => by
    obtain ⟨a1, a2, a3, a4, a5⟩ := a.segment h
    obtain ⟨b1, b2, b3, b4, b5⟩ := b.segment h
    exact ⟨b1.trans a1, b2.trans a2, b3.trans a3, b4.trans a4, b5.trans a5⟩
  branch := fun h => ⟨(b.branch h).1.trans (a.branch h).1, (b.branch h).2.trans (a.branch h).2⟩
  wait := fun h => ⟨(b.wait h).1.trans (a.wait h).1, (b.wait h).2.trans (a.wait h).2⟩
  trap := fun h => (b.trap h).trans (a.trap h)

/-- The vault at issue: only a D word changes it, and only `WR` stores there. -/
structure VaultIssued (i : Instr) (v v' : Vault) : Prop where
  store : (∀ c b l x p, i ≠ .wr c b l x p) → v'.cells = v.cells ∧ v'.marks = v.marks := by exact fun _ => ⟨rfl, rfl⟩
  slot : (∀ u, useOf i = some u → u.slot ≠ .d) → v' = v := by exact fun _ => rfl

theorem VaultIssued.refl (i : Instr) (v : Vault) : VaultIssued i v v where

theorem VaultIssued.trans {i : Instr} {v w x : Vault} (a : VaultIssued i v w) (b : VaultIssued i w x) : VaultIssued i v x where
  store := fun h => ⟨(b.store h).1.trans (a.store h).1, (b.store h).2.trans (a.store h).2⟩
  slot := fun h => (b.slot h).trans (a.slot h)

/-- The frame of word `i` at issue. -/
structure WordKeeps (i : Instr) (s t : State) : Prop where
  frame : t = { s with fresh := t.fresh, flights := t.flights, gangs := t.gangs, jobs := t.jobs, core := t.core } := by exact rfl
  task : t.core.task = s.core.task := by exact rfl
  bundles : t.core.isram.bundles = s.core.isram.bundles := by exact rfl
  results : ∃ rs, t.core.results = s.core.results ++ rs := by exact ⟨[], (List.append_nil _).symm⟩
  ctl : CtlIssued i s.core.ctl t.core.ctl := by exact .refl _ _
  regs : RegsRead i s.core.regs t.core.regs := by exact .refl _ _
  staging : StagingRead s.core.staging t.core.staging := by exact .refl _
  vault : VaultIssued i s.core.vault t.core.vault := by exact .refl _ _
  barge : isCommand i = false → t.core.barge = s.core.barge := by exact fun _ => rfl
  canal : (∀ d l p, i ≠ .recv d l p) → (∀ a p, i ≠ .croute a p) → t.core.canal = s.core.canal := by exact fun _ _ => rfl
  flights : (∀ n v p, i ≠ .send n v p) → t.flights = s.flights := by exact fun _ => rfl
  jobs : (∀ p, i ≠ .snap p) → t.jobs = s.jobs := by exact fun _ => rfl
  gangs : meetsGang i = false → t.gangs = s.gangs := by exact fun _ => rfl

theorem WordKeeps.refl (i : Instr) (s : State) : WordKeeps i s s where

theorem WordKeeps.trans {i : Instr} {s t u : State} (a : WordKeeps i s t) (b : WordKeeps i t u) : WordKeeps i s u where
  frame := by rw [b.frame, a.frame]
  task := b.task.trans a.task
  bundles := b.bundles.trans a.bundles
  results := by
    obtain ⟨xs, hx⟩ := a.results
    obtain ⟨ys, hy⟩ := b.results
    exact ⟨xs ++ ys, by rw [hy, hx, List.append_assoc]⟩
  ctl := a.ctl.trans b.ctl
  regs := a.regs.trans b.regs
  staging := a.staging.trans b.staging
  vault := a.vault.trans b.vault
  barge := fun h => (b.barge h).trans (a.barge h)
  canal := fun h k => (b.canal h k).trans (a.canal h k)
  flights := fun h => (b.flights h).trans (a.flights h)
  jobs := fun h => (b.jobs h).trans (a.jobs h)
  gangs := fun h => (b.gangs h).trans (a.gangs h)

theorem WordKeeps.ite {i : Instr} {p : Prop} [Decidable p] {s t u : State} (ht : WordKeeps i s t) (hu : WordKeeps i s u) :
    WordKeeps i s (if p then t else u) := by
  split
  · exact ht
  · exact hu

/-! ### The frame of each operation at issue -/

section
variable (i : Instr) (s : State)

theorem keeps_free (k : Nat) : WordKeeps i s { s with fresh := k } where

theorem keeps_takeFree : WordKeeps i s s.takeFree.2 where

theorem keeps_push (r : Result) : WordKeeps i s (s.push r) where
  results := ⟨[r], rfl⟩

theorem keeps_after (lat : Nat) (e : Effect) : WordKeeps i s (s.after lat e) := keeps_push i s _

theorem keeps_mapCtl (f : Ctl → Ctl) (h : CtlIssued i s.core.ctl (f s.core.ctl)) : WordKeeps i s (s.mapCtl f) where
  ctl := h

theorem keeps_mapStaging (f : Staging → Staging) (h : StagingRead s.core.staging (f s.core.staging)) : WordKeeps i s (s.mapStaging f) where
  staging := h

theorem keeps_mapRegs (f : Regs → Regs) (h : RegsRead i s.core.regs (f s.core.regs)) : WordKeeps i s (s.mapRegs f) where
  regs := h

theorem keeps_mapVault (f : Vault → Vault) (h : VaultIssued i s.core.vault (f s.core.vault)) : WordKeeps i s (s.mapVault f) where
  vault := h

theorem keeps_raise (v : Verdict) : WordKeeps i s (s.raise v) := keeps_mapCtl i s _ { frame := rfl }

theorem keeps_taintIf (b : Bool) : WordKeeps i s (s.taintIf b) := .ite (keeps_raise i s _) (.refl i s)

theorem keeps_correctIf (b : Bool) : WordKeeps i s (s.correctIf b) := .ite (keeps_raise i s _) (.refl i s)

theorem keeps_occupy : WordKeeps i s (occupy i s) := by
  unfold occupy
  split
  · exact .refl i s
  · exact keeps_mapCtl i s _ { frame := rfl }

theorem keeps_markLatch : WordKeeps i s (markLatch i s) := by
  unfold markLatch
  split
  · split
    · exact keeps_after i s _ _
    · exact .refl i s
  · exact .refl i s

theorem keeps_scalarResult (n : Nat) (d : BitVec 6) (lat : Nat) (x : Scalar × Bool) : WordKeeps i s (scalarResult s n d lat x) :=
  .trans (.ite (.refl i s) (keeps_after i s _ _)) (keeps_after i _ _ _)

theorem keeps_vectorResult (n : Nat) (d : BitVec 6) (lat : Nat) (x : Row × Bool) : WordKeeps i s (vectorResult s n d lat x) :=
  .trans (.ite (.refl i s) (keeps_after i s _ _)) (keeps_after i _ _ _)

theorem keeps_predResult (d : BitVec 3) (b : Bool) : WordKeeps i s (predResult s d b) := .ite (.refl i s) (keeps_after i s _ _)

theorem keeps_flagResult (lat : Nat) (f : Flags) : WordKeeps i s (flagResult s lat f) := .ite (.refl i s) (keeps_after i s _ _)

theorem keeps_streamResult (d : BitVec 3) (lat : Nat) (x : Stream) : WordKeeps i s (streamResult s d lat x) := keeps_after i s _ _

/-- Rows added to those in flight change nothing else. -/
theorem keeps_foldl {β : Type} {f : State → β → State} (hf : ∀ s x, WordKeeps i s (f s x)) (xs : List β) : WordKeeps i s (xs.foldl f s) := by
  induction xs generalizing s with
  | nil => exact .refl i s
  | cons x xs ih => exact (hf s x).trans (ih _)

/-- A tag that is set: it reads 1, and every other tag stands. -/
theorem tget_tag (t : Table Bool) (n k : Nat) :
    tget false (tset false t n true) k = tget false t k ∨ (tget false (tset false t n true) k = true ∧ k = n) := by
  by_cases hk : k = n
  · subst hk
    exact .inr ⟨tget_tset_listed _ _ _ _ Bool.noConfusion, rfl⟩
  · exact .inl (tget_tset_ne _ _ _ _ _ hk)

/-! Reads of staging, of accumulator rows and of streams (R177, R213, R295). -/

theorem keeps_readHeld (u : Nat) : WordKeeps i s (readHeld s u).2 := by
  unfold readHeld
  split
  · next hm =>
    dsimp only
    refine (keeps_takeFree i s).trans (keeps_mapStaging i _ _ ⟨rfl, fun l => ?_, fun _ h => h⟩)
    exact (tget_tag s.core.staging.poison (u / 4) l).imp_right fun ⟨h, hl⟩ => ⟨h, u, hl.symm, hm⟩
  · exact .refl i s

theorem keeps_chooseAmong {α : Type} (x : α) (xs : List α) : WordKeeps i s (s.chooseAmong x xs).2 := by
  obtain ⟨k, hk⟩ := chooseAmong_frame s x xs
  rw [hk]
  exact keeps_free i s k

theorem keeps_readUnit (u : Nat) : WordKeeps i s (readUnit s u).2 := by
  unfold readUnit
  have hdrop (t : State) (n : Nat) : WordKeeps i t (t.mapStaging fun g => { g with unseen := dropFirst (fun x => x.unit == u) n g.unseen }) :=
    keeps_mapStaging i t _ ⟨rfl, fun _ => .inl rfl, dropFirst_sub _ _ _⟩
  dsimp only
  split
  · exact (keeps_chooseAmong i s _ _).trans (hdrop _ _)
  · exact ((keeps_chooseAmong i s _ _).trans (hdrop _ _)).trans (keeps_readHeld i _ u)

theorem keeps_readUnits (us : List Nat) : WordKeeps i s (readUnits s us).2 := by
  induction us generalizing s with
  | nil => exact .refl i s
  | cons u us ih => exact (keeps_readUnit i s u).trans (ih _)

theorem keeps_stageLoad (a n : Nat) : WordKeeps i s (stageLoad s a n).2 := (keeps_readUnits i s _).trans (keeps_correctIf i _ _)

theorem keeps_meetAcc (n : Nat) : WordKeeps i s (meetAcc s n) := by
  have htag (hm : tget .good s.core.regs.accMark n ≠ .good ∧ tget .good s.core.regs.accMark n ≠ .correctable) :
      WordKeeps i s (s.mapRegs fun r => { r with accPoison := tset false r.accPoison n true }) := by
    refine keeps_mapRegs i s _ ⟨rfl, fun k => ?_, fun _ => .inl rfl, .inl rfl⟩
    exact (tget_tag s.core.regs.accPoison n k).imp_right fun ⟨h, hk⟩ => ⟨h, hk ▸ hm⟩
  unfold meetAcc
  split
  · exact .refl i s
  · exact keeps_raise i s _
  · next hm => exact htag (by simp [hm])
  · next hm => exact htag (by simp [hm])

theorem keeps_meetStream (q : BitVec 3) : WordKeeps i s (meetStream s q) := by
  have htag (hm : (streamOf s q).mark ≠ .good ∧ (streamOf s q).mark ≠ .correctable) :
      WordKeeps i s (s.mapRegs fun r => { r with q := tset {} r.q q.toNat { tget {} r.q q.toNat with poison := true } }) := by
    refine keeps_mapRegs i s _ ⟨rfl, fun _ => .inl rfl, fun k => ?_, .inl rfl⟩
    by_cases hk : k = q.toNat
    · subst hk
      exact .inr ⟨tget_tset_listed _ _ _ _ (fun h => by simpa using congrArg Stream.poison h), hm⟩
    · exact .inl (tget_tset_ne _ _ _ _ _ hk)
  unfold meetStream
  split
  · exact .refl i s
  · exact keeps_raise i s _
  · next hm => exact htag (by simp [hm])
  · next hm => exact htag (by simp [hm])

/-! Banks and channels (Table 6.3, R145, R232). -/

theorem keeps_mapGang (g : Nat) (f : Gang → Gang) (h : meetsGang i = true) : WordKeeps i s (s.mapGang g f) where
  gangs := fun hi => absurd (h.symm.trans hi) Bool.noConfusion

theorem keeps_mapJob (p : Nat) (f : Job → Job) (q : BitVec 3) : WordKeeps (.snap q) s (s.mapJob p f) where
  jobs := fun h => absurd rfl (h q)

theorem keeps_mapBarge (f : Barge → Barge) (h : isCommand i = true) : WordKeeps i s (s.mapBarge f) where
  barge := fun hi => absurd (h.symm.trans hi) Bool.noConfusion

/-- A word of the D slot. -/
def isVaultWord (i : Instr) : Prop := ∃ u, useOf i = some u ∧ u.slot = .d

variable {i}

theorem keeps_vault (hd : isVaultWord i) (f : Vault → Vault)
    (h : (f s.core.vault).cells = s.core.vault.cells ∧ (f s.core.vault).marks = s.core.vault.marks) : WordKeeps i s (s.mapVault f) :=
  keeps_mapVault i s f { store := fun _ => h, slot := fun hi => by obtain ⟨u, hu, hs⟩ := hd; exact absurd hs (hi u hu) }

theorem keeps_setBank (hd : isVaultWord i) (n : Nat) (b : Bank) : WordKeeps i s (setBank s n b) := keeps_vault s hd _ ⟨rfl, rfl⟩

theorem keeps_setChannel (hd : isVaultWord i) (n : Nat) (c : Channel) : WordKeeps i s (setChannel s n c) := keeps_vault s hd _ ⟨rfl, rfl⟩

theorem keeps_activateChannel (hd : isVaultWord i) (n : Nat) : WordKeeps i s (activateChannel s n) := keeps_setChannel s hd _ _

theorem keeps_activateBank (hd : isVaultWord i) (n row : Nat) (intent : Bool) : WordKeeps i s (activateBank s n row intent) :=
  (keeps_setBank s hd _ _).trans (keeps_activateChannel _ hd _)

theorem keeps_readBank (hd : isVaultWord i) (n : Nat) : WordKeeps i s (readBank s n) :=
  (keeps_setBank s hd _ _).trans (keeps_setChannel _ hd _ _)

theorem keeps_writeBank (hd : isVaultWord i) (n : Nat) : WordKeeps i s (writeBank s n) :=
  (keeps_setBank s hd _ _).trans (keeps_setChannel _ hd _ _)

theorem keeps_prechargeBank (hd : isVaultWord i) (n : Nat) : WordKeeps i s (prechargeBank s n) := .ite (keeps_setBank s hd _ _) (.refl i s)

theorem keeps_refreshBank (hd : isVaultWord i) (n time : Nat) : WordKeeps i s (refreshBank s n time) := keeps_setBank s hd _ _

theorem keeps_laneMark (ch : Nat) (m : Mark) : WordKeeps i s (laneMark s ch m).2 := by
  unfold laneMark
  split
  · exact keeps_chooseAmong i s _ _
  · exact .refl i s

theorem keeps_loadColumn (hd : isVaultWord i) (k : Nat) : WordKeeps i s (loadColumn s k).2 := by
  have hm : WordKeeps i s (columnMark s k).2 := keeps_laneMark s _ _
  unfold loadColumn
  dsimp only
  split
  · exact hm
  · dsimp only
    exact (hm.trans (keeps_raise i _ .corrected)).trans (keeps_vault _ hd _ ⟨rfl, rfl⟩)
  · exact hm.trans (keeps_takeFree i _)
  · exact hm.trans (keeps_takeFree i _)

theorem keeps_markLane (hd : isVaultWord i) (old ch : Nat) : WordKeeps i s (markLane s old ch) :=
  .ite (.refl i s) ((keeps_free i s _).trans (keeps_vault _ hd _ ⟨rfl, rfl⟩))

theorem keeps_cloneRow (hd : isVaultWord i) (hg : meetsGang i = true) (n row : Nat) : WordKeeps i s (cloneRow s n row) := by
  unfold cloneRow
  exact .ite (((keeps_vault s hd _ ⟨rfl, rfl⟩).trans (keeps_vault _ hd _ ⟨rfl, rfl⟩)).trans (keeps_mapGang i _ _ _ hg))
    (keeps_vault s hd _ ⟨rfl, rfl⟩)

theorem keeps_cloneIfNeeded (hd : isVaultWord i) (hg : meetsGang i = true) (n row : Nat) : WordKeeps i s (cloneIfNeeded s n row) :=
  .ite (.refl i s) (keeps_cloneRow s hd hg n row)

theorem keeps_activate (hd : isVaultWord i) (n row : Nat) (intent : Bool) (hg : intent = true → meetsGang i = true) :
    WordKeeps i s (activate s n row intent) := by
  refine (keeps_activateBank s hd n row intent).trans ?_
  unfold activate
  dsimp only
  split
  · next h => exact keeps_cloneIfNeeded _ hd (hg h) _ _
  · exact .refl i _

/-! The C slot. -/

theorem keeps_branchTo (h : isBranch i = true) (t : Nat) : WordKeeps i s (branchTo s t) :=
  keeps_mapCtl i s _ { frame := rfl, branch := fun hi => absurd (h.symm.trans hi) Bool.noConfusion }

theorem keeps_ret (h : isBranch i = true) (f : Ctl → List Nat) : WordKeeps i s (s.mapCtl fun c => { c with ret := f c }) :=
  keeps_mapCtl i s _ { frame := rfl, branch := fun hi => absurd (h.symm.trans hi) Bool.noConfusion }

theorem keeps_countLoop (h : isBranch i = true) (t : Nat) : WordKeeps i s (countLoop s t) :=
  (keeps_after i s _ _).trans (.ite (.refl i _) (keeps_branchTo _ h t))

theorem keeps_arriveAt (h : meetsGang i = true) (g b c t : Nat) : WordKeeps i s (arriveAt s g b c t).2 := by
  simp only [arriveAt, apply_ite Prod.snd]
  exact .ite (keeps_mapGang i s _ _ h) (keeps_mapGang i s _ _ h)

theorem keeps_waitFor (h : isWait i = true) (w : WaitFor) (met : Option Nat) : WordKeeps i s (waitFor s w met) :=
  keeps_mapCtl i s _ { frame := rfl, wait := fun hi => absurd (h.symm.trans hi) Bool.noConfusion }

theorem keeps_takeSoftTrap (h : ∃ n p, i = .brk n p ∨ i = .trap n p) (cause code : Nat) : WordKeeps i s (takeSoftTrap s cause code) := by
  have hg : meetsGang i = true := by obtain ⟨n, p, rfl | rfl⟩ := h <;> rfl
  unfold takeSoftTrap
  split
  · exact .refl i s
  · refine (keeps_mapCtl i s _ { frame := rfl, trap := fun hi => ?_ }).trans (keeps_mapGang i _ _ _ hg)
    obtain ⟨n, p, h⟩ := h
    exact absurd h (not_or.mpr (hi n p))

theorem keeps_queueCmd (h : isCommand i = true) (k c : BitVec 6) : WordKeeps i s (queueCmd s i k c) := by
  unfold queueCmd
  exact (keeps_taintIf i s ((readScalar s c).2 && usesBase i)).trans (keeps_mapBarge i _ _ h)

/-! Shared effects of the M, F, V and X slots. -/

theorem keeps_vectorFlagged (n : Nat) (d : BitVec 6) (lat : Nat) (x : Row × Bool) (f : Flags) :
    WordKeeps i s (flagResult (vectorResult s n d lat x) lat f) := (keeps_vectorResult i s n d lat x).trans (keeps_flagResult i _ lat f)

theorem keeps_loadedRow (r : Nat) (p : Prop) [Decidable p] : WordKeeps i s (if p then (accRow s r, s) else loadAcc s r).2 := by
  split
  · exact .refl i s
  · exact keeps_meetAcc i s r

theorem keeps_croute (a : BitVec 6) (p : BitVec 3) (f : Canal → Canal) : WordKeeps (.croute a p) s (s.mapCanal f) where
  canal := fun _ h => absurd rfl (h a p)

theorem keeps_takeRow (d : BitVec 6) (l : BitVec 2) (p : BitVec 3) (k : Nat) : WordKeeps (.recv d l p) s (takeRow s k) where
  canal := fun h => absurd rfl (h d l p)

end

/-! ### The frame of each word -/

/-- The meaning `e` issues word `i` by the common rule, and its effect keeps the frame. -/
def Frames (i : Instr) (e : State → Out) : Prop := ∃ f, (∀ s, e s = issueWord i s f) ∧ ∀ s, WordKeeps i s (f s)

/-- A meaning that is the common rule with an effect that keeps the frame. -/
theorem frames_issueWord (i : Instr) (f : State → State) (h : ∀ s, WordKeeps i s (f s)) : Frames i fun s => issueWord i s f :=
  ⟨f, fun _ => rfl, h⟩

section
variable (i : Instr)

theorem frames_aluBinary (d a b : BitVec 6) (lat : Nat) (f : Scalar → Scalar → Scalar) : Frames i fun s => aluBinary i s d a b lat f :=
  frames_issueWord i _ fun s => keeps_scalarResult i s _ _ _ _

theorem frames_aluUnary (d a : BitVec 6) (f : Scalar → Scalar) : Frames i fun s => aluUnary i s d a f :=
  frames_issueWord i _ fun s => keeps_scalarResult i s _ _ _ _

theorem frames_vecUnary (u : VSlot) (d a : BitVec 6) (lat : Nat) (f : Row → Row × Flags) : Frames i fun s => vecUnary i s u d a lat f :=
  frames_issueWord i _ fun s => keeps_vectorFlagged s _ _ _ _ _

theorem frames_vecBinary (u : VSlot) (d a b : BitVec 6) (lat : Nat) (f : Row → Row → Row × Flags) :
    Frames i fun s => vecBinary i s u d a b lat f := frames_issueWord i _ fun s => keeps_vectorFlagged s _ _ _ _ _

theorem frames_vecTernary (u : VSlot) (d a b : BitVec 6) (lat : Nat) (f : Row → Row → Row → Row × Flags) :
    Frames i fun s => vecTernary i s u d a b lat f := frames_issueWord i _ fun s => keeps_vectorFlagged s _ _ _ _ _

theorem frames_maccBeat (f : Nat) (l : BitVec 2) (w : BitVec 8) (v : BitVec 6) (k r : BitVec 3) (z : BitVec 1) :
    Frames i fun s => maccBeat i s f l w v k r z := frames_issueWord i _ fun s => keeps_after i s _ _

theorem frames_maccaBeat (f : Nat) (l : BitVec 2) (w : BitVec 8) (o : BitVec 4) (g : BitVec 2) (k r : BitVec 3) (z : BitVec 1) :
    Frames i fun s => maccaBeat i s f l w o g k r z :=
  frames_issueWord i _ fun s => (keeps_loadedRow s _ _).trans (keeps_after i _ _ _)

theorem frames_drain (w : BitVec 8) (d : BitVec 6) (f : AccRow → Row × Flags) : Frames i fun s => drain i s w d f :=
  frames_issueWord i _ fun s => (keeps_meetAcc i s _).trans (keeps_vectorFlagged _ _ _ _ _ _)

theorem frames_generateFrom (d : BitVec 3) (l : BitVec 2) (c : BitVec 4) (v : BitVec 6) (f : Nat → Nat) :
    Frames i fun s => generateFrom i s d l c v f := frames_issueWord i _ fun s => keeps_streamResult i s _ _ _

theorem frames_gateStreams (d a b : BitVec 3) (l : BitVec 2) (f : BitVec 8192 → BitVec 8192 → BitVec 8192) :
    Frames i fun s => gateStreams i s d a b l f :=
  frames_issueWord i _ fun s => ((keeps_meetStream i s _).trans (keeps_meetStream i _ _)).trans (keeps_streamResult i _ _ _ _)

theorem frames_mapStream (d a : BitVec 3) (l : BitVec 2) (f : BitVec 8192 → BitVec 8192) (m : BitVec 32 → BitVec 32) :
    Frames i fun s => mapStream i s d a l f m :=
  frames_issueWord i _ fun s => (keeps_meetStream i s _).trans (keeps_streamResult i _ _ _ _)

end

theorem frames_execRet (p : BitVec 3) : Frames (.ret p) (execRet p) := by
  refine frames_issueWord _ _ fun s => ?_
  split
  · exact .refl _ s
  · exact (keeps_ret s rfl _).trans (keeps_branchTo _ rfl _)

theorem frames_execLoopr (t : BitVec 12) (n : BitVec 2) (w : BitVec 9) (p : BitVec 3) : Frames (.loopr t n w p) (execLoopr t n w p) :=
  frames_issueWord _ _ fun s => .ite (.refl _ s)
    ((((keeps_countLoop s rfl _).trans (keeps_after _ _ _ _)).trans (keeps_after _ _ _ _)).trans (keeps_after _ _ _ _))

theorem frames_execSeg (e g : BitVec 6) (m : BitVec 1) (p : BitVec 3) : Frames (.seg e g m p) (execSeg e g m p) :=
  frames_issueWord _ _ fun s =>
    have hlost (t : State) : WordKeeps (.seg e g m p) t (loseLatches t) :=
      keeps_mapRegs _ t _ ⟨rfl, fun _ => .inl rfl, fun _ => .inl rfl, .inr ⟨rfl, rfl⟩⟩
    ((keeps_taintIf _ s _).trans (hlost _)).trans (keeps_mapCtl _ _ _ { frame := rfl, segment := fun h => absurd h Bool.noConfusion })

theorem frames_execMsta (w : BitVec 2) (o : BitVec 8) (a : BitVec 6) (k p : BitVec 3) : Frames (.msta w o a k p) (execMsta w o a k p) :=
  frames_issueWord _ _ fun s => .ite (keeps_taintIf _ s _)
    ((((keeps_taintIf _ s _).trans (keeps_meetAcc _ _ _)).trans (keeps_taintIf _ _ _)).trans (keeps_after _ _ _ _))

theorem frames_activateWord (i : Instr) (c : BitVec 2) (b : BitVec 4) (a : BitVec 6) (intent : Bool) (hd : isVaultWord i)
    (hg : intent = true → meetsGang i = true) : Frames i fun s => activateWord i s c b a intent := by
  exact frames_issueWord i _ fun s => (keeps_taintIf i s _).trans (keeps_activate _ hd _ _ _ hg)

theorem frames_execRd (c : BitVec 2) (b l : BitVec 4) (v : BitVec 6) (p : BitVec 3) : Frames (.rd c b l v p) (execRd c b l v p) :=
  have hd : isVaultWord (.rd c b l v p) := ⟨_, rfl, rfl⟩
  frames_issueWord _ _ fun s => ((((keeps_readBank s hd _).trans (keeps_loadColumn _ hd _)).trans
    (keeps_markLane _ hd _ _)).trans (.ite (.refl _ _) (keeps_push _ _ _))).trans (keeps_push _ _ _)

theorem frames_execWr (c : BitVec 2) (b l : BitVec 4) (v : BitVec 6) (p : BitVec 3) : Frames (.wr c b l v p) (execWr c b l v p) :=
  frames_issueWord _ _ fun s => ((keeps_writeBank s ⟨_, rfl, rfl⟩ _).trans (keeps_taintIf _ _ _)).trans
    (keeps_mapVault _ _ _ { store := fun h => absurd rfl (h c b l v p), slot := fun h => absurd rfl (h _ rfl) })

theorem frames_execRecv (d : BitVec 6) (l : BitVec 2) (p : BitVec 3) : Frames (.recv d l p) (execRecv d l p) := by
  refine frames_issueWord _ _ fun s => ?_
  split
  · exact .refl _ s
  · exact (keeps_takeRow s _ _ _ _).trans (keeps_vectorResult _ _ _ _ _ _)

theorem frames_execCroute (a : BitVec 6) (p : BitVec 3) : Frames (.croute a p) (execCroute a p) :=
  frames_issueWord _ _ fun s =>
    have hunits : WordKeeps (.croute a p) s
        (if s.core.canal.image.isSome then s.mapCanal fun c => { c with image := none } else (readImage s a).2) :=
      .ite (keeps_croute s a p _) (keeps_readUnits _ s _)
    ((hunits.trans (keeps_taintIf _ _ _)).trans (keeps_correctIf _ _ _)).trans (.ite (keeps_raise _ _ _) (keeps_croute _ a p _))

/-- Every slot word is issued by the common rule and keeps the frame. -/
theorem exec_frames (i : Instr) (u : Use) (hu : useOf i = some u) : Frames i (exec i) := by
  cases i
  all_goals cases hu
  all_goals (unfold exec; dsimp only)
  case br => exact frames_issueWord _ _ fun s => keeps_branchTo s rfl _
  case brp => exact frames_issueWord _ _ fun s => .ite (keeps_branchTo s rfl _) (.refl _ s)
  case call => exact frames_issueWord _ _ fun s => (keeps_ret s rfl fun c => (c.pc + 1) :: c.ret).trans (keeps_branchTo _ rfl _)
  case ret => exact frames_execRet _
  case loop => exact frames_issueWord _ _ fun s => .ite (.refl _ s) (keeps_countLoop s rfl _)
  case loopr => exact frames_execLoopr _ _ _ _
  case waitb => exact frames_issueWord _ _ fun s => (keeps_arriveAt s rfl _ _ _ _).trans (keeps_waitFor _ rfl _ _)
  case arrb => exact frames_issueWord _ _ fun s => keeps_arriveAt s rfl _ _ _ _
  case waitt => exact frames_issueWord _ _ fun s => keeps_waitFor s rfl _ _
  case waitp => exact frames_issueWord _ _ fun s => (keeps_taintIf _ s _).trans (keeps_waitFor _ rfl _ _)
  case trig | endTask => exact frames_issueWord _ _ fun s => keeps_after _ s _ _
  case seg => exact frames_execSeg _ _ _ _
  case sege => exact frames_issueWord _ _ fun s => (keeps_taintIf _ s _).trans (keeps_after _ _ _ _)
  case ifence => exact frames_issueWord _ _ fun s => {}
  case snap => exact frames_issueWord _ _ fun s => keeps_mapJob s _ _ _
  case genq => exact frames_issueWord _ _ fun s => keeps_scalarResult _ s _ _ _ _
  case brk n p => exact frames_issueWord _ _ fun s => keeps_takeSoftTrap s ⟨n, p, .inl rfl⟩ _ _
  case trap n p => exact frames_issueWord _ _ fun s => keeps_takeSoftTrap s ⟨n, p, .inr rfl⟩ _ _
  case pand | por | pxor | pnot => exact frames_issueWord _ _ fun s => keeps_predResult _ s _ _
  case add | sub | andS | orS | xorS | shl | shr | sra | mul | mulh | mulhu | maxS | minS => exact frames_aluBinary _ _ _ _ _ _
  case clz | ffs | popc | addi => exact frames_aluUnary _ _ _ _
  case sel | li | lih | mfs => exact frames_issueWord _ _ fun s => keeps_scalarResult _ s _ _ _ _
  case cmp => exact frames_issueWord _ _ fun s => (keeps_taintIf _ s _).trans (keeps_predResult _ _ _ _)
  case lds => exact frames_issueWord _ _ fun s => ((keeps_taintIf _ s _).trans (keeps_stageLoad _ _ _ _)).trans (keeps_scalarResult _ _ _ _ _ _)
  case sts | stv | mts => exact frames_issueWord _ _ fun s => (keeps_taintIf _ s _).trans (keeps_after _ _ _ _)
  case vaddF | vsubF | vmulF | vmaxF | vminF | vcpys | vcmpEqF | vcmpLtF | vcmpLeF | vscale | vaddI | vsubI | vmulI | vmulh | vmaxI |
      vminI | vand | vor | vxor | vshl | vshr | vcmpEqI | vcmpLtI | vcmpLeI | vmaxe | vshuf | vdup => exact frames_vecBinary _ _ _ _ _ _ _
  case vfma | vsel => exact frames_vecTernary _ _ _ _ _ _ _
  case vabsF | vnegF | vrint | vredF | vrcp | vsqrt | vrsq | vexp2 | vlog2 | vsin | vcos | vtanh | vabsI | vnegI | vclz | vffs | vpopc |
      vredI | vexps | vcvtFromFloat | vcvtFromInt | vcvtWidenF8 => exact frames_vecUnary _ _ _ _ _ _
  case mpush | mhad => exact frames_issueWord _ _ fun s => keeps_after _ s _ _
  case msta => exact frames_execMsta _ _ _ _ _
  case mzero => exact frames_issueWord _ _ fun s => keeps_foldl _ s (fun t _ => keeps_after _ t _ _) _
  case maccF64 | maccF32 | maccF16 | maccB16 | maccF8e4 | maccF8e5 | maccI8 | maccN8 => exact frames_maccBeat _ _ _ _ _ _ _ _
  case maccaF64 | maccaF32 | maccaF16 | maccaB16 | maccaF8e4 | maccaF8e5 | maccaI8 | maccaN8 =>
    exact frames_maccaBeat _ _ _ _ _ _ _ _ _
  case mdrainF32F32 | mdrainF32F16 | mdrainF32B16 | mdrainF32F8e4 | mdrainF32F8e5 | mdrainF64F64 | mdrainF64F32 | mdrainI32I32 |
      mdrainI32I16 | mdrainI32I8 => exact frames_drain _ _ _ _
  case act => exact frames_activateWord _ _ _ _ _ ⟨_, rfl, rfl⟩ Bool.noConfusion
  case actw => exact frames_activateWord _ _ _ _ _ ⟨_, rfl, rfl⟩ fun _ => rfl
  case rd => exact frames_execRd _ _ _ _ _
  case wr => exact frames_execWr _ _ _ _ _
  case pre => exact frames_issueWord _ _ fun s => keeps_prechargeBank s ⟨_, rfl, rfl⟩ _
  case prea => exact frames_issueWord _ _ fun s => keeps_foldl _ s (fun t _ => keeps_prechargeBank t ⟨_, rfl, rfl⟩ _) _
  case ref => exact frames_issueWord _ _ fun s => keeps_foldl _ s (fun t _ => keeps_refreshBank t ⟨_, rfl, rfl⟩ _ _) _
  case refb => exact frames_issueWord _ _ fun s => (keeps_refreshBank s ⟨_, rfl, rfl⟩ _ _).trans (keeps_activateChannel _ ⟨_, rfl, rfl⟩ _)
  case sgen | sgenb => exact frames_generateFrom _ _ _ _ _ _
  case snot | smov | sdly => exact frames_mapStream _ _ _ _ _ _
  case sregen => exact frames_issueWord _ _ fun s => (keeps_meetStream _ s _).trans (keeps_streamResult _ _ _ _ _)
  case sand | sor | sxor | sxnor => exact frames_gateStreams _ _ _ _ _ _
  case smux =>
    exact frames_issueWord _ _ fun s => (((keeps_meetStream _ s _).trans (keeps_meetStream _ _ _)).trans (keeps_meetStream _ _ _)).trans
      (keeps_streamResult _ _ _ _ _)
  case scnt => exact frames_issueWord _ _ fun s => (keeps_meetStream _ s _).trans (keeps_vectorResult _ _ _ _ _ _)
  case scls => exact frames_issueWord _ _ fun s => .ite (.refl _ s) (keeps_after _ s _ _)
  case sld => exact frames_issueWord _ _ fun s => ((keeps_taintIf _ s _).trans (keeps_stageLoad _ _ _ _)).trans (keeps_streamResult _ _ _ _ _)
  case sst => exact frames_issueWord _ _ fun s => ((keeps_meetStream _ s _).trans (keeps_taintIf _ _ _)).trans (keeps_push _ _ _)
  case ldv => exact frames_issueWord _ _ fun s => ((keeps_taintIf _ s _).trans (keeps_stageLoad _ _ _ _)).trans (keeps_vectorResult _ _ _ _ _ _)
  case send r v p =>
    exact frames_issueWord _ _ fun s => (keeps_taintIf _ s (readVector s v).2).trans { flights := fun h => absurd rfl (h r v p) }
  case recv => exact frames_execRecv _ _ _
  case croute => exact frames_execCroute _ _
  case bcopy | bgath | bscat | breda | batom | bfence | bmark | bseal | bopen => exact frames_issueWord _ _ fun s => keeps_queueCmd s rfl _ _

/-- A word that passes the checks is performed. -/
theorem issueWord_passes (i : Instr) (s : State) (f : State → State) (h : s.vetted = true ∨ bundleFaults s [i] = []) :
    issueWord i s f = .next (perform i s f) := h.elim (issueWord_vetted i s f) (issueWord_alone i s f)

theorem Frames.keeps {i : Instr} {e : State → Out} (h : Frames i e) (s : State) (hs : s.vetted = true ∨ bundleFaults s [i] = []) :
    ∃ t, e s = .next t ∧ WordKeeps i s t := by
  obtain ⟨f, hf, hk⟩ := h
  refine ⟨perform i s f, (hf s).trans (issueWord_passes i s f hs), ?_⟩
  exact .ite ((keeps_occupy i s).trans (hk _)) ((keeps_occupy i s).trans (keeps_markLatch i _))

/-- A word in a vetted bundle, whatever its predicate, keeps the frame. -/
theorem exec_keeps (i : Instr) (u : Use) (hu : useOf i = some u) (s t : State) (hv : s.vetted = true) (h : exec i s = .next t) :
    WordKeeps i s t := by
  obtain ⟨t', ht', hkeeps⟩ := (exec_frames i u hu).keeps s (.inl hv)
  obtain rfl : t' = t := Host.Outcome.next.inj (ht'.symm.trans h)
  exact hkeeps

/-! ### Words under a false predicate (R57, R61, R64) -/

/-- A word that passes, under a predicate that reads 0, leaves its occupancy and the mark of its latch. -/
theorem exec_suppressed (i : Instr) (u : Use) (hu : useOf i = some u) (s : State) (h : s.vetted = true ∨ bundleFaults s [i] = [])
    (hp : readPred s u.pr = false) : exec i s = .next (markLatch i (occupy i s)) := by
  obtain ⟨f, hf, -⟩ := exec_frames i u hu
  have hpred : predOf s i = false := by rw [predOf, hu]; exact hp
  rw [hf, issueWord_passes i s f h, perform, hpred]
  rfl

/-- The notes of Hadamard loads that a word leaves: `MHAD` alone makes one (R130). -/
def mhadNotes (i : Instr) (c : Ctl) : Table Nat :=
  match i with
  | .mhad l _ _ _ => tset 0 c.mhadAt l.toNat (c.cyc + 1)
  | _ => c.mhadAt

theorem occupy_eq (i : Instr) (u : Use) (hu : useOf i = some u) (s : State) :
    occupy i s = (Claims.busyFor s u.slot.num u.beats).mapCtl fun c => { c with mhadAt := mhadNotes i s.core.ctl } := by
  cases i
  all_goals cases hu
  all_goals rfl

theorem queued_nil (s : State) : Claims.queued s [] = s := by rw [Claims.queued, List.append_nil]

end Sys2Proof.Machine

namespace Sys2Proof.Claims

open Sys2Proof Sys2Proof.Machine

/-- Settles O54: the word leaves its occupancy and its latch mark (`exec_suppressed`), and the mark leaves the latch's contents. -/
theorem falsePredicate : Obligations.FalsePredicate := by
  intro s i u hu hissue hp
  have hne : u.pr ≠ 0 := fun h => by simp [readPred, h] at hp
  rw [readPred, if_neg hne] at hp
  refine ⟨hne, hp, ?_, fun r n v => ?_⟩
  · rw [exec_suppressed i u hu s hissue (by rw [readPred, if_neg hne]; exact hp), markLatch, hu, occupy_eq i u hu]
    dsimp only
    cases u.latch with
    | none => rw [queued_nil]; rfl
    | some vec => rfl
  · have hlatch : tget {} (landLatch r.core.regs n v false 0 false).latches n = _ :=
      tget_tset_listed _ _ _ _ fun h => Bool.noConfusion (congrArg Latch.valid h)
    dsimp only [landEffect]
    rw [mapRegs_core_regs, hlatch]
    exact ⟨rfl, rfl, rfl, rfl⟩

/-- Settles O57: the frame that every word keeps, `exec_keeps`, part by part. -/
theorem wordFrame : Obligations.WordFrame := by
  intro s t i u hu hv h r r' c c' lost
  have k := exec_keeps i u hu s t hv h
  have device {α} (f : State → α) : f t = f _ := congrArg f k.frame
  have control {α} (f : Ctl → α) : f t.core.ctl = f _ := congrArg f k.ctl.frame
  have stage {α} (f : Staging → α) : f t.core.staging = f _ := congrArg f k.staging.frame
  exact ⟨device State.clock, device State.turn, device State.cur, device State.tiles,
    device State.saved, device State.agenda, device State.mem, device State.lk,
    device State.fabric, device State.platform, (device State.vetted).trans hv, k.bundles, k.task,
    control Ctl.pc, control Ctl.cyc, control Ctl.lc, control Ctl.rrb, control Ctl.awb,
    control Ctl.fflg, control Ctl.ir, k.results, stage Staging.cells, stage Staging.marks,
    k.staging.tags, k.staging.unseen, k.regs.frame, k.regs.rows, k.regs.streams,
    fun hi => ⟨k.regs.latches.resolve_right fun hs => Bool.noConfusion (hi.symm.trans hs.1), k.ctl.segment hi⟩,
    fun _ => k.regs.latches.imp_right And.right, k.vault.store,
    fun hs => k.vault.slot fun v hv' => Option.some.inj (hu.symm.trans hv') ▸ hs,
    k.ctl.branch, k.ctl.wait, k.ctl.trap, k.barge, k.canal, k.flights, k.jobs, k.gangs⟩

end Sys2Proof.Claims
end

section
/-! PROOFS. A write to s0 or p0 is discarded (R63, R67, R68). -/

namespace Sys2Proof.Machine

open Claims (isBranch isSeg isWait)

/-- An effect that writes neither a scalar nor a predicate register. -/
def SparesScalars (e : Effect) : Prop := (∀ d x b, e ≠ .scalar d x b) ∧ ∀ n b, e ≠ .pred n b

/-- From `s` to `t`, the results queued write neither a scalar nor a predicate register. -/
def QueuesNoWrite (s t : State) : Prop := ∃ rs, t.core.results = s.core.results ++ rs ∧ ∀ r ∈ rs, SparesScalars r.eff

theorem QueuesNoWrite.of_eq {s t : State} (h : t.core.results = s.core.results) : QueuesNoWrite s t :=
  ⟨[], h.trans (List.append_nil _).symm, fun _ hr => absurd hr List.not_mem_nil⟩

theorem QueuesNoWrite.trans {s t u : State} (a : QueuesNoWrite s t) (b : QueuesNoWrite t u) : QueuesNoWrite s u := by
  obtain ⟨xs, hx, hxs⟩ := a
  obtain ⟨ys, hy, hys⟩ := b
  exact ⟨xs ++ ys, by rw [hy, hx, List.append_assoc], fun r hr => (List.mem_append.mp hr).elim (hxs r) (hys r)⟩

theorem queuesNoWrite_latch (s : State) (lat n : Nat) (vec on : Bool) (x : Row) (b : Bool) :
    QueuesNoWrite s (s.after lat (.latch n vec on x b)) :=
  ⟨_, rfl, fun r hr => by obtain rfl := List.mem_singleton.mp hr; exact ⟨nofun, nofun⟩⟩

theorem queuesNoWrite_markLatch (i : Instr) (s : State) : QueuesNoWrite s (markLatch i s) := by
  unfold markLatch
  split
  · split
    · exact queuesNoWrite_latch s _ _ _ _ _ _
    · exact .of_eq rfl
  · exact .of_eq rfl

theorem queuesNoWrite_scalarResult (s : State) (n lat : Nat) (x : Scalar × Bool) : QueuesNoWrite s (scalarResult s n 0 lat x) := by
  rw [scalarResult, if_pos rfl]
  exact queuesNoWrite_latch s _ _ _ _ _ _

theorem queuesNoWrite_predResult (s : State) (b : Bool) : QueuesNoWrite s (predResult s 0 b) := .of_eq rfl

theorem queuesNoWrite_taintIf (s : State) (b : Bool) : QueuesNoWrite s (s.taintIf b) := .of_eq (by cases b <;> rfl)

theorem queuesNoWrite_stageLoad (s : State) (a n : Nat) : QueuesNoWrite s (stageLoad s a n).2 := by
  obtain ⟨k, v, xs, ps, h⟩ := stageLoad_frame s a n
  exact .of_eq (by rw [h]; rfl)

/-- The word that `e` executes queues no write of a scalar or predicate register when it passes. -/
def Discards (i : Instr) (e : State → Out) : Prop := ∃ f, (∀ s, e s = issueWord i s f) ∧ ∀ s, QueuesNoWrite s (f s)

theorem discards_issueWord (i : Instr) (f : State → State) (h : ∀ s, QueuesNoWrite s (f s)) : Discards i fun s => issueWord i s f :=
  ⟨f, fun _ => rfl, h⟩

theorem discards_aluBinary (i : Instr) (a b : BitVec 6) (lat : Nat) (f : Scalar → Scalar → Scalar) :
    Discards i fun s => aluBinary i s 0 a b lat f := discards_issueWord i _ fun s => queuesNoWrite_scalarResult s _ _ _

theorem discards_aluUnary (i : Instr) (a : BitVec 6) (f : Scalar → Scalar) : Discards i fun s => aluUnary i s 0 a f :=
  discards_issueWord i _ fun s => queuesNoWrite_scalarResult s _ _ _

theorem exec_discards (i : Instr) (u : Use) (hu : useOf i = some u) (hd : u.dest = .scalar 0 ∨ u.dest = .pred 0) : Discards i (exec i) := by
  cases i
  all_goals cases hu
  all_goals obtain hd | hd := hd
  all_goals cases hd
  all_goals unfold exec
  all_goals dsimp only
  case genq => exact discards_issueWord _ _ fun s => queuesNoWrite_scalarResult s _ _ _
  case pand | por | pxor | pnot => exact discards_issueWord _ _ fun s => queuesNoWrite_predResult s _
  case add | sub | andS | orS | xorS | shl | shr | sra | mul | mulh | mulhu | maxS | minS => exact discards_aluBinary _ _ _ _ _
  case clz | ffs | popc | addi => exact discards_aluUnary _ _ _
  case sel | li | lih | mfs => exact discards_issueWord _ _ fun s => queuesNoWrite_scalarResult s _ _ _
  case cmp => exact discards_issueWord _ _ fun s => (queuesNoWrite_taintIf s _).trans (queuesNoWrite_predResult _ _)
  case lds =>
    exact discards_issueWord _ _ fun s =>
      ((queuesNoWrite_taintIf s _).trans (queuesNoWrite_stageLoad _ _ _)).trans (queuesNoWrite_scalarResult _ _ _ _)

/-- A word whose destination is a scalar or a predicate register neither branches nor waits nor opens a segment. -/
theorem goesOn_of_dest (i : Instr) (u : Use) (hu : useOf i = some u) (hd : (∃ d, u.dest = .scalar d) ∨ ∃ d, u.dest = .pred d) :
    isSeg i = false ∧ isBranch i = false ∧ isWait i = false := by
  cases i
  all_goals cases hu
  all_goals obtain ⟨_, hd⟩ | ⟨_, hd⟩ := hd
  all_goals cases hd
  all_goals exact ⟨rfl, rfl, rfl⟩

theorem queuesNoWrite_occupy (i : Instr) (s : State) : QueuesNoWrite s (occupy i s) := by
  unfold occupy
  split
  · exact .of_eq rfl
  · exact .of_eq rfl

theorem QueuesNoWrite.perform {i : Instr} {f : State → State} (hf : ∀ s, QueuesNoWrite s (f s)) (s : State) :
    QueuesNoWrite s (perform i s f) := by
  unfold Machine.perform
  split
  · exact (queuesNoWrite_occupy i s).trans (hf _)
  · exact (queuesNoWrite_occupy i s).trans (queuesNoWrite_markLatch i _)

theorem Discards.queues {i : Instr} {e : State → Out} (h : Discards i e) (s : State) (hs : s.vetted = true ∨ bundleFaults s [i] = []) :
    ∃ t, e s = .next t ∧ QueuesNoWrite s t := by
  obtain ⟨f, hf, hq⟩ := h
  exact ⟨perform i s f, (hf s).trans (issueWord_passes i s f hs), .perform hq s⟩

end Sys2Proof.Machine

namespace Sys2Proof.Claims

open Sys2Proof Sys2Proof.Machine

/-- Settles O56: what the word queues writes no such register (`exec_discards`), and the frame of words holds (`exec_frames`). -/
theorem discardedWrites : Obligations.DiscardedWrites := by
  intro s i u hu hd
  refine ⟨rfl, rfl, fun hs => ?_⟩
  obtain ⟨t, ht, hkeeps⟩ := (exec_frames i u hu).keeps s hs
  obtain ⟨t', ht', rs, hresults, hrs⟩ := (exec_discards i u hu hd).queues s hs
  obtain rfl : t = t' := Host.Outcome.next.inj (ht.symm.trans ht')
  obtain ⟨hseg, hbranch, hwait⟩ := goesOn_of_dest i u hu (hd.imp (fun h => ⟨_, h⟩) fun h => ⟨_, h⟩)
  have hlatches : t.core.regs.latches = s.core.regs.latches :=
    hkeeps.regs.latches.resolve_right fun h => Bool.noConfusion (hseg.symm.trans h.1)
  refine ⟨t, rs, ht, hresults, ?_, (hkeeps.ctl.branch hbranch).1, (hkeeps.ctl.wait hwait).1, hrs⟩
  rw [hkeeps.regs.frame, hlatches]

end Sys2Proof.Claims
end

section
/-! PROOFS. A bundle that fails a check: the first cause of Table 3.8, and what its trap leaves (R81, R82, R242, R282, R284). -/

namespace Sys2Proof.Machine

/-! ### The first cause in the order of Table 3.8 -/

/-- The place of a cause code in the order of Table 3.8, with the segment fault after all of them (R81, R283). -/
def causeRank (cause : Nat) : Nat := [0, 1, 2, 3, 4, 7, 5, 6, 6].getD cause 0

/-- A fault whose place in the order is that of its cause code. -/
def Ranked (f : IssueFault) : Prop := f.order = causeRank f.cause ∧ 0 < f.order

theorem ranked_when {b : Bool} {f : IssueFault} (h : Ranked f) : ∀ e ∈ when b f, Ranked e := by
  intro e he
  cases b with
  | false => exact absurd he List.not_mem_nil
  | true => exact List.mem_singleton.mp he ▸ h

theorem ranked_append {xs ys : List IssueFault} (hx : ∀ e ∈ xs, Ranked e) (hy : ∀ e ∈ ys, Ranked e) : ∀ e ∈ xs ++ ys, Ranked e :=
  fun e he => (List.mem_append.mp he).elim (hx e) (hy e)

theorem ranked_flatMap {xs : List Instr} {f : Instr → List IssueFault} (h : ∀ i, ∀ e ∈ f i, Ranked e) : ∀ e ∈ xs.flatMap f, Ranked e :=
  fun e he => by
    obtain ⟨i, -, hi⟩ := List.mem_flatMap.mp he
    exact h i e hi

theorem ranked_schedule (u : Use) : Ranked (schedule u) := ⟨rfl, Nat.zero_lt_succ _⟩

theorem ranked_timing (detail slot : Nat) : Ranked (timing detail slot) := ⟨rfl, Nat.zero_lt_succ _⟩

theorem ranked_wordFaults (s : State) (i : Instr) : ∀ e ∈ wordFaults s i, Ranked e := by
  unfold wordFaults
  split
  · exact fun _ he => absurd he List.not_mem_nil
  · exact ranked_append (ranked_append (ranked_append (ranked_append (ranked_append (ranked_append
      (ranked_when ⟨rfl, Nat.zero_lt_succ _⟩) (ranked_when (ranked_schedule _))) (ranked_when ⟨rfl, Nat.zero_lt_succ _⟩))
      (ranked_when (ranked_timing _ _))) (ranked_when (ranked_timing _ _))) (ranked_when (ranked_timing _ _)))
      (ranked_when ⟨rfl, Nat.zero_lt_succ _⟩)

theorem ranked_pairFaults (s : State) (ws : List Instr) : ∀ e ∈ pairFaults s ws, Ranked e := by
  refine ranked_flatMap fun j => ?_
  split
  · exact fun _ he => absurd he List.not_mem_nil
  · exact ranked_when (ranked_schedule _)

theorem ranked_canalFaults (s : State) (ws : List Instr) : ∀ e ∈ canalFaults s ws, Ranked e :=
  ranked_append (ranked_append (ranked_when ⟨rfl, Nat.zero_lt_succ _⟩) (ranked_when ⟨rfl, Nat.zero_lt_succ _⟩))
    (ranked_when ⟨rfl, Nat.zero_lt_succ _⟩)

theorem ranked_bundleFaults (s : State) (ws : List Instr) : ∀ e ∈ bundleFaults s ws, Ranked e :=
  ranked_append (ranked_append (ranked_append (ranked_append (ranked_flatMap (ranked_wordFaults s)) (ranked_pairFaults s ws))
    (ranked_when (ranked_timing _ _))) (ranked_canalFaults s ws)) (ranked_when ⟨rfl, Nat.zero_lt_succ _⟩)

theorem ranked_illegalWords (ds : List (Slot × Except Reject Instr)) : ∀ e ∈ illegalWords ds, Ranked e := by
  intro e he
  obtain ⟨d, -, hd⟩ := List.mem_filterMap.mp he
  split at hd
  · cases hd
  · cases hd
    exact ⟨rfl, Nat.zero_lt_succ _⟩

/-- The cause that is named is one of the list, and none of the list comes before it. -/
theorem firstFault_first {fs : List IssueFault} {f : IssueFault} (h : firstFault fs = some f) :
    f ∈ fs ∧ ∀ e ∈ fs, f.order < e.order ∨ (f.order = e.order ∧ f.slot ≤ e.slot) := by
  induction fs generalizing f with
  | nil => cases h
  | cons g gs ih =>
    rw [firstFault] at h
    cases hgs : firstFault gs with
    | none =>
      obtain rfl := (firstFault_none_iff gs).mp hgs
      rw [hgs] at h
      cases h
      exact ⟨List.mem_singleton_self _, fun e he => .inr (List.mem_singleton.mp he ▸ ⟨rfl, Nat.le_refl _⟩)⟩
    | some k =>
      obtain ⟨hk, hfirst⟩ := ih hgs
      rw [hgs] at h
      by_cases hb : k.before g = true
      · obtain rfl : k = f := Option.some.inj ((if_pos hb).symm.trans h)
        simp only [IssueFault.before, Bool.or_eq_true, Bool.and_eq_true, decide_eq_true_eq] at hb
        refine ⟨List.mem_cons_of_mem _ hk, List.forall_mem_cons.mpr ⟨?_, hfirst⟩⟩
        omega
      · obtain rfl : g = f := Option.some.inj ((if_neg hb).symm.trans h)
        simp only [IssueFault.before, Bool.or_eq_true, Bool.and_eq_true, decide_eq_true_eq] at hb
        refine ⟨List.mem_cons_self, List.forall_mem_cons.mpr ⟨.inr ⟨rfl, Nat.le_refl _⟩, fun e he => ?_⟩⟩
        have := hfirst e he
        omega

/-! ### What taking a trap leaves -/

/-- The record of the cause `f` raised at issue (R284); a segment fault counts the bundle of its `SEGE` (R283). -/
def faultRecord (s : State) (f : IssueFault) : TrapRec :=
  let r := trapRecord s f.cause f.detail f.slot s.core.ctl.pc s.core.ctl.pc true
  if f.cause = 5 then { r with sgsc := s.core.ctl.sgsc + 1, sgsh := s.core.ctl.sgsh + bundleCrc s.core.ctl.ir } else r

/-- A record of a segment fault differs from another in the counts of the segment alone. -/
theorem faultRecord_field {α : Type} (s : State) (f : IssueFault) (g : TrapRec → α)
    (hg : ∀ (r : TrapRec) c h, g { r with sgsc := c, sgsh := h } = g r) :
    g (faultRecord s f) = g (trapRecord s f.cause f.detail f.slot s.core.ctl.pc s.core.ctl.pc true) := by
  unfold faultRecord
  dsimp only
  split
  · exact hg _ _ _
  · rfl

theorem writeTrapRecord_frame (s : State) : (writeTrapRecord s).core = s.core ∧ (writeTrapRecord s).tiles = s.tiles ∧
    (writeTrapRecord s).clock = s.clock := by
  unfold writeTrapRecord
  split
  · exact ⟨rfl, rfl, rfl⟩
  · exact ⟨by simp only [mapGang_core, mapMem_core], by simp only [mapGang_tiles, mapMem_tiles],
      by simp only [mapGang_clock, mapMem_clock]⟩

/-- A hold that is asked for stands among the causes of the gang (R41). -/
theorem requestHold_asked (s : State) (g : Nat) (c : HoldCause) : c ∈ ((s.requestHold g c).gang g).causes := by
  have hlisted (x : Gang) (hx : c ∈ x.causes) : c ∈ (tget {} (tset {} s.gangs g x) g).causes := by
    rw [tget_tset_listed _ _ _ _ fun h => by rw [h] at hx; exact absurd hx List.not_mem_nil]
    exact hx
  refine hlisted _ ?_
  have hjoined (cs : List HoldCause) : c ∈ if cs.contains c then cs else cs ++ [c] := by
    split
    · next h => simpa using h
    · simp
  dsimp only
  split
  · next h => simpa using (Bool.and_eq_true_iff.mp h).1
  · split
    · exact hjoined _
    · split
      · exact hjoined _
      · exact hjoined _

/-- What a first cause leaves in the tile: it stops, and its record is open to nothing more (R282). -/
def trapped (s : State) (f : IssueFault) : State :=
  (s.taintIf (decide (f.cause = 5))).mapCtl fun c => { c with status := .stopped, trap := some (faultRecord s f) }

theorem takeTrap_first (s : State) (f : IssueFault) (h : s.core.ctl.trap = none) :
    takeTrap s f = (writeTrapRecord (trapped s f)).requestHold s.core.task.gid .trap := by
  have htaint : s.taintIf (decide (f.cause = 5)) =
      s.mapCtl fun c => { c with verdict := (s.taintIf (decide (f.cause = 5))).core.ctl.verdict } := by
    obtain ⟨v, hv⟩ := taintIf_core s (decide (f.cause = 5))
    rw [hv]
    rfl
  rw [takeTrap, h, trapped]
  dsimp only
  rw [htaint]
  rfl

/-- A further cause while the record of a `BRK` or `TRAP` is open (R282, R284). -/
theorem takeTrap_late (s : State) (f : IssueFault) (r : TrapRec) (h : s.core.ctl.trap = some r) (hr : r.final = false) : ∃ v,
    takeTrap s f = s.mapCtl fun c => { c with
      verdict := v, status := .stopped, trap := some { r with late := true, npc := s.core.ctl.pc } } := by
  rw [takeTrap, h]
  obtain ⟨v, hv⟩ := taintIf_core s (decide (f.cause = 5) && !r.final)
  dsimp only
  rw [hv, takeLate, hr]
  exact ⟨v, rfl⟩

theorem discardConflicts_frame (s : State) : ∃ xs, discardConflicts s = { s with flights := xs } := by
  unfold discardConflicts
  dsimp only
  split
  · exact ⟨s.flights, rfl⟩
  · exact ⟨_, rfl⟩

theorem decoded_eq (ds : List (Slot × Except Reject Instr)) : decoded ds = ds.filterMap fun d => d.2.toOption := by
  refine List.filterMap_congr fun d _ => ?_
  rcases d with ⟨_, _ | _⟩ <;> rfl

theorem trapped_core (s : State) (f : IssueFault) : ∃ v, (trapped s f).core = { s.core with ctl := { s.core.ctl with
    verdict := v, status := .stopped, trap := some (faultRecord s f) } } ∧ (f.cause = 5 → v = .tainted) := by
  obtain ⟨v, hv⟩ := taintIf_core s (decide (f.cause = 5))
  refine ⟨v, by rw [trapped, hv]; rfl, fun hf => ?_⟩
  have hraised : (s.raise .tainted).core.ctl.verdict = v := by
    rw [State.taintIf, if_pos (decide_eq_true hf)] at hv
    rw [hv]
    rfl
  rw [← hraised]
  show s.core.ctl.verdict.worst .tainted = .tainted
  cases s.core.ctl.verdict <;> rfl

theorem trapped_frame (s : State) (f : IssueFault) : (trapped s f).tiles = s.tiles ∧ (trapped s f).clock = s.clock := by
  obtain ⟨v, hv⟩ := taintIf_core s (decide (f.cause = 5))
  rw [trapped, hv]
  exact ⟨rfl, rfl⟩

/-- A bundle with an open record or none is suppressed: of its tile only the verdict, the status and the record change. -/
theorem suppress_core (s : State) (f : IssueFault) (h : ∀ r, s.core.ctl.trap = some r → r.final = false) : ∃ v r,
    (suppress s f).core = { s.core with ctl := { s.core.ctl with verdict := v, status := .stopped, trap := some r } } ∧
      (suppress s f).tiles = s.tiles ∧ (suppress s f).clock = s.clock ∧
      (s.core.ctl.trap = none → r = faultRecord s f ∧ (f.cause = 5 → v = .tainted) ∧
        .trap ∈ ((suppress s f).gang s.core.task.gid).causes) := by
  obtain ⟨xs, hdiscard⟩ := discardConflicts_frame (takeTrap s f)
  cases htrap : s.core.ctl.trap with
  | none =>
    obtain ⟨v, hcore, hv⟩ := trapped_core s f
    obtain ⟨htiles, hclock⟩ := trapped_frame s f
    obtain ⟨hwcore, hwtiles, hwclock⟩ := writeTrapRecord_frame (trapped s f)
    refine ⟨v, _, ?_, ?_, ?_, fun _ => ⟨rfl, hv, ?_⟩⟩
    · rw [suppress, hdiscard, takeTrap_first s f htrap, ← hcore]
      exact hwcore
    · rw [suppress, hdiscard, takeTrap_first s f htrap]
      exact hwtiles.trans htiles
    · rw [suppress, hdiscard, takeTrap_first s f htrap]
      exact hwclock.trans hclock
    · rw [suppress, hdiscard, takeTrap_first s f htrap]
      exact requestHold_asked _ _ _
  | some r =>
    obtain ⟨v, hlate⟩ := takeTrap_late s f r htrap (h r htrap)
    rw [suppress, hdiscard, hlate]
    exact ⟨v, _, rfl, rfl, rfl, fun hn => by cases hn⟩

end Sys2Proof.Machine

namespace Sys2Proof.Claims

open Sys2Proof Sys2Proof.Machine

/-- Settles O55: the bundle is suppressed with the first of its causes (`firstFault_first`), and a trap leaves no more (`suppress_core`). -/
theorem suppressedBundle : Obligations.SuppressedBundle := by
  intro s ds ws fs rank hfs hstops hopen
  have hws : decoded ds = ws := decoded_eq ds
  obtain ⟨f, hf⟩ := Option.ne_none_iff_exists'.mp fun h => hfs ((firstFault_none_iff fs).mp h)
  obtain ⟨hmem, hfirst⟩ := firstFault_first hf
  have hranked : ∀ e ∈ fs, Ranked e := ranked_append (ranked_illegalWords ds) (ranked_bundleFaults _ ws)
  obtain ⟨v, r, hcore, htiles, hclock, hrecord⟩ := suppress_core s f hopen
  refine ⟨suppress s f, ?_, ?_⟩
  · rw [issueDecoded, hws]
    dsimp only
    rw [hstops, if_neg Bool.false_ne_true]
    show (match firstFault fs with | some f => Host.Outcome.next (suppress s f) | none => runBundle (takeImage s ws) ws) = _
    rw [hf]
  · rw [hcore, htiles, hclock]
    refine ⟨rfl, rfl, rfl, rfl, rfl, rfl, rfl, rfl, rfl, rfl, rfl, rfl, rfl, rfl, rfl, rfl, rfl, fun htrap => ?_⟩
    obtain ⟨rfl, hv, hcauses⟩ := hrecord htrap
    have hrank (e : IssueFault) (he : e ∈ fs) : e.order = rank e.cause := (hranked e he).1
    have hfield {α} := faultRecord_field (α := α) s f
    refine ⟨hcauses, faultRecord s f, f, rfl, hmem, hfield TrapRec.cause fun _ _ _ => rfl, hfield TrapRec.detail fun _ _ _ => rfl,
      hfield TrapRec.slot fun _ _ _ => rfl, hfield TrapRec.pc fun _ _ _ => rfl, hfield TrapRec.tcyc fun _ _ _ => rfl,
      hfield TrapRec.tclk fun _ _ _ => rfl, hfield TrapRec.bundle fun _ _ _ => rfl, hfield TrapRec.final fun _ _ _ => rfl,
      fun h5 => ?_, hrank f hmem ▸ (hranked f hmem).2, fun e he => ?_⟩
    · rw [faultRecord, if_pos h5]
      exact ⟨rfl, rfl, hv h5⟩
    · rw [← hrank f hmem, ← hrank e he]
      exact hfirst e he

end Sys2Proof.Claims
end

section
/-! PROOFS. What a source code names, and when an empty latch or an occupied slot faults (R61, R64 to R67, R76, Table 3.3). -/

namespace Sys2Proof.Machine

theorem readScalar_reg (s : State) (c : BitVec 6) (h0 : 0 < c.toNat) (h : c.toNat < 56) :
    readScalar s c = (tget 0 s.core.regs.s c.toNat, tget false s.core.regs.sPoison c.toNat) := by
  rw [readScalar, if_pos h, readS, if_neg (by omega)]

theorem readScalar_latch (s : State) (c : BitVec 6) (h : 56 ≤ c.toNat) :
    readScalar s c = ((latchOf s (c.toNat - 56)).bytes.truncate 64, (latchOf s (c.toNat - 56)).poison) := by
  rw [readScalar, if_neg (by omega)]

theorem readVector_reg (s : State) (c : BitVec 6) (h : c.toNat < 48) : readVector s c = readV s c.toNat := if_pos h

theorem readVector_fixed (s : State) (c : BitVec 6) (h : 48 ≤ c.toNat) (h' : c.toNat < 56) :
    readVector s c = (fixedRow c.toNat, false) := by
  rw [readVector, if_neg (by omega), if_pos h']

theorem readVector_latch (s : State) (c : BitVec 6) (h : 56 ≤ c.toNat) :
    readVector s c = ((latchOf s (c.toNat - 56)).bytes, (latchOf s (c.toNat - 56)).poison) := by
  rw [readVector, if_neg (by omega), if_neg (by omega)]

/-- The first 8 bytes of a latch are the scalar that it gives (R64). -/
theorem toNat_truncate_lane (x : Row) : (x.truncate 64).toNat = Claims.lane 8 x 0 := by
  simp [Claims.lane, elemAt]

/-- A result under a true predicate stands in its latch once it has landed (R64). -/
theorem latchOf_land (s : State) (n : Nat) (vec : Bool) (x : Row) (bad : Bool) :
    latchOf (landEffect s (.latch n vec true x bad)) n = { bytes := x, valid := true, vec := vec, poison := bad } :=
  tget_tset_listed _ _ _ _ fun h => Bool.noConfusion (congrArg Latch.valid h)

/-- A counting row of Table 3.3: element `j` holds `j`. -/
theorem lane_iota (w n j : Nat) (h : w * n ≤ 96) (hj : j < n) (hw : j < 2 ^ (8 * w)) :
    Claims.lane w (BitVec.ofNat 768 (ofElems w (List.range n))) j = j := by
  rw [Claims.lane, elemAt_pack _ _ _ (by simpa using h)]
  simp [List.getD_eq_getElem?_getD, hj, Nat.mod_eq_of_lt hw]

/-- A constant row of Table 3.3. -/
theorem lane_replicate (w n v j : Nat) (h : w * n ≤ 96) (hj : j < n) (hv : v < 2 ^ (8 * w)) :
    Claims.lane w (BitVec.ofNat 768 (ofElems w (List.replicate n v))) j = v := by
  rw [Claims.lane, elemAt_pack _ _ _ (by simpa using h)]
  simp [List.getD_eq_getElem?_getD, hj, Nat.mod_eq_of_lt hv]

theorem elemAt_allOnes (n j : Nat) (h : 8 * j + 8 ≤ n) : elemAt 1 (BitVec.allOnes n).toNat j = 0xFF := by
  rw [elemAt, BitVec.toNat_allOnes, show 0xFF = 2 ^ 8 - 1 from rfl]
  refine Nat.eq_of_testBit_eq fun i => ?_
  rw [Nat.testBit_mod_two_pow, Nat.testBit_div_two_pow, Nat.testBit_two_pow_sub_one, Nat.testBit_two_pow_sub_one]
  have hbit (hi : i < 8) : i + 8 * 1 * j < n := by omega
  simpa using hbit

theorem lane_zero (w j : Nat) : Claims.lane w 0 j = 0 := by
  rw [Claims.lane, elemAt, BitVec.ofNat_eq_ofNat, BitVec.toNat_ofNat, Nat.zero_mod, Nat.zero_div, Nat.zero_mod]

theorem badLatch_iff (s : State) (vec : Bool) (c : BitVec 6) : badLatch s vec c = true ↔
    56 ≤ c.toNat ∧ ((latchOf s (c.toNat - 56)).valid = false ∨ (latchOf s (c.toNat - 56)).vec ≠ vec) := by
  simp [badLatch]

theorem bundleFaults_word (s : State) (i : Instr) (f : IssueFault) (h : f ∈ wordFaults s i) : f ∈ bundleFaults s [i] := by
  simp only [bundleFaults, List.flatMap_cons, List.flatMap_nil, List.append_nil, List.mem_append]
  exact .inl (.inl (.inl (.inl h)))

/-- An empty latch, one of the other kind, or an occupied slot is a schedule fault, whatever the predicate (R61, R66). -/
theorem raises_schedule (s : State) (i : Instr) (u : Use) (hu : useOf i = some u)
    (h : u.scalars.any (badLatch s false) = true ∨ u.vectors.any (badLatch s true) = true ∨ occupied s u = true) :
    Claims.Raises s i 2 0 := by
  refine ⟨schedule u, bundleFaults_word s i _ ?_, rfl, rfl⟩
  have hbad : (occupied s u || u.scalars.any (badLatch s false) || u.vectors.any (badLatch s true)) = true := by
    rcases h with h | h | h <;> simp [h]
  rw [wordFaults, hu]
  dsimp only
  rw [hbad]
  simp [when]

end Sys2Proof.Machine

namespace Sys2Proof.Claims

open Sys2Proof Sys2Proof.Machine

/-- Settles O30, by the ranges of source codes of Table 15.1. -/
theorem operandReads : Obligations.OperandReads := by
  intro s c q r rrb n x
  have hx (h : 48 ≤ n) (h' : n < 56) : x = fixedRow n := congrArg Prod.fst (readVector_fixed s c h h')
  refine ⟨fun h => ?_, readScalar_reg s c, fun h => ?_, fun h h' => ?_, fun h h' => ?_, fun h j hj => ?_, fun h j hj => ?_,
    fun h j hj => ?_, fun h j hj => ?_, fun h j hj => ?_, fun h j hj => ?_, fun h j hj => ?_, fun h j hj => ?_, fun h => ?_, ?_,
    fun h vec y bad => ?_, fun i u hu h => ?_⟩
  · have hc : c.toNat = 0 := h
    rw [readScalar, if_pos (by omega), readS, if_pos hc]
  · rw [readVector_reg s c (by omega), readV, physV, if_pos h]
  · rw [readVector_reg s c h', readV, physV, if_neg (by omega)]
  · rw [readVector_fixed s c h h']
  · rw [hx (by omega) (by omega), h]
    exact lane_zero 1 j
  · rw [hx (by omega) (by omega), h]
    exact elemAt_allOnes 768 j (by omega)
  · rw [hx (by omega) (by omega), h]
    exact lane_iota 1 96 j (by omega) hj (by omega)
  · rw [hx (by omega) (by omega), h]
    exact lane_iota 2 48 j (by omega) hj (by omega)
  · rw [hx (by omega) (by omega), h]
    exact lane_iota 4 24 j (by omega) hj (by omega)
  · rw [hx (by omega) (by omega), h]
    exact lane_replicate 8 12 _ j (by omega) hj (by decide)
  · rw [hx (by omega) (by omega), h]
    exact lane_replicate 4 24 _ j (by omega) hj (by decide)
  · rw [hx (by omega) (by omega), h]
    exact lane_replicate 2 48 _ j (by omega) hj (by decide)
  · rw [readScalar_latch s c h, readVector_latch s c h]
    exact ⟨toNat_truncate_lane _, rfl, rfl⟩
  · rfl
  · have hland := latchOf_land s (n - 56) vec y bad
    intro t
    rw [readScalar_latch t c h, readVector_latch t c h]
    have ht : latchOf t (c.toNat - 56) = _ := hland
    rw [ht]
    refine ⟨toNat_truncate_lane _, rfl, rfl, congrArg Latch.valid hland, congrArg Latch.vec hland⟩
  · refine raises_schedule s i u hu ?_
    simp only [List.any_eq_true, badLatch_iff, occupied, decide_eq_true_eq]
    exact h

end Sys2Proof.Claims
end

section
/-! PROOFS. One step of the machine: what it takes, the fetch, the parity that a bundle's sources meet, and the run of its words (R55, R56, R79,
R283, R295; log entry 2). -/

namespace Sys2Proof.Machine

/-! ### Register files in canonical form -/

/-- The register files are in canonical form, each by its name. -/
structure TablesWf (r : Regs) : Prop where
  s : twf 0 r.s = true
  sPoison : twf false r.sPoison = true
  sBad : twf false r.sBad = true
  p : twf false r.p = true
  v : twf 0 r.v = true
  vPoison : twf false r.vPoison = true
  vBad : twf false r.vBad = true
  latches : twf {} r.latches = true
  acc : twf 0 r.acc = true
  accPoison : twf false r.accPoison = true
  accMark : twf .good r.accMark = true
  m : twf 0 r.m = true
  mPoison : twf false r.mPoison = true
  mBad : twf false r.mBad = true
  q : twf {} r.q = true
  mks : twf 0x00400060#32 r.mks = true

theorem tablesWf_of_regsWf (r : Regs) (h : Safety.regsWf r = true) : TablesWf r := by
  simp only [Safety.regsWf, Bool.and_eq_true] at h
  obtain ⟨⟨⟨⟨⟨⟨⟨⟨⟨⟨⟨⟨⟨⟨⟨⟨h1, h2⟩, h3⟩, h4⟩, h5⟩, h6⟩, h7⟩, h8⟩, h9⟩, h10⟩, h11⟩, h12⟩, h13⟩, h14⟩, h15⟩, -⟩, h16⟩ := h
  exact ⟨h1, h2, h3, h4, h5, h6, h7, h8, h9, h10, h11, h12, h13, h14, h15, h16⟩

theorem tablesWf_of_tileWf (t : Tile) (h : Safety.tileWf t = true) : TablesWf t.regs := by
  simp only [Safety.tileWf, Bool.and_eq_true] at h
  obtain ⟨⟨⟨⟨⟨⟨⟨-, hregs⟩, -⟩, -⟩, -⟩, -⟩, -⟩, -⟩ := h
  exact tablesWf_of_regsWf t.regs hregs

/-- The register files of a tile that is checked out. -/
theorem tablesWf_select (s : State) (n : Nat) (h : Safety.wf s = true) : TablesWf (s.select n).core.regs := by
  rw [select_core s n (tiles_of_wf s h)]
  exact tablesWf_of_tileWf _ (wf_tile s n h)

theorem tablesWf_of_wf (s : State) (h : Safety.wf s = true) : TablesWf s.core.regs := by
  have hregs := tablesWf_select s s.cur h
  rw [State.select, if_pos rfl] at hregs
  exact hregs

/-! ### What the step takes -/

theorem popAgenda_later (clock : Nat) (xs : List (Nat × Instr)) (h : ∀ e ∈ xs, clock < e.1) : popAgenda clock xs = none := by
  induction xs with
  | nil => rfl
  | cons x xs ih =>
    have hx := h x List.mem_cons_self
    rw [popAgenda, if_neg (by omega), ih fun e he => h e (List.mem_cons_of_mem x he)]
    rfl

theorem instantDue_iff (s : State) : instantDue s = true ↔
    booting s = false ∧ ∃ q ∈ s.jobs, ∃ d t p, q.2.cut = some (.running d t p) ∧ t ≤ s.clock := by
  unfold instantDue
  rw [Bool.and_eq_true, Bool.not_eq_true', List.any_eq_true]
  refine and_congr_right fun _ => exists_congr fun q => and_congr_right fun _ => ?_
  cases hcut : q.2.cut with
  | none => simp
  | some c => cases c <;> simp

/-- With no entry of the agenda due, a step is an event, a bundle or the next clock cycle. -/
theorem step_advance (s : State) (h : ∀ e ∈ s.agenda, s.clock < e.1) : step s = advance s := by
  unfold step stepState
  split
  · rfl
  · rw [popAgenda_later s.clock s.agenda h]

theorem advance_instant (s : State) (j : Instr) (h : instantDue s = true) (hj : dueEvent s = some j) : step s = exec j s := by
  rw [step, stepState, if_pos h, advance, ((instantDue_iff s).mp h).1, hj]
  rfl

theorem advance_event (s : State) (i : Instr) (hb : booting s = false) (hi : dueEvent s = some i) : advance s = exec i s := by
  rw [advance, hb, hi]
  rfl

theorem advance_tick (s : State) (hb : booting s = false) (he : dueEvent s = none) (hn : nextTile s = none) : advance s = .next (tick s) := by
  rw [advance, hb, he, hn]
  rfl

theorem advance_bundle (s : State) (n : Nat) (hb : booting s = false) (he : dueEvent s = none) (hn : nextTile s = some n) :
    advance s = issueBundle (openTurn s n) := by
  rw [advance, hb, he, hn]
  rfl

/-- A clock cycle with no throttle, no droop and no stretch of the fabric has its nominal length (R307). -/
theorem stretchOf_none (s : State) (c : Nat) (ht : s.platform.throttle = 0) (hd : s.platform.droops = [])
    (hs : s.fabric.stretchAt ≠ c + 1) : stretchOf s c = 0 := by
  simp [stretchOf, ht, hd, hs]

/-! ### The fetch -/

theorem fetch_beyond (s : State) (h : 3072 ≤ s.core.ctl.pc) : fetch s = ((some 1, 0), s) := if_pos h

section
variable (s : State) (h : s.core.ctl.pc < 3072) (hold : ∀ e ∈ s.core.isram.unseen, e.1 ≠ s.core.ctl.pc)
include h hold

/-- With no old bundle to be seen at PC, the fetch finds what instruction SRAM holds (R283). -/
theorem fetch_held (hm : tget .good s.core.isram.marks s.core.ctl.pc ≠ .correctable) : fetch s =
    match s.core.isram.held s.core.ctl.pc with
    | none => ((some 2, BitVec.ofNat 256 s.takeFree.1), s.takeFree.2)
    | some b => ((none, b), s) := by
  have holds : (s.core.isram.unseen.filter fun x => x.1 == s.core.ctl.pc) = [] :=
    List.filter_eq_nil_iff.mpr fun e he => by simpa using hold e he
  have hmark : (tget .good s.core.isram.marks s.core.ctl.pc == Mark.correctable) = false := beq_eq_false_iff_ne.mpr hm
  rw [fetch, if_neg (by show ¬ 3072 ≤ _; omega)]
  dsimp only
  rw [holds, hmark]
  rfl

theorem fetch_good (hm : tget .good s.core.isram.marks s.core.ctl.pc = .good) :
    fetch s = ((none, tget 0 s.core.isram.bundles s.core.ctl.pc), s) := by
  rw [fetch_held s h hold (by rw [hm]; exact Mark.noConfusion), Isram.held, hm]

theorem fetch_lost (hm : tget .good s.core.isram.marks s.core.ctl.pc = .uncorrectable) :
    fetch s = ((some 2, BitVec.ofNat 256 s.takeFree.1), s.takeFree.2) := by
  rw [fetch_held s h hold (by rw [hm]; exact Mark.noConfusion), Isram.held, hm]

end

/-! ### The parity that the sources of a bundle meet (R295) -/

theorem tget_metParity (bad : Table Bool) (ns : List Nat) (k : Nat) (hw : twf false bad = true) :
    tget false (metParity bad ns) k = (tget false bad k && !decide (k ∈ ns)) := by
  induction ns generalizing bad with
  | nil => simp [metParity]
  | cons n ns ih =>
    rw [metParity, List.foldl_cons, ← metParity, ih _ (twf_tset _ _ _ _ hw), tget_tset _ _ _ _ _ hw]
    by_cases hk : k = n <;> simp [hk]

theorem twf_metParity (bad : Table Bool) (ns : List Nat) (hw : twf false bad = true) : twf false (metParity bad ns) = true := by
  induction ns generalizing bad with
  | nil => exact hw
  | cons n ns ih => exact ih _ (twf_tset _ _ _ _ hw)

theorem tget_meetParity (bad poison : Table Bool) (ns : List Nat) (k : Nat) :
    tget false (meetParity bad poison ns) k = (tget false poison k || (tget false bad k && decide (k ∈ ns))) := by
  induction ns generalizing poison with
  | nil => simp [meetParity]
  | cons n ns ih =>
    rw [meetParity, List.foldl_cons, ← meetParity, ih]
    by_cases hk : k = n
    · subst hk
      cases hbad : tget false bad k with
      | false => simp
      | true => simp [tget_tset_listed]
    · split
      · rw [tget_tset_ne _ _ _ _ _ hk]
        simp [hk]
      · simp [hk]

theorem meetParity_none (poison : Table Bool) (ns : List Nat) : meetParity [] poison ns = poison := by
  induction ns with
  | nil => rfl
  | cons n ns ih => exact ih

theorem metParity_none (ns : List Nat) : metParity [] ns = [] := by
  induction ns with
  | nil => rfl
  | cons n ns ih => exact ih

/-- Reading sources changes the tags and the parity marks of registers alone. -/
def ParityMet (s t : State) : Prop := t = { s with core := { s.core with regs := { s.core.regs with
  sPoison := t.core.regs.sPoison, sBad := t.core.regs.sBad, vPoison := t.core.regs.vPoison, vBad := t.core.regs.vBad,
  mPoison := t.core.regs.mPoison, mBad := t.core.regs.mBad } } }

theorem parityMet_readSources (s : State) (i : Instr) : ParityMet s (readSources s i) := by
  unfold readSources
  split
  · rfl
  · split
    · rfl
    · rfl

theorem ParityMet.trans {s t u : State} (a : ParityMet s t) (b : ParityMet t u) : ParityMet s u := by
  unfold ParityMet at *
  rw [b, a]

theorem parityMet_readBundle (s : State) (ws : List Instr) : ParityMet s (readBundle s ws) := by
  induction ws generalizing s with
  | nil => rfl
  | cons i ws ih => exact (parityMet_readSources s i).trans (ih _)

theorem ParityMet.readPred {s t : State} (h : ParityMet s t) (p : BitVec 3) : readPred t p = readPred s p := by
  rw [h]
  rfl

theorem parity_clean (r : Regs) (ss vs ms : List Nat) (hs : r.sBad = []) (hv : r.vBad = []) (hm : r.mBad = []) :
    { r with
      sPoison := meetParity r.sBad r.sPoison ss, sBad := metParity r.sBad ss, vPoison := meetParity r.vBad r.vPoison vs,
      vBad := metParity r.vBad vs, mPoison := meetParity r.mBad r.mPoison ms, mBad := metParity r.mBad ms } = r := by
  obtain ⟨⟩ := r
  dsimp only at hs hv hm
  simp only [hs, hv, hm, meetParity_none, metParity_none]

theorem ParityMet.ctl {s t : State} (h : ParityMet s t) : t.core.ctl = s.core.ctl := by
  rw [h]

/-- Where no parity fails, reading changes nothing. -/
theorem readSources_clean (s : State) (i : Instr) (hs : s.core.regs.sBad = []) (hv : s.core.regs.vBad = [])
    (hm : s.core.regs.mBad = []) : readSources s i = s := by
  unfold readSources
  split
  · rfl
  · split
    · exact congrArg (fun r => s.mapRegs fun _ => r) (parity_clean s.core.regs _ _ _ hs hv hm)
    · rfl

theorem readBundle_clean (s : State) (ws : List Instr) (hs : s.core.regs.sBad = []) (hv : s.core.regs.vBad = [])
    (hm : s.core.regs.mBad = []) : readBundle s ws = s := by
  induction ws with
  | nil => rfl
  | cons i ws ih => rw [readBundle, List.foldl_cons, readSources_clean s i hs hv hm]; exact ih

/-- The scalar registers that a word reads at issue. -/
def scalarsRead (i : Instr) (u : Use) : List Nat := ((u.scalars ++ alsoReadsScalar i).map BitVec.toNat).filter fun n => decide (n < 56)

/-- The scalar registers that a word reads under its predicate. -/
def scalarsMet (s : State) (i : Instr) : List Nat :=
  match useOf i with
  | none => []
  | some u => if readPred s u.pr then scalarsRead i u else []

theorem readSources_scalars (s : State) (i : Instr) :
    (readSources s i).core.regs.sBad = metParity s.core.regs.sBad (scalarsMet s i) ∧
      (readSources s i).core.regs.sPoison = meetParity s.core.regs.sBad s.core.regs.sPoison (scalarsMet s i) := by
  rw [readSources, scalarsMet]
  cases useOf i with
  | none => exact ⟨rfl, rfl⟩
  | some u =>
    dsimp only
    cases Machine.readPred s u.pr with
    | false => exact ⟨rfl, rfl⟩
    | true => exact ⟨rfl, rfl⟩

theorem scalarsMet_readSources (s : State) (i j : Instr) : scalarsMet (readSources s i) j = scalarsMet s j := by
  unfold scalarsMet
  split
  · rfl
  · rw [(parityMet_readSources s i).readPred]

/-- The parity of a scalar register after its bundle has read its sources: it fails no more where a word reads the register, and is
a tag there. -/
theorem readBundle_scalars (s : State) (ws : List Instr) (k : Nat) (hw : twf false s.core.regs.sBad = true) :
    tget false (readBundle s ws).core.regs.sBad k = (tget false s.core.regs.sBad k && !ws.any fun i => decide (k ∈ scalarsMet s i)) ∧
      tget false (readBundle s ws).core.regs.sPoison k =
        (tget false s.core.regs.sPoison k || (tget false s.core.regs.sBad k && ws.any fun i => decide (k ∈ scalarsMet s i))) := by
  induction ws generalizing s with
  | nil => simp [readBundle]
  | cons i ws ih =>
    obtain ⟨hbad, hpoison⟩ := readSources_scalars s i
    obtain ⟨h1, h2⟩ := ih (readSources s i) (by rw [hbad]; exact twf_metParity _ _ hw)
    rw [readBundle, List.foldl_cons, ← readBundle, h1, h2, hbad, hpoison, tget_metParity _ _ _ hw, tget_meetParity]
    simp only [scalarsMet_readSources, List.any_cons]
    generalize tget false s.core.regs.sBad k = bad
    generalize tget false s.core.regs.sPoison k = tagged
    generalize decide (k ∈ scalarsMet s i) = here
    generalize (ws.any fun i => decide (k ∈ scalarsMet s i)) = later
    revert bad tagged here later
    decide

/-! ### The run of a bundle's words -/

/-- A NOP changes nothing. -/
theorem runWords_filter (ws : List Instr) (s : State) : runWords ws s = runWords (ws.filter fun j => j != .nop) s := by
  induction ws generalizing s with
  | nil => rfl
  | cons i ws ih =>
    by_cases hi : i = .nop
    · subst hi
      exact ih s
    · rw [List.filter_cons_of_pos (by simpa using hi), runWords, runWords]
      cases exec i s with
      | next t => exact ih t
      | fault f => rfl
      | refused r => rfl

theorem runWords_one (i : Instr) (s t : State) (h : exec i s = .next t) : runWords [i] s = .next t := by
  rw [runWords, h]
  rfl

/-- The route image that a bundle takes leaves the registers and the control state (R213, R244). -/
theorem takeImage_frame (s : State) (ws : List Instr) : (takeImage s ws).core.regs = s.core.regs ∧
    (takeImage s ws).core.ctl = s.core.ctl := by
  induction ws with
  | nil => exact ⟨rfl, rfl⟩
  | cons i ws ih =>
    unfold takeImage
    split
    · exact ⟨rfl, rfl⟩
    · next c p is heq =>
      obtain ⟨rfl, rfl⟩ := List.cons.inj heq
      split
      · obtain ⟨k, xs, ps, h⟩ := readUnits_frame s (unitsOf (stageBase s c 0 512) 512)
        dsimp only [readImage]
        rw [h]
        exact ⟨rfl, rfl⟩
      · exact ih
    · next heq =>
      obtain ⟨-, rfl⟩ := List.cons.inj heq
      exact ih

theorem takeImage_none (s : State) (ws : List Instr) (h : ∀ a p, .croute a p ∉ ws) : takeImage s ws = s := by
  induction ws with
  | nil => rfl
  | cons i ws ih =>
    unfold takeImage
    split
    · rfl
    · next c p is heq =>
      obtain ⟨rfl, rfl⟩ := List.cons.inj heq
      exact absurd List.mem_cons_self (h c p)
    · next heq =>
      obtain ⟨-, rfl⟩ := List.cons.inj heq
      exact ih fun a p hm => h a p (List.mem_cons_of_mem _ hm)

theorem illegalWords_none (ds : List (Slot × Except Reject Instr)) (h : ∀ d ∈ ds, d.2.toOption ≠ none) : illegalWords ds = [] := by
  refine List.filterMap_eq_nil_iff.mpr fun d hd => ?_
  have hok := h d hd
  rcases d with ⟨_, _ | _⟩
  · exact absurd rfl hok
  · rfl

/-- A bundle whose words all decode and pass their checks runs (R81). -/
theorem issueDecoded_runs (s : State) (ds : List (Slot × Except Reject Instr)) (hok : ∀ d ∈ ds, d.2.toOption ≠ none)
    (hfaults : bundleFaults (takeImage s (decoded ds)) (decoded ds) = []) (hstops : stopsHere s (decoded ds) = false) :
    issueDecoded s ds = runBundle (takeImage s (decoded ds)) (decoded ds) := by
  rw [issueDecoded]
  dsimp only
  rw [hstops, if_neg Bool.false_ne_true, illegalWords_none ds hok, hfaults]
  rfl

theorem runBundle_next (s t : State) (ws : List Instr) (h : runWords ws (openBundle (readBundle s ws)) = .next t) :
    runBundle s ws = .next (closeBundle t) := by
  rw [runBundle, h]

theorem openBundle_eq (w : State) (pc : Nat) (h : w.core.ctl.pc = pc) :
    openBundle w = { w.mapCtl (fun c => { c with npc := pc + 1 }) with vetted := true } := by
  subst h
  rfl

/-- The all-zero bundle is eight NOPs. -/
theorem decoded_zero : (decoded (decodeBundle 0)).filter (fun j => j != .nop) = [] := by decide

theorem bundleCrc_zero : bundleCrc 0 = 0x8A9136AA#32 := by decide +kernel

/-- An illegal instruction found at the fetch: the tile of the fetch stops with the record of R81 and R284. -/
theorem suppress_fetch (x : State) (now k d : Nat) (b : Bundle) (hnow : x.clock = now)
    (h : ∀ r, x.core.ctl.trap = some r → r.final = false) :
    let t := suppress (({ x with fresh := k } : State).mapCtl fun c => { c with ir := b }) { order := 1, cause := 1, detail := d, slot := 15 }
    let c := x.core.ctl
    t.core.regs = x.core.regs ∧ t.core.results = x.core.results ∧ t.core.staging = x.core.staging ∧ t.core.vault = x.core.vault ∧
      t.core.isram = x.core.isram ∧ t.core.barge = x.core.barge ∧ t.core.ctl.status = .stopped ∧ t.core.ctl.pc = c.pc ∧
      t.core.ctl.cyc = c.cyc ∧ t.core.ctl.sgsc = c.sgsc ∧ t.core.ctl.sgsh = c.sgsh ∧ t.clock = now ∧
      (c.trap = none → .trap ∈ (t.gang x.core.task.gid).causes ∧ ∃ r, t.core.ctl.trap = some r ∧ r.cause = 1 ∧ r.detail = d ∧
        r.slot = 15 ∧ r.pc = c.pc ∧ r.npc = c.pc ∧ r.tcyc = c.cyc ∧ r.tclk = now ∧ r.final = true) := by
  intro t c
  obtain ⟨v, r, hcore, -, hclock, hrecord⟩ := suppress_core
    (({ x with fresh := k } : State).mapCtl fun c => { c with ir := b }) { order := 1, cause := 1, detail := d, slot := 15 } h
  rw [show t.core = _ from hcore, show t.clock = _ from hclock]
  refine ⟨rfl, rfl, rfl, rfl, rfl, rfl, rfl, rfl, rfl, rfl, rfl, hnow, fun htrap => ?_⟩
  obtain ⟨rfl, -, hcauses⟩ := hrecord htrap
  exact ⟨hcauses, _, rfl, rfl, rfl, rfl, rfl, rfl, rfl, hnow, rfl⟩

end Sys2Proof.Machine

namespace Sys2Proof.Claims

open Sys2Proof Sys2Proof.Machine

/-- Settles O53, clause by clause: what the step takes, the fetch, and the run of the bundle that it brings. -/
theorem stepRunsBundle : Obligations.StepRunsBundle := by
  intro s hw hagenda instant
  have hstep : step s = advance s := step_advance s hagenda
  refine ⟨fun hb => ?_, fun i hb hi => ?_, fun hb he hn => ?_, fun i rest hi => ?_, fun a j hi hj => ?_, fun n hb he hn => ?_,
    fun n hb he hn => ?_⟩
  · rw [hstep, advance, if_pos hb]
  · rw [hstep, advance_event s i hb hi]
  · refine ⟨tick s, hstep.trans (advance_tick s hb he hn), rfl, rfl, rfl, rfl, rfl, rfl, rfl, rfl, fun ht hd hs => ?_⟩
    have hlength := stretchOf_none s s.clock ht hd hs
    simp [tick, hlength, cycleHalves]
  · have hnot : instantDue { s with agenda := (s.clock, i) :: rest } = false :=
      Bool.eq_false_iff.mpr fun h => hi ((instantDue_iff _).mp h)
    rw [step, stepState, hnot, if_neg Bool.false_ne_true]
    dsimp only
    rw [popAgenda, if_pos (Nat.le_refl _)]
  · exact advance_instant _ j ((instantDue_iff _).mpr hi) hj
  · intro x c faults
    have hissue : step s = issueBundle x := hstep.trans (advance_bundle s n hb he hn)
    have hxclock : x.clock = s.clock := (select_frame s n).1
    have hfetch (d k : Nat) (b : Bundle) (hf : fetch x = ((some d, b), { x with fresh := k })) : faults d := by
      intro hopen
      refine ⟨_, ?_, suppress_fetch x s.clock k d b hxclock hopen⟩
      rw [hissue, issueBundle, hf]
    exact ⟨fun h => hfetch 1 x.fresh 0 (fetch_beyond x h), fun h hm hold => hfetch 2 (x.fresh + 1) _ (fetch_lost x h hold hm)⟩
  · intro x pc b y0 ws y w z ends hpc hgood hold hok hfaults hstops
    have hws : decoded (decodeBundle b) = ws := decoded_eq _
    have hrun : step s = runBundle y ws := by
      rw [hstep, advance_bundle s n hb he hn]
      show issueBundle x = _
      rw [issueBundle, fetch_good x hpc hold hgood]
      have := issueDecoded_runs y0 (decodeBundle b) hok (by rw [hws]; exact hfaults) (by rw [hws]; exact hstops)
      rw [hws] at this
      exact this
    obtain ⟨hregs, hctl⟩ := takeImage_frame y0 ws
    have hmet : ParityMet y w := parityMet_readBundle y ws
    have hopened : openBundle (readBundle y ws) = z :=
      openBundle_eq _ _ (by rw [hmet.ctl, hctl]; rfl)
    have hends (t : State) (ht : runWords ws z = .next t) : step s = .next (ends t) :=
      hrun.trans (runBundle_next y t ws (by rw [hopened]; exact ht))
    refine ⟨takeImage_none y0 ws, hends, fun i t hone ht => hends t ?_, fun h0 => ⟨hends z ?_, ?_⟩, readBundle_clean y ws,
      ⟨w.core.regs, hmet⟩, fun i hi u c hu hp hc hlt => ?_⟩
    · rw [runWords_filter, hone]
      exact runWords_one i z t ht
    · rw [runWords_filter, ← hws, h0, decoded_zero]
      rfl
    · rw [h0]
      exact bundleCrc_zero
    · have hbad : twf false y.core.regs.sBad = true := by
        rw [hregs]
        exact (tablesWf_select s n hw).sBad
      obtain ⟨hcleared, htagged⟩ := readBundle_scalars y ws c.toNat hbad
      have hread : (ws.any fun i => decide (c.toNat ∈ scalarsMet y i)) = true := by
        refine List.any_eq_true.mpr ⟨i, hi, decide_eq_true ?_⟩
        have halso : c ∈ u.scalars ++ alsoReadsScalar i := by
          obtain h | ⟨l, p, rfl⟩ := hc
          · exact List.mem_append_left _ h
          · exact List.mem_append_right _ (List.mem_singleton_self c)
        rw [scalarsMet, hu]
        dsimp only
        rw [if_pos hp, scalarsRead, List.mem_filter]
        exact ⟨List.mem_map_of_mem halso, decide_eq_true hlt⟩
      rw [hcleared, htagged, hread]
      exact ⟨Bool.and_false _, fun h => by rw [h]; exact Bool.or_true _⟩

end Sys2Proof.Claims
end

section
/-! PROOFS. What a result leaves as it lands: the frame of each effect, and one rule for each register file (R58, R62, R64, R73, R74, R295). -/

namespace Sys2Proof.Machine

/-! ### The frame of a core store -/

theorem correctIf_core (s : State) (b : Bool) : ∃ v, s.correctIf b = s.mapCtl fun c => { c with verdict := v } := by
  cases b with
  | false => exact ⟨s.core.ctl.verdict, rfl⟩
  | true => exact ⟨s.core.ctl.verdict.worst .corrected, rfl⟩

theorem spoilUnits_frame (us : List Nat) (s : State) : ∃ k xs, spoilUnits us s =
    ({ s with fresh := k } : State).mapStaging fun t => { t with cells := xs } := by
  induction us generalizing s with
  | nil => exact ⟨s.fresh, s.core.staging.cells, rfl⟩
  | cons u us ih =>
    obtain ⟨k, xs, h⟩ := ih (s.takeFree.2.mapStaging fun t =>
      { t with cells := tsetList 0 id (8 * u) (bytesOf 8 s.takeFree.1) t.cells })
    exact ⟨k, xs, h⟩

theorem settleStore_frame (old : Staging) (r : State × List Nat) (u : Nat) : ∃ k g b, (settleStore old r u).1 =
    { r.1 with fresh := k, core := { r.1.core with staging := g, barge := b } } := by
  obtain ⟨k, hk⟩ := chooseAmong_frame r.1 (storePlaces r.1 u) (List.range (storePlaces r.1 u))
  unfold settleStore
  dsimp only
  split
  · rw [hk]
    exact ⟨k, _, _, rfl⟩
  · rw [hk]
    exact ⟨k, _, _, rfl⟩

theorem foldl_settleStore_frame (old : Staging) (us : List Nat) (r : State × List Nat) : ∃ k g b, (us.foldl (settleStore old) r).1 =
    { r.1 with fresh := k, core := { r.1.core with staging := g, barge := b } } := by
  induction us generalizing r with
  | nil => exact ⟨r.1.fresh, r.1.core.staging, r.1.core.barge, rfl⟩
  | cons u us ih =>
    obtain ⟨k, g, b, h⟩ := settleStore_frame old r u
    obtain ⟨k', g', b', h'⟩ := ih (settleStore old r u)
    refine ⟨k', g', b', ?_⟩
    rw [List.foldl_cons, h', h]

/-- A store changes staging, what the barge's commands may still read, the verdict, and the free values used (R177, R213). -/
theorem coreStore_frame (s : State) (a : Nat) (bs : List Byte) (p : Bool) : ∃ k v g b, coreStore s a bs p =
    { s with fresh := k, core := { s.core with staging := g, barge := b, ctl := { s.core.ctl with verdict := v } } } := by
  obtain ⟨v, hv⟩ := correctIf_core s (s.core.staging.mends a bs.length)
  obtain ⟨k, xs, hk⟩ := spoilUnits_frame ((unitsOf a bs.length).filter fun u => tget .good s.core.staging.marks u == .uncorrectable)
    (s.mapCtl fun c => { c with verdict := v })
  have hspoil : spoilRange (s.mapCtl fun c => { c with verdict := v }) a bs.length = _ := hk
  unfold coreStore
  dsimp only
  rw [hv, hspoil]
  generalize hr : List.foldl _ _ (unitsOf a bs.length) = r
  obtain ⟨k', g, b, h⟩ := foldl_settleStore_frame _ (unitsOf a bs.length) _
  rw [hr] at h
  rw [h]
  exact ⟨k', v, _, b, rfl⟩

/-! ### The frame of a beat and of a special register -/

/-- The accumulator files of `r'` are those of `r` but for row `n`. -/
def RowOnly (n : Nat) (r r' : Regs) : Prop :=
  r' = { r with acc := r'.acc, accPoison := r'.accPoison, accMark := r'.accMark } ∧ ∀ k, n ≠ k → tget 0 r'.acc k = tget 0 r.acc k ∧
    tget false r'.accPoison k = tget false r.accPoison k ∧ tget .good r'.accMark k = tget .good r.accMark k

theorem RowOnly.refl (n : Nat) (r : Regs) : RowOnly n r r := ⟨rfl, fun _ _ => ⟨rfl, rfl, rfl⟩⟩

theorem RowOnly.trans {n : Nat} {r r' r'' : Regs} (a : RowOnly n r r') (b : RowOnly n r' r'') : RowOnly n r r'' := by
  obtain ⟨ha, ka⟩ := a
  obtain ⟨hb, kb⟩ := b
  refine ⟨by rw [hb, ha], fun k hk => ?_⟩
  obtain ⟨a1, a2, a3⟩ := ka k hk
  obtain ⟨b1, b2, b3⟩ := kb k hk
  exact ⟨b1.trans a1, b2.trans a2, b3.trans a3⟩

theorem rowOnly_poison (r : Regs) (n : Nat) (p : Bool) : RowOnly n r { r with accPoison := tset false r.accPoison n p } :=
  ⟨rfl, fun _ hk => ⟨rfl, tget_tset_ne _ _ _ _ _ hk.symm, rfl⟩⟩

theorem rowOnly_setAcc (r : Regs) (n : Nat) (x : AccRow) (p : Bool) : RowOnly n r (setAcc r n x p) :=
  ⟨rfl, fun _ hk => ⟨tget_tset_ne _ _ _ _ _ hk.symm, tget_tset_ne _ _ _ _ _ hk.symm, rfl⟩⟩

theorem rowOnly_renewAcc (r : Regs) (n : Nat) : RowOnly n r (renewAcc r n) :=
  ⟨rfl, fun _ hk => ⟨rfl, rfl, tget_tset_ne .good r.accMark n _ .good hk.symm⟩⟩

/-- A state change that touches accumulator row `n`, the verdict and the flags alone. -/
def BeatOnly (n : Nat) (s t : State) : Prop := ∃ v f r, t = (s.mapCtl fun c => { c with verdict := v, fflg := f }).mapRegs (fun _ => r) ∧
  RowOnly n s.core.regs r

theorem BeatOnly.trans {n : Nat} {s t u : State} (a : BeatOnly n s t) (b : BeatOnly n t u) : BeatOnly n s u := by
  obtain ⟨v, f, r, rfl, hr⟩ := a
  obtain ⟨v', f', r', rfl, hr'⟩ := b
  exact ⟨v', f', r', rfl, hr.trans hr'⟩

theorem beatOnly_regs (n : Nat) (s : State) (f : Regs → Regs) (h : ∀ r, RowOnly n r (f r)) : BeatOnly n s (s.mapRegs f) :=
  ⟨s.core.ctl.verdict, s.core.ctl.fflg, f s.core.regs, rfl, h _⟩

theorem beatOnly_meetAcc (n : Nat) (s : State) : BeatOnly n s (meetAcc s n) := by
  unfold meetAcc
  split
  · exact ⟨s.core.ctl.verdict, s.core.ctl.fflg, s.core.regs, rfl, .refl n _⟩
  · exact ⟨s.core.ctl.verdict.worst .corrected, s.core.ctl.fflg, s.core.regs, rfl, .refl n _⟩
  · exact beatOnly_regs n s _ fun r => rowOnly_poison r n true
  · exact beatOnly_regs n s _ fun r => rowOnly_poison r n true

theorem BeatOnly.ite {n : Nat} {p : Prop} [Decidable p] {s t u : State} (ht : BeatOnly n s t) (hu : BeatOnly n s u) :
    BeatOnly n s (if p then t else u) := by
  split
  · exact ht
  · exact hu

theorem BeatOnly.refl (n : Nat) (s : State) : BeatOnly n s s := beatOnly_regs n s (fun r => r) (RowOnly.refl n)

theorem beatOnly_setFlags (n : Nat) (s : State) (f : Flags) : BeatOnly n s (setFlags s f) :=
  ⟨s.core.ctl.verdict, s.core.ctl.fflg ||| f, s.core.regs, rfl, .refl n _⟩

/-- A beat touches its accumulator row alone (R119, R120). -/
theorem beatOnly_landBeat (s : State) (b : Beat) : BeatOnly b.row s (landBeat s b) := by
  have hmeet : BeatOnly b.row s (if b.reads then meetAcc s b.row else s) := .ite (beatOnly_meetAcc _ s) (.refl _ s)
  have hput (t : State) (x : AccRow) (p : Bool) : BeatOnly b.row t (t.mapRegs fun r =>
      if b.cols = 0 then { r with accPoison := tset false r.accPoison b.row p } else setAcc r b.row x p) :=
    beatOnly_regs _ t _ fun r => by
      split
      · exact rowOnly_poison r _ p
      · exact rowOnly_setAcc r _ x p
  unfold landBeat
  exact ((hmeet.trans (hput _ _ _)).trans (.ite (beatOnly_regs _ _ _ fun r => rowOnly_renewAcc r _) (.refl _ _))).trans
    (beatOnly_setFlags _ _ _)

/-- The control state after a write of special register `n` (Table 3.5, R387, R410, R372). -/
def specialCtl (c : Ctl) (n : Nat) (x : Scalar) : Ctl :=
  { c with
    lc := if n = 0x08 then x.truncate 32 else c.lc, rrb := if n = 0x09 then x.truncate 4 else c.rrb,
    awb := if n = 0x0A then x.truncate 11 else c.awb, fflg := if n = 0x10 then c.fflg &&& ~~~(x.truncate 6) else c.fflg,
    inseg := if n = 0x100 then false else c.inseg, status := if n = 0x102 then .ended else c.status }

/-- The task after a write of special register `n`: the mark of `TRIG` is 0x101 (R427). -/
def specialTask (t : Tile) (n : Nat) : Task :=
  if n = 0x101 then if t.task.trig then t.task else { t.task with trig := true, trigBound := t.barge.nextId } else t.task

/-- The mask pairs after a write of special register `n`. -/
def specialMasks (r : Regs) (n : Nat) (x : Scalar) : Table (BitVec 32) :=
  if n ∈ [0x08, 0x09, 0x0A, 0x10, 0x100, 0x101, 0x102] then r.mks
  else tset 0x00400060#32 r.mks (n - 0x20) (x.truncate 32 &&& 0x007F007F#32)

/-- A special result writes the register that its number names, and nothing else. -/
theorem landSpecial_eq (s : State) (n : Nat) (x : Scalar) : landSpecial s n x =
    (((s.mapCtl fun c => specialCtl c n x).mapTask fun _ => specialTask s.core n).mapRegs fun r =>
      { r with mks := specialMasks r n x }) := by
  by_cases hn : n ∈ [0x08, 0x09, 0x0A, 0x10, 0x100, 0x101, 0x102]
  · simp only [List.mem_cons, List.not_mem_nil, or_false] at hn
    rcases hn with rfl | rfl | rfl | rfl | rfl | rfl | rfl
    case inr.inr.inr.inr.inr.inl =>
      rw [landSpecial, specialTask]
      cases s.core.task.trig with
      | false => rfl
      | true => rfl
    all_goals rfl
  · have hmasks (r : Regs) : specialMasks r n x = _ := if_neg hn
    simp only [List.mem_cons, List.not_mem_nil, or_false, not_or] at hn
    obtain ⟨h8, h9, hA, h10, h100, h101, h102⟩ := hn
    simp only [landSpecial, specialCtl, specialTask, h8, h9, hA, h10, h100, h101, h102, if_false, hmasks]
    rfl

/-- Clearing a row writes it, its tag and its mark. The row is named apart, so that no unfolding meets its 2,048 bits. -/
theorem landEffect_zeroRow_eq (s : State) (n : Nat) : ∃ x : AccRow, x = 0 ∧
    landEffect s (.zeroRow n) = s.mapRegs fun r => renewAcc (setAcc r n x false) n := ⟨0, rfl, rfl⟩

/-- An effect that writes no register file but the accumulators and the mask pairs. -/
def Effect.writesFew : Effect → Bool
  | .flags _ | .beat _ | .zeroRow _ | .store _ _ _ | .special _ _ => true
  | _ => false

/-- Such an effect leaves every other register file. -/
theorem landEffect_keeps {α : Type} (f : Regs → α) (hf : ∀ (r : Regs) x p m k, f { r with acc := x, accPoison := p, accMark := m, mks := k } = f r)
    (s : State) (e : Effect) (he : e.writesFew = true) : f (landEffect s e).core.regs = f s.core.regs := by
  cases e with
  | flags g => rfl
  | beat b =>
    obtain ⟨v, g, r, h, hr, -⟩ := beatOnly_landBeat s b
    rw [landEffect, h]
    show f r = f s.core.regs
    rw [hr]
    exact hf s.core.regs r.acc r.accPoison r.accMark s.core.regs.mks
  | zeroRow n =>
    obtain ⟨x, -, h⟩ := landEffect_zeroRow_eq s n
    rw [h]
    exact hf s.core.regs _ _ _ s.core.regs.mks
  | store a bs p =>
    obtain ⟨k, v, g, b, h⟩ := coreStore_frame s a bs p
    rw [landEffect, h]
  | special n x =>
    rw [landEffect, landSpecial_eq]
    exact hf s.core.regs s.core.regs.acc s.core.regs.accPoison s.core.regs.accMark _
  | _ => cases he

end Sys2Proof.Machine
end

section
/-! PROOFS. One rule for each register file: what it reads once a result has landed (R58, R62, R64, R73). -/

namespace Sys2Proof.Machine

/-- A written place reads what was written, and every other place what it held. -/
theorem tget_tset_at {α : Type} [DecidableEq α] (d : α) (t : Table α) (k j : Nat) (v : α) (h : twf d t = true) :
    tget d (tset d t k v) j = if k = j then v else tget d t j := by
  rw [tget_tset d t k j v h]
  exact if_congr eq_comm rfl rfl

/-- A run of values written from place `a` on. -/
theorem tget_tsetList_id {α : Type} [DecidableEq α] (d : α) (a : Nat) (xs : List α) (t : Table α) (k : Nat) (h : twf d t = true) :
    tget d (tsetList d id a xs t) k = if a ≤ k ∧ k < a + xs.length then xs.getD (k - a) d else tget d t k := by
  split
  · next hk =>
    have hread := tget_tsetList_mem d id a xs t h (fun i j _ _ hij => Nat.add_left_cancel hij) (k - a) (by omega)
    rw [id_eq, Nat.add_sub_cancel' hk.1] at hread
    rw [hread, List.getD_eq_getElem _ _ (by omega)]
  · next hk => exact tget_tsetList_ne d id a xs t k fun i hi => by rw [id_eq]; omega

section
variable (s : State) (e : Effect) (k : Nat)

theorem landEffect_s (hr : twf 0 s.core.regs.s = true) : tget 0 (landEffect s e).core.regs.s k = match e with
    | .scalar d x _ => if d = k then x else tget 0 s.core.regs.s k
    | _ => tget 0 s.core.regs.s k := by
  cases e with
  | scalar d x => exact tget_tset_at 0 _ d k x hr
  | beat | zeroRow | store | special => exact congrArg (tget 0 · k) (landEffect_keeps Regs.s (fun _ _ _ _ _ => rfl) s _ rfl)
  | _ => rfl

theorem landEffect_sPoison (hr : twf false s.core.regs.sPoison = true) : tget false (landEffect s e).core.regs.sPoison k = match e with
    | .scalar d _ b => if d = k then b else tget false s.core.regs.sPoison k
    | _ => tget false s.core.regs.sPoison k := by
  cases e with
  | scalar d _ b => exact tget_tset_at false _ d k b hr
  | beat | zeroRow | store | special => exact congrArg (tget false · k) (landEffect_keeps Regs.sPoison (fun _ _ _ _ _ => rfl) s _ rfl)
  | _ => rfl

theorem landEffect_sBad (hr : twf false s.core.regs.sBad = true) : tget false (landEffect s e).core.regs.sBad k = match e with
    | .scalar d _ _ => if d = k then false else tget false s.core.regs.sBad k
    | _ => tget false s.core.regs.sBad k := by
  cases e with
  | scalar d => exact tget_tset_at false _ d k false hr
  | beat | zeroRow | store | special => exact congrArg (tget false · k) (landEffect_keeps Regs.sBad (fun _ _ _ _ _ => rfl) s _ rfl)
  | _ => rfl

theorem landEffect_v (hr : twf 0 s.core.regs.v = true) : tget 0 (landEffect s e).core.regs.v k = match e with
    | .vector d x _ => if d = k then x else tget 0 s.core.regs.v k
    | _ => tget 0 s.core.regs.v k := by
  cases e with
  | vector d x => exact tget_tset_at 0 _ d k x hr
  | beat | zeroRow | store | special => exact congrArg (tget 0 · k) (landEffect_keeps Regs.v (fun _ _ _ _ _ => rfl) s _ rfl)
  | _ => rfl

theorem landEffect_vPoison (hr : twf false s.core.regs.vPoison = true) : tget false (landEffect s e).core.regs.vPoison k = match e with
    | .vector d _ b => if d = k then b else tget false s.core.regs.vPoison k
    | _ => tget false s.core.regs.vPoison k := by
  cases e with
  | vector d _ b => exact tget_tset_at false _ d k b hr
  | beat | zeroRow | store | special => exact congrArg (tget false · k) (landEffect_keeps Regs.vPoison (fun _ _ _ _ _ => rfl) s _ rfl)
  | _ => rfl

theorem landEffect_vBad (hr : twf false s.core.regs.vBad = true) : tget false (landEffect s e).core.regs.vBad k = match e with
    | .vector d _ _ => if d = k then false else tget false s.core.regs.vBad k
    | _ => tget false s.core.regs.vBad k := by
  cases e with
  | vector d => exact tget_tset_at false _ d k false hr
  | beat | zeroRow | store | special => exact congrArg (tget false · k) (landEffect_keeps Regs.vBad (fun _ _ _ _ _ => rfl) s _ rfl)
  | _ => rfl

theorem landEffect_p (hr : twf false s.core.regs.p = true) : tget false (landEffect s e).core.regs.p k = match e with
    | .pred d x => if d = k then x else tget false s.core.regs.p k
    | _ => tget false s.core.regs.p k := by
  cases e with
  | pred d x => exact tget_tset_at false _ d k x hr
  | beat | zeroRow | store | special => exact congrArg (tget false · k) (landEffect_keeps Regs.p (fun _ _ _ _ _ => rfl) s _ rfl)
  | _ => rfl

theorem landEffect_q (hr : twf {} s.core.regs.q = true) : tget {} (landEffect s e).core.regs.q k = match e with
    | .stream d x => if d = k then x else tget {} s.core.regs.q k
    | _ => tget {} s.core.regs.q k := by
  cases e with
  | stream d x => exact tget_tset_at {} _ d k x hr
  | beat | zeroRow | store | special => exact congrArg (tget ({} : Stream) · k) (landEffect_keeps Regs.q (fun _ _ _ _ _ => rfl) s _ rfl)
  | _ => rfl

variable (hr : TablesWf s.core.regs)
include hr

theorem landEffect_latches : tget {} (landEffect s e).core.regs.latches k = match e with
    | .latch n vec on x b => if n = k then
        (if on then { bytes := x, valid := true, vec := vec, poison := b }
         else { tget {} s.core.regs.latches k with valid := true, vec := vec }) else tget {} s.core.regs.latches k
    | _ => tget {} s.core.regs.latches k := by
  cases e with
  | latch n vec on x b =>
    have hland : tget {} (landLatch s.core.regs n vec on x b).latches k = _ := tget_tset_at ({} : Latch) _ n k _ hr.latches
    refine hland.trans (if_ctx_congr Iff.rfl (fun hk => ?_) fun _ => rfl)
    subst hk
    cases on <;> rfl
  | beat | zeroRow | store | special =>
    exact congrArg (tget ({} : Latch) · k) (landEffect_keeps Regs.latches (fun _ _ _ _ _ => rfl) s _ rfl)
  | _ => rfl

theorem landEffect_m : tget 0 (landEffect s e).core.regs.m k = match e with
    | .column l j x _ => if 64 * l + j = k then x else tget 0 s.core.regs.m k
    | .hadamard l xs => if 64 * l ≤ k ∧ k < 64 * l + xs.length then xs.getD (k - 64 * l) 0 else tget 0 s.core.regs.m k
    | _ => tget 0 s.core.regs.m k := by
  cases e with
  | column l j x => exact tget_tset_at 0 _ _ k x hr.m
  | hadamard l xs => exact tget_tsetList_id 0 _ xs _ k hr.m
  | beat | zeroRow | store | special => exact congrArg (tget 0 · k) (landEffect_keeps Regs.m (fun _ _ _ _ _ => rfl) s _ rfl)
  | _ => rfl

theorem landEffect_mPoison : tget false (landEffect s e).core.regs.mPoison k = match e with
    | .column l j _ b => if 64 * l + j = k then b else tget false s.core.regs.mPoison k
    | .hadamard l _ => if 64 * l ≤ k ∧ k < 64 * l + 64 then false else tget false s.core.regs.mPoison k
    | _ => tget false s.core.regs.mPoison k := by
  cases e with
  | column l j _ b => exact tget_tset_at false _ _ k b hr.mPoison
  | hadamard l => exact tget_tclear false _ _ _ k
  | beat | zeroRow | store | special => exact congrArg (tget false · k) (landEffect_keeps Regs.mPoison (fun _ _ _ _ _ => rfl) s _ rfl)
  | _ => rfl

theorem landEffect_mBad : tget false (landEffect s e).core.regs.mBad k = match e with
    | .column l j _ _ => if 64 * l + j = k then false else tget false s.core.regs.mBad k
    | .hadamard l _ => if 64 * l ≤ k ∧ k < 64 * l + 64 then false else tget false s.core.regs.mBad k
    | _ => tget false s.core.regs.mBad k := by
  cases e with
  | column l j => exact tget_tset_at false _ _ k false hr.mBad
  | hadamard l => exact tget_tclear false _ _ _ k
  | beat | zeroRow | store | special => exact congrArg (tget false · k) (landEffect_keeps Regs.mBad (fun _ _ _ _ _ => rfl) s _ rfl)
  | _ => rfl

theorem landEffect_zeroRow (n : Nat) : let r := (landEffect s (.zeroRow n)).core.regs
    tget 0 r.acc n = 0 ∧ tget false r.accPoison n = false ∧ tget .good r.accMark n = .good := by
  obtain ⟨x, hx, h⟩ := landEffect_zeroRow_eq s n
  rw [h]
  exact ⟨(tget_tset_same 0 _ n x hr.acc).trans hx, tget_tset_same false _ n false hr.accPoison, tget_tset_same Mark.good _ n .good hr.accMark⟩

theorem tget_specialMasks (n : Nat) (x : Scalar) (hn : 0x20 + k = n) (hk : k < 8) :
    tget 0x00400060#32 (specialMasks s.core.regs n x) k = x.truncate 32 &&& 0x007F007F#32 := by
  subst hn
  rw [specialMasks, if_neg, Nat.add_sub_cancel_left]
  · exact tget_tset_same _ _ k _ hr.mks
  · simp only [List.mem_cons, List.not_mem_nil, or_false]
    omega

omit hr in
/-- A beat or a clear of another row leaves an accumulator row. -/
theorem landEffect_otherRow (hb : ∀ b, e = .beat b → b.row ≠ k) (hz : e ≠ .zeroRow k) : let r := (landEffect s e).core.regs
    tget 0 r.acc k = tget 0 s.core.regs.acc k ∧ tget false r.accPoison k = tget false s.core.regs.accPoison k ∧
      tget .good r.accMark k = tget .good s.core.regs.accMark k := by
  cases e with
  | beat b =>
    obtain ⟨v, f, r, h, -, hr⟩ := beatOnly_landBeat s b
    rw [landEffect, h]
    exact hr k (hb b rfl)
  | zeroRow n =>
    have hn : n ≠ k := fun h => hz (h ▸ rfl)
    obtain ⟨x, -, h⟩ := landEffect_zeroRow_eq s n
    rw [h]
    exact ((rowOnly_setAcc s.core.regs n x false).trans (rowOnly_renewAcc _ n)).2 k hn
  | store a bs b =>
    obtain ⟨_, _, _, _, h⟩ := coreStore_frame s a bs b
    rw [landEffect, h]
    exact ⟨rfl, rfl, rfl⟩
  | special n x =>
    rw [landEffect, landSpecial_eq]
    exact ⟨rfl, rfl, rfl⟩
  | _ => exact ⟨rfl, rfl, rfl⟩

omit hr in
theorem landEffect_mks (h : ∀ n x, e ≠ .special n x) : (landEffect s e).core.regs.mks = s.core.regs.mks := by
  cases e with
  | beat b =>
    obtain ⟨v, f, r, h, hr, -⟩ := beatOnly_landBeat s b
    rw [landEffect, h]
    show r.mks = s.core.regs.mks
    rw [hr]
  | zeroRow n =>
    obtain ⟨x, -, h⟩ := landEffect_zeroRow_eq s n
    rw [h]
    rfl
  | store a bs b =>
    obtain ⟨_, _, _, _, h⟩ := coreStore_frame s a bs b
    rw [landEffect, h]
  | special n x => exact absurd rfl (h n x)
  | _ => rfl

end

end Sys2Proof.Machine
end

section
/-! PROOFS. A core store: the units and lines that its bytes touch, what they hold once it is put, and what each unit settles on (R177, R213, R294). -/

namespace Sys2Proof.Machine

/-! ### The bytes, units and lines of a store -/

/-- Byte `q` of staging is one of the `n` bytes from address `a`, wrapping. -/
def Covers (a n q : Nat) : Prop := ∃ k, k < n ∧ (a + k) % 2 ^ 20 = q

theorem covers_lt {a n q : Nat} (h : Covers a n q) : q < 2 ^ 20 := by
  obtain ⟨k, -, rfl⟩ := h
  exact Nat.mod_lt _ (by decide)

section
variable {a n : Nat} (ha : a < 2 ^ 20) (hn : n ≤ 2 ^ 20)
include ha hn

theorem covers_iff {q : Nat} (hq : q < 2 ^ 20) : Covers a n q ↔ (q + 2 ^ 20 - a) % 2 ^ 20 < n := by
  constructor
  · rintro ⟨k, hk, rfl⟩
    omega
  · exact fun h => ⟨(q + 2 ^ 20 - a) % 2 ^ 20, h, by omega⟩

theorem mem_unitsOf (u : Nat) : u ∈ unitsOf a n ↔ ∃ q, Covers a n q ∧ q / 8 = u := by
  rw [unitsOf]
  split
  · next h0 => simp [Covers, h0]
  · simp only [List.mem_map, List.mem_range, stageAddr, Config.stagingBytes]
    constructor
    · rintro ⟨i, hi, rfl⟩
      exact ⟨_, ⟨8 * i - a % 8, by omega, rfl⟩, by omega⟩
    · rintro ⟨q, ⟨k, hk, rfl⟩, rfl⟩
      exact ⟨(a % 8 + k) / 8, by omega, by omega⟩

theorem mem_linesOf (l : Nat) : l ∈ linesOf a n ↔ ∃ q, Covers a n q ∧ q / 32 = l := by
  rw [linesOf]
  split
  · next h0 => simp [Covers, h0]
  · simp only [List.mem_map, List.mem_range, stageAddr, Config.stagingBytes]
    constructor
    · rintro ⟨i, hi, rfl⟩
      exact ⟨_, ⟨32 * i - a % 32, by omega, rfl⟩, by omega⟩
    · rintro ⟨q, ⟨k, hk, rfl⟩, rfl⟩
      exact ⟨(a % 32 + k) / 32, by omega, by omega⟩

theorem unit_lt {u : Nat} (h : u ∈ unitsOf a n) : u < 2 ^ 17 := by
  obtain ⟨q, hq, rfl⟩ := (mem_unitsOf ha hn u).mp h
  have := covers_lt hq
  omega

theorem wholeUnit_iff {u : Nat} (hu : u < 2 ^ 17) : wholeUnit a n u = true ↔ ∀ q, q / 8 = u → Covers a n q := by
  simp only [wholeUnit, List.all_eq_true, List.mem_range, Config.stagingBytes]
  constructor
  · intro h q hq
    refine (covers_iff ha hn (by omega)).mpr ?_
    have := h (q % 8) (by omega)
    rw [show 8 * u + q % 8 = q by omega] at this
    exact of_decide_eq_true this
  · intro h i hi
    exact decide_eq_true ((covers_iff ha hn (by omega)).mp (h (8 * u + i) (by omega)))

/-- A line is written whole when each of its bytes is. -/
theorem wholeLine_iff {l : Nat} (hl : l < 2 ^ 15) :
    ((List.range 4).all fun i => wholeUnit a n (4 * l + i)) = true ↔ ∀ q, q / 32 = l → Covers a n q := by
  simp only [List.all_eq_true, List.mem_range]
  constructor
  · intro h q hq
    exact (wholeUnit_iff ha hn (by omega)).mp (h (q / 8 % 4) (by omega)) q (by omega)
  · exact fun h i hi => (wholeUnit_iff ha hn (by omega)).mpr fun q hq => h q (by omega)

end

/-! ### What a put leaves -/

/-- Entries set to one value, in any order and number. -/
theorem tget_foldl_tset {α : Type} [DecidableEq α] (d v : α) (us : List Nat) (t : Table α) (n : Nat) (hw : twf d t = true) :
    tget d (us.foldl (fun m u => tset d m u v) t) n = if n ∈ us then v else tget d t n := by
  induction us generalizing t with
  | nil => simp
  | cons u us ih =>
    rw [List.foldl_cons, ih _ (twf_tset _ _ _ _ hw), tget_tset _ _ _ _ _ hw]
    by_cases h1 : n = u <;> by_cases h2 : n ∈ us <;> simp [h1, h2]

/-- Tags of a list of lines, each computed from the tag that stands: set outright, or kept by those it does not clear. -/
theorem tget_foldl_tags (set clear : Nat → Bool) (ls : List Nat) (t : Table Bool) (l : Nat) (hw : twf false t = true) :
    tget false (ls.foldl (fun m l => tset false m l (set l || (tget false m l && !clear l))) t) l =
      if l ∈ ls then set l || (tget false t l && !clear l) else tget false t l := by
  induction ls generalizing t with
  | nil => simp
  | cons k ls ih =>
    rw [List.foldl_cons, ih _ (twf_tset _ _ _ _ hw), tget_tset _ _ _ _ _ hw]
    by_cases h1 : l = k
    · subst h1
      by_cases h2 : l ∈ ls
      · simp only [h2, if_true, List.mem_cons, true_or]
        cases set l <;> cases clear l <;> simp
      · simp [h2]
    · simp [h1]

theorem staging_of_wf {s : State} (h : Safety.wf s = true) : Safety.stagingWf s.core.staging = true := by
  have htile := wf_tile s s.cur h
  rw [State.tile, if_pos rfl] at htile
  simp only [Safety.tileWf, Bool.and_eq_true] at htile
  tauto

theorem stagingWf_iff (t : Staging) : Safety.stagingWf t = true ↔ twf 0 t.cells = true ∧ twf false t.poison = true ∧ twf .good t.marks = true := by
  simp only [Safety.stagingWf, Bool.and_eq_true, and_assoc]

section
variable (t : Staging) (ht : Safety.stagingWf t = true) (a : Nat) (bs : List Byte) (p : Bool)
include ht

theorem put_written (hn : bs.length ≤ 2 ^ 20) (k : Nat) (hk : k < bs.length) :
    tget 0 (t.put a bs p).cells ((a + k) % 2 ^ 20) = bs.getD k 0 := by
  have hread := tget_tsetList_mem 0 stageAddr a bs t.cells ((stagingWf_iff t).mp ht).1
    (fun i j hi hj hij => by simp only [stageAddr, Config.stagingBytes] at hij; omega) k hk
  rw [List.getD_eq_getElem _ _ hk]
  exact hread

omit ht in
theorem put_unwritten (q : Nat) (hq : ¬ Covers a bs.length q) : tget 0 (t.put a bs p).cells q = tget 0 t.cells q :=
  tget_tsetList_ne 0 stageAddr a bs t.cells q fun i hi h => hq ⟨i, hi, h⟩

theorem put_marks (n : Nat) : tget .good (t.put a bs p).marks n = if n ∈ unitsOf a bs.length then .good else tget .good t.marks n :=
  tget_foldl_tset Mark.good .good _ t.marks n ((stagingWf_iff t).mp ht).2.2

theorem put_poison (l : Nat) : tget false (t.put a bs p).poison l = if l ∈ linesOf a bs.length then
      (p || (t.lost a bs.length).any (fun u => u / 4 == l)) ||
        (tget false t.poison l && !(List.range 4).all fun i => wholeUnit a bs.length (4 * l + i))
    else tget false t.poison l :=
  tget_foldl_tags (fun l => p || (t.lost a bs.length).any (fun u => u / 4 == l))
    (fun l => (List.range 4).all fun i => wholeUnit a bs.length (4 * l + i)) _ t.poison l ((stagingWf_iff t).mp ht).2.1

end

/-! ### What a unit that goes back holds -/

theorem unit_byte (t : Staging) (u i : Nat) (hu : u < 2 ^ 17) (hi : i < 8) :
    (bytesOf 8 (t.unit u).toNat).getD i 0 = tget 0 t.cells (8 * u + i) := by
  have helem : elemAt 1 (t.unit u).toNat i = (tget 0 t.cells (8 * u + i)).toNat := by
    have hbytes : t.bytes (8 * u) 8 = (List.range 8).map fun i => tget 0 t.cells (8 * u + i) := by
      rw [Staging.bytes, tgetList_eq]
      refine List.map_congr_left fun i hi => ?_
      have := List.mem_range.mp hi
      rw [stageAddr, Config.stagingBytes, Nat.mod_eq_of_lt (by omega)]
    rw [Staging.unit, ofBytes, elemAt_toNat_ofElems _ _ _ _ (by simp [Staging.bytes, tgetList_length]), hbytes, List.map_map]
    rw [List.getD_eq_getElem _ _ (by simpa using hi), List.getElem_map, List.getElem_range]
    exact Nat.mod_eq_of_lt (tget 0 t.cells (8 * u + i)).isLt
  have hget : (bytesOf 8 (t.unit u).toNat).getD i 0 = BitVec.ofNat 8 ((elems 1 8 (t.unit u).toNat).getD i 0) := by
    simp [bytesOf, List.getD_eq_getElem?_getD, elems_length, hi]
  rw [hget, elems_getD _ _ _ _ hi, helem, BitVec.ofNat_toNat, BitVec.setWidth_eq]

section
variable (old now : Staging) (u : Nat) (hu : u < 2 ^ 17) (hw : Safety.stagingWf now = true)
include hu hw

theorem keepUnit_cells (q : Nat) : tget 0 (old.keepUnit now u).cells q = if q / 8 = u then tget 0 old.cells q else tget 0 now.cells q := by
  have hread := tget_tsetList_id 0 (8 * u) (bytesOf 8 (old.unit u).toNat) now.cells q ((stagingWf_iff now).mp hw).1
  rw [bytesOf_length] at hread
  refine hread.trans (if_ctx_congr (by omega) (fun hq => ?_) fun _ => rfl)
  rw [unit_byte old u _ hu (by omega), show 8 * u + (q - 8 * u) = q by omega]

omit hu in
theorem keepUnit_marks (n : Nat) : tget .good (old.keepUnit now u).marks n =
    if n = u then tget .good old.marks u else tget .good now.marks n :=
  tget_tset Mark.good now.marks u n _ ((stagingWf_iff now).mp hw).2.2

end

end Sys2Proof.Machine
end

section
/-! PROOFS. What each unit of a core store settles on, and the lines that keep their tags (R213). -/

namespace Sys2Proof.Machine

/-! ### What each unit settles on (R213) -/

theorem landedHere_mapReplaced (s : State) (u v : Nat) (f : Cmd → List UnitValue → List UnitValue) :
    landedHere (mapReplaced s u f) v = landedHere s v := by
  show (((s.core.barge.queue.map fun d => d.setReplaced u (f d (d.replaced u))).filter fun c => c.landed v).map Cmd.id) = _
  rw [List.filter_map, List.map_map]
  rfl

theorem landedHere_mapStaging (s : State) (v : Nat) (f : Staging → Staging) : landedHere (s.mapStaging f) v = landedHere s v := rfl

theorem landedHere_storeStands (old : Staging) (s : State) (u v : Nat) : landedHere (storeStands old s u) v = landedHere s v := by
  rw [storeStands, landedHere_mapStaging, landedHere_mapReplaced]

theorem landedHere_landingStands (old : Staging) (s : State) (u k v : Nat) : landedHere (landingStands old s u k) v = landedHere s v := by
  unfold landingStands
  dsimp only
  rw [landedHere_mapStaging, landedHere_mapReplaced]

theorem mem_lateLandings {s : State} {u : Nat} {y : StaleUnit} (h : y ∈ lateLandings s u) : y.unit = u ∧ y.id ∈ landedHere s u := by
  have hmem := List.mem_reverse.mp h
  have hunit := (List.takeWhile_sublist _).subset hmem
  have hid := List.mem_takeWhile_imp hmem
  exact ⟨by simpa using (List.mem_filter.mp (List.mem_reverse.mp hunit)).2, by simpa using hid⟩

/-- Where no outstanding command has landed, a core store has one place only. -/
theorem storePlaces_none {s : State} {u : Nat} (h : landedHere s u = []) : storePlaces s u = 0 := by
  have hlate : lateLandings s u = [] := List.eq_nil_iff_forall_not_mem.mpr fun y hy => by
    have := (mem_lateLandings hy).2
    rw [h] at this
    exact absurd this List.not_mem_nil
  rw [storePlaces, hlate, h]
  rfl

/-- The old values that a core read of staging may still see, but for those of one unit. -/
def seenElsewhere (t : Staging) (u : Nat) : List StaleUnit := t.unseen.filter fun y => !(y.unit == u)

theorem landingStands_staging (old : Staging) (s : State) (u k : Nat) : ∃ zs : List StaleUnit, (∀ z ∈ zs, z.unit = u) ∧
    (landingStands old s u k).core.staging = { old.keepUnit s.core.staging u with unseen := seenElsewhere s.core.staging u ++ zs } := by
  refine ⟨_, fun z hz => ?_, rfl⟩
  have hlate (y : StaleUnit) (hy : y ∈ (lateLandings s u).drop k) : y.unit = u := (mem_lateLandings (List.mem_of_mem_drop hy)).1
  revert hz hlate
  cases (lateLandings s u).drop k with
  | nil => exact fun hz => absurd hz List.not_mem_nil
  | cons e es =>
    intro hz hlate
    obtain rfl | hz := List.mem_cons.mp hz
    · exact hlate e List.mem_cons_self
    · exact hlate z (List.mem_cons_of_mem e hz)

/-- A unit keeps the core's write, or goes back to a landing of an outstanding command. -/
theorem settleStore_cases (old : Staging) (r : State × List Nat) (u : Nat) : let x := settleStore old r u
    (∀ v, landedHere x.1 v = landedHere r.1 v) ∧
    ((x.2 = r.2 ∧ x.1.core.staging = { r.1.core.staging with unseen := seenElsewhere r.1.core.staging u }) ∨
      (landedHere r.1 u ≠ [] ∧ x.2 = u :: r.2 ∧ ∃ zs : List StaleUnit, (∀ z ∈ zs, z.unit = u) ∧
        x.1.core.staging = { old.keepUnit r.1.core.staging u with unseen := seenElsewhere r.1.core.staging u ++ zs })) := by
  have hcore := chooseAmong_core r.1 (storePlaces r.1 u) (List.range (storePlaces r.1 u))
  have hlanded (v : Nat) : landedHere (r.1.chooseAmong (storePlaces r.1 u) (List.range (storePlaces r.1 u))).2 v = landedHere r.1 v := by
    rw [landedHere, hcore]
    rfl
  unfold settleStore
  dsimp only
  split
  · exact ⟨fun v => (landedHere_storeStands old _ u v).trans (hlanded v), .inl ⟨rfl, by rw [← hcore]; rfl⟩⟩
  · next hplace =>
    refine ⟨fun v => (landedHere_landingStands old _ u _ v).trans (hlanded v), .inr ⟨fun hnone => hplace ?_, rfl, ?_⟩⟩
    · rw [storePlaces_none hnone]
      rfl
    · rw [← hcore]
      exact landingStands_staging old _ u _

/-- A store part way through its units: `old` is what stood, `put` what the store put, `done` the units settled, and the second part of `r`
those of them that went back. -/
structure Settling (s : State) (old put : Staging) (done : List Nat) (r : State × List Nat) : Prop where
  wf : Safety.stagingWf r.1.core.staging = true
  landed : ∀ v, landedHere r.1 v = landedHere s v
  kept : ∀ u ∈ r.2, u ∈ done ∧ landedHere s u ≠ []
  poison : r.1.core.staging.poison = put.poison
  units : ∀ n, ((∀ q, q / 8 = n → tget 0 r.1.core.staging.cells q = tget 0 put.cells q) ∧
      tget .good r.1.core.staging.marks n = tget .good put.marks n) ∨
    (n ∈ r.2 ∧ (∀ q, q / 8 = n → tget 0 r.1.core.staging.cells q = tget 0 old.cells q) ∧
      tget .good r.1.core.staging.marks n = tget .good old.marks n)
  unseen : ∀ y : StaleUnit, landedHere s y.unit = [] → (y ∈ r.1.core.staging.unseen ↔ y ∈ put.unseen ∧ y.unit ∉ done)

theorem mem_seenElsewhere (t : Staging) (u : Nat) (y : StaleUnit) : y ∈ seenElsewhere t u ↔ y ∈ t.unseen ∧ y.unit ≠ u := by
  simp [seenElsewhere]

theorem Settling.step {s : State} {old put : Staging} {done : List Nat} {r : State × List Nat} (h : Settling s old put done r) (u : Nat)
    (hu : u < 2 ^ 17) : Settling s old put (u :: done) (settleStore old r u) := by
  obtain ⟨hlanded, ⟨hkept, hstaging⟩ | ⟨hraced, hkept, zs, hzs, hstaging⟩⟩ := settleStore_cases old r u
  · refine ⟨wf_settleStore old r u h.wf, fun v => (hlanded v).trans (h.landed v), ?_, ?_, ?_, ?_⟩
    · rw [hkept]
      exact fun v hv => ⟨List.mem_cons_of_mem u (h.kept v hv).1, (h.kept v hv).2⟩
    · rw [hstaging]
      exact h.poison
    · rw [hstaging, hkept]
      exact h.units
    · intro y hy
      rw [hstaging]
      show y ∈ seenElsewhere r.1.core.staging u ↔ _
      rw [mem_seenElsewhere, h.unseen y hy, List.mem_cons]
      tauto
  · refine ⟨wf_settleStore old r u h.wf, fun v => (hlanded v).trans (h.landed v), ?_, ?_, fun n => ?_, ?_⟩
    · rw [hkept]
      rw [h.landed] at hraced
      exact List.forall_mem_cons.mpr ⟨⟨List.mem_cons_self, hraced⟩,
        fun v hv => ⟨List.mem_cons_of_mem u (h.kept v hv).1, (h.kept v hv).2⟩⟩
    · rw [hstaging]
      exact h.poison
    · rw [hstaging, hkept]
      have hcells := keepUnit_cells old r.1.core.staging u hu h.wf
      have hmarks := keepUnit_marks old r.1.core.staging u h.wf
      by_cases hn : n = u
      · refine .inr ⟨hn ▸ List.mem_cons_self, fun q hq => ?_, ?_⟩
        · exact (hcells q).trans (if_pos (hq.trans hn))
        · exact (hmarks n).trans ((if_pos hn).trans (hn ▸ rfl))
      · have hq (q : Nat) (hq : q / 8 = n) : tget 0 (old.keepUnit r.1.core.staging u).cells q = _ :=
          (hcells q).trans (if_neg (hq ▸ hn))
        have hm : tget .good (old.keepUnit r.1.core.staging u).marks n = _ := (hmarks n).trans (if_neg hn)
        obtain ⟨hput, hmark⟩ | ⟨hmem, hold, hmark⟩ := h.units n
        · exact .inl ⟨fun q h8 => (hq q h8).trans (hput q h8), hm.trans hmark⟩
        · exact .inr ⟨List.mem_cons_of_mem u hmem, fun q h8 => (hq q h8).trans (hold q h8), hm.trans hmark⟩
    · intro y hy
      rw [hstaging]
      have hne : y.unit ≠ u := fun e => hraced (by rw [h.landed, ← e, hy])
      show y ∈ seenElsewhere r.1.core.staging u ++ zs ↔ _
      have hz : y ∉ zs := fun hyz => hne (hzs y hyz)
      rw [List.mem_append, mem_seenElsewhere, h.unseen y hy, List.mem_cons]
      tauto

theorem Settling.foldl {s : State} {old put : Staging} {done : List Nat} {r : State × List Nat} (h : Settling s old put done r)
    (us : List Nat) (hus : ∀ u ∈ us, u < 2 ^ 17) : Settling s old put (us.reverse ++ done) (us.foldl (settleStore old) r) := by
  induction us generalizing done r with
  | nil => exact h
  | cons u us ih =>
    rw [List.reverse_cons, List.append_assoc]
    exact ih (h.step u (hus u List.mem_cons_self)) fun v hv => hus v (List.mem_cons_of_mem u hv)

/-- A line keeps the tag it has, or goes back to its former one when all of its units went back. -/
theorem keepTags_poison (old now : Staging) (us : List Nat) (l : Nat) (hw : twf false now.poison = true) :
    tget false (old.keepTags now us).poison l = tget false now.poison l ∨
      ((∀ n, n / 4 = l → n ∈ us) ∧ tget false (old.keepTags now us).poison l = tget false old.poison l) := by
  have key (vs : List Nat) (p : Table Bool) (hp : twf false p = true)
      (h : tget false p l = tget false now.poison l ∨ ((∀ n, n / 4 = l → n ∈ us) ∧ tget false p l = tget false old.poison l)) :
      let q := vs.foldl (fun p u => if (List.range 4).all fun i => us.contains (u / 4 * 4 + i) then
        tset false p (u / 4) (tget false old.poison (u / 4)) else p) p
      tget false q l = tget false now.poison l ∨ ((∀ n, n / 4 = l → n ∈ us) ∧ tget false q l = tget false old.poison l) := by
    induction vs generalizing p with
    | nil => exact h
    | cons v vs ih =>
      rw [List.foldl_cons]
      split
      · next hall =>
        refine ih _ (twf_tset _ _ _ _ hp) ?_
        rw [tget_tset _ _ _ _ _ hp]
        split
        · next hl =>
          subst hl
          refine .inr ⟨fun n hn => ?_, rfl⟩
          simp only [List.all_eq_true, List.mem_range, List.contains_iff_mem] at hall
          have := hall (n % 4) (by omega)
          rwa [show v / 4 * 4 + n % 4 = n by omega] at this
        · exact h
      · exact ih p hp h
  exact key us now.poison hw (.inl rfl)

end Sys2Proof.Machine
end

section
/-! PROOFS. What a core store leaves of staging: bytes, check bits, tags, and the old values still to be seen (R177, R213, R294). -/

namespace Sys2Proof.Machine

/-! ### What a store leaves -/

/-- The units spoilt before a put change in their bytes alone, and no other unit does. -/
theorem spoilUnits_cells (us : List Nat) (s : State) (q : Nat) (hq : q / 8 ∉ us) :
    tget 0 (spoilUnits us s).core.staging.cells q = tget 0 s.core.staging.cells q := by
  induction us generalizing s with
  | nil => rfl
  | cons u us ih =>
    rw [List.mem_cons, not_or] at hq
    refine (ih _ hq.2).trans (tget_tsetList_ne 0 id (8 * u) _ s.core.staging.cells q fun i hi => ?_)
    rw [bytesOf_length] at hi
    rw [id_eq]
    omega

/-- What a store leaves of staging `g`, in terms of the commands that have landed in its units: `g'` holds what the store put where none has, and
either that or what stood where one has (R177, R213). -/
structure StoreLeaves (s : State) (a : Nat) (bs : List Byte) (p : Bool) (g g' : Staging) : Prop where
  settled : ∀ n, ((∀ k, k < bs.length → (a + k) % 2 ^ 20 / 8 = n → tget 0 g'.cells ((a + k) % 2 ^ 20) = bs.getD k 0) ∧
      (∀ q, q / 8 = n → ¬ Covers a bs.length q → (q / 8 ∉ unitsOf a bs.length ∨ tget .good g.marks n ≠ .uncorrectable) →
        tget 0 g'.cells q = tget 0 g.cells q) ∧
      tget .good g'.marks n = if n ∈ unitsOf a bs.length then .good else tget .good g.marks n) ∨
    ((n ∈ unitsOf a bs.length ∧ landedHere s n ≠ []) ∧
      (tget .good g.marks n ≠ .uncorrectable → ∀ q, q / 8 = n → tget 0 g'.cells q = tget 0 g.cells q) ∧
      tget .good g'.marks n = tget .good g.marks n)
  tags : ∀ l, tget false g'.poison l = tget false (g.put a bs p).poison l ∨
    ((∀ n, n / 4 = l → n ∈ unitsOf a bs.length ∧ landedHere s n ≠ []) ∧ tget false g'.poison l = tget false g.poison l)
  unseen : ∀ y : StaleUnit, landedHere s y.unit = [] → (y ∈ g'.unseen ↔ y ∈ g.unseen ∧ y.unit ∉ unitsOf a bs.length)

/-- Staging `old` is `g` but for the bytes of units of the range that hold an error that cannot be corrected (R10, R177). -/
structure SpoiltIn (a n : Nat) (g old : Staging) : Prop where
  marks : old.marks = g.marks
  poison : old.poison = g.poison
  unseen : old.unseen = g.unseen
  cells : ∀ q, (q / 8 ∉ unitsOf a n ∨ tget .good g.marks (q / 8) ≠ .uncorrectable) → tget 0 old.cells q = tget 0 g.cells q

theorem SpoiltIn.put {a n : Nat} {g old : Staging} (h : SpoiltIn a n g old) (b : Nat) (bs : List Byte) (p : Bool) :
    (old.put b bs p).marks = (g.put b bs p).marks ∧ (old.put b bs p).poison = (g.put b bs p).poison := by
  simp only [Staging.put, Staging.stored, Staging.lost, h.marks, h.poison, and_self]

theorem spoiltIn_spoilUnits (s : State) (a n : Nat) : SpoiltIn a n s.core.staging
    (spoilUnits ((unitsOf a n).filter fun u => tget .good s.core.staging.marks u == .uncorrectable) s).core.staging := by
  obtain ⟨k, xs, h⟩ := spoilUnits_frame ((unitsOf a n).filter fun u => tget .good s.core.staging.marks u == .uncorrectable) s
  refine ⟨by rw [h]; rfl, by rw [h]; rfl, by rw [h]; rfl, fun q hq => spoilUnits_cells _ s q fun hmem => ?_⟩
  obtain ⟨hunit, hmark⟩ := List.mem_filter.mp hmem
  exact hq.elim (fun h => h hunit) fun h => h (beq_iff_eq.mp hmark)

/-- A store spoils, puts, settles each unit, and gives back the tags of lines that went back whole (R177, R213). -/
theorem coreStore_settles (s : State) (hw : Safety.stagingWf s.core.staging = true) (a : Nat) (bs : List Byte) (p : Bool)
    (ha : a < 2 ^ 20) (hn : bs.length ≤ 2 ^ 20) : ∃ old r, SpoiltIn a bs.length s.core.staging old ∧ Safety.stagingWf old = true ∧
      Settling s old (old.put a bs p) (unitsOf a bs.length).reverse r ∧
      (coreStore s a bs p).core.staging = old.keepTags r.1.core.staging r.2 := by
  obtain ⟨v, hv⟩ := correctIf_core s (s.core.staging.mends a bs.length)
  let s0 := s.mapCtl fun c => { c with verdict := v }
  let s1 := spoilRange s0 a bs.length
  let old := s1.core.staging
  have hwold : Safety.stagingWf old = true := wf_spoilRange s0 a bs.length hw
  have hlanded (u : Nat) : landedHere s1 u = landedHere s u := by
    obtain ⟨k, xs, h⟩ := spoilUnits_frame ((unitsOf a bs.length).filter fun u => tget .good s.core.staging.marks u == .uncorrectable) s0
    rw [show s1 = _ from h]
    rfl
  have hstart : Settling s old (old.put a bs p) [] (s1.mapStaging fun t => t.put a bs p, []) :=
    ⟨wf_put old a bs p hwold, hlanded, fun u hu => absurd hu List.not_mem_nil, rfl, fun n => .inl ⟨fun _ _ => rfl, rfl⟩,
      fun y _ => ⟨fun h => ⟨h, List.not_mem_nil⟩, And.left⟩⟩
  have hend := hstart.foldl (unitsOf a bs.length) fun u hu => unit_lt ha hn hu
  rw [List.append_nil] at hend
  refine ⟨old, _, spoiltIn_spoilUnits s0 a bs.length, hwold, hend, ?_⟩
  unfold coreStore
  rw [hv]
  rfl

theorem storeLeaves_coreStore (s : State) (hw : Safety.stagingWf s.core.staging = true) (a : Nat) (bs : List Byte) (p : Bool)
    (ha : a < 2 ^ 20) (hn : bs.length ≤ 2 ^ 20) : StoreLeaves s a bs p s.core.staging (coreStore s a bs p).core.staging := by
  obtain ⟨old, r, hold, hwold, hend, hstore⟩ := coreStore_settles s hw a bs p ha hn
  obtain ⟨hputmarks, hputtags⟩ := hold.put a bs p
  have hkept (u : Nat) (hu : u ∈ r.2) : u ∈ unitsOf a bs.length ∧ landedHere s u ≠ [] :=
    ⟨List.mem_reverse.mp (hend.kept u hu).1, (hend.kept u hu).2⟩
  rw [hstore]
  refine ⟨fun n => ?_, fun l => ?_, fun y hy => ?_⟩
  · obtain ⟨hput, hmark⟩ | ⟨hmem, hunit, hmark⟩ := hend.units n
    · refine .inl ⟨fun j hj hjn => ?_, fun q hqn hq hfree => ?_, ?_⟩
      · exact (hput _ hjn).trans (put_written old hwold a bs p hn j hj)
      · exact ((hput q hqn).trans (put_unwritten old a bs p q hq)).trans (hold.cells q (hqn ▸ hfree))
      · exact hmark.trans ((congrArg (tget .good · n) hputmarks).trans (put_marks s.core.staging hw a bs p n))
    · refine .inr ⟨hkept n hmem, fun hfree q hqn => ?_, hmark.trans (congrArg (tget .good · n) hold.marks)⟩
      exact (hunit q hqn).trans (hold.cells q (.inr (hqn ▸ hfree)))
  · obtain htag | ⟨hall, htag⟩ := keepTags_poison old r.1.core.staging r.2 l ((stagingWf_iff _).mp hend.wf).2.1
    · exact .inl (htag.trans (congrArg (tget false · l) (hend.poison.trans hputtags)))
    · exact .inr ⟨fun n hnl => hkept n (hall n hnl), htag.trans (congrArg (tget false · l) hold.poison)⟩
  · have hmem := hend.unseen y hy
    rw [show (old.put a bs p).unseen = old.unseen from rfl, hold.unseen, List.mem_reverse] at hmem
    exact hmem

theorem landedHere_iff (s : State) (n : Nat) : landedHere s n ≠ [] ↔ ∃ c ∈ s.core.barge.queue, c.landed n = true := by
  simp [landedHere]

theorem landedHere_none (s : State) (n : Nat) : landedHere s n = [] ↔ ¬ ∃ c ∈ s.core.barge.queue, c.landed n = true := by
  rw [← landedHere_iff, ne_eq, not_not]

section
variable (s : State) (hw : Safety.stagingWf s.core.staging = true) (a : Nat) (bs : List Byte) (p : Bool)
  (ha : a < 2 ^ 20) (hn : bs.length ≤ 2 ^ 20)

/-- A unit of a store that holds an error that cannot be corrected and is written in part (R177). -/
def Spoilt (t : Staging) (a n u : Nat) : Prop :=
  (∃ q, Covers a n q ∧ q / 8 = u) ∧ tget .good t.marks u = .uncorrectable ∧ ∃ q, q / 8 = u ∧ ¬ Covers a n q

/-- The tag of a line that a store leaves: the data's, that of a spoilt unit, or the one that stands where the line is not written whole (R177,
R294). -/
def Tagged (t : Staging) (a n : Nat) (p : Bool) (l : Nat) : Prop :=
  p = true ∨ (∃ u, u / 4 = l ∧ Spoilt t a n u) ∨ (tget false t.poison l = true ∧ ∃ q, q / 32 = l ∧ ¬ Covers a n q)

include ha hn in
theorem mem_lost (t : Staging) (u : Nat) : u ∈ t.lost a bs.length ↔ Spoilt t a bs.length u := by
  rw [Staging.lost, List.mem_filter, Bool.and_eq_true, beq_iff_eq, Bool.not_eq_true', Spoilt, ← mem_unitsOf ha hn]
  refine and_congr_right fun hu => and_congr_right fun _ => ?_
  rw [← Bool.not_eq_true, wholeUnit_iff ha hn (unit_lt ha hn hu)]
  simp

include hw ha hn in
theorem put_tagged (l : Nat) (hl : ∃ q, Covers a bs.length q ∧ q / 32 = l) :
    tget false (s.core.staging.put a bs p).poison l = true ↔ Tagged s.core.staging a bs.length p l := by
  have hlt : l < 2 ^ 15 := by
    obtain ⟨q, hq, rfl⟩ := hl
    have := covers_lt hq
    omega
  rw [put_poison _ hw, if_pos ((mem_linesOf ha hn l).mpr hl), Bool.or_eq_true, Bool.or_eq_true, Bool.and_eq_true, Bool.not_eq_true',
    ← Bool.not_eq_true, wholeLine_iff ha hn hlt, List.any_eq_true, Tagged, or_assoc]
  refine or_congr_right (or_congr (exists_congr fun u => ?_) (and_congr_right fun _ => ?_))
  · rw [mem_lost a bs ha hn, beq_iff_eq, and_comm]
  · simp

end

end Sys2Proof.Machine
end

section
/-! PROOFS. The frame of a result as it lands (R58, R73, R74, R372, R387, R410, R427). -/

namespace Sys2Proof.Machine

/-- What a landing leaves of the device and of its tile: all but the registers, staging, the barge, the task's marks and the control
registers that a result may write (R58). -/
def LandOnly (s t : State) : Prop := t = { s with fresh := t.fresh, core := { s.core with
  ctl := { s.core.ctl with
    lc := t.core.ctl.lc, rrb := t.core.ctl.rrb, awb := t.core.ctl.awb, fflg := t.core.ctl.fflg, inseg := t.core.ctl.inseg,
    status := t.core.ctl.status, verdict := t.core.ctl.verdict },
  task := t.core.task, regs := t.core.regs, staging := t.core.staging, barge := t.core.barge } }

theorem landOnly_landEffect (s : State) (e : Effect) : LandOnly s (landEffect s e) := by
  cases e with
  | beat b =>
    obtain ⟨v, f, r, h, -⟩ := beatOnly_landBeat s b
    rw [landEffect, h]
    rfl
  | store a bs b =>
    obtain ⟨_, _, _, _, h⟩ := coreStore_frame s a bs b
    rw [landEffect, h]
    rfl
  | special n x =>
    rw [landEffect, landSpecial_eq]
    rfl
  | zeroRow n =>
    obtain ⟨x, -, h⟩ := landEffect_zeroRow_eq s n
    rw [h]
    rfl
  | _ => rfl

/-- A result that is no special register leaves the task and, but for the flags and the verdict, the control state. -/
theorem landEffect_control (s : State) (e : Effect) (h : ∀ n x, e ≠ .special n x) :
    (landEffect s e).core.task = s.core.task ∧ (landEffect s e).core.ctl =
      { s.core.ctl with fflg := (landEffect s e).core.ctl.fflg, verdict := (landEffect s e).core.ctl.verdict } := by
  cases e with
  | beat b =>
    obtain ⟨v, f, r, h, -⟩ := beatOnly_landBeat s b
    rw [landEffect, h]
    exact ⟨rfl, rfl⟩
  | store a bs b =>
    obtain ⟨_, _, _, _, h⟩ := coreStore_frame s a bs b
    rw [landEffect, h]
    exact ⟨rfl, rfl⟩
  | special n x => exact absurd rfl (h n x)
  | zeroRow n =>
    obtain ⟨x, -, h⟩ := landEffect_zeroRow_eq s n
    rw [h]
    exact ⟨rfl, rfl⟩
  | _ => exact ⟨rfl, rfl⟩

theorem landEffect_fflg (s : State) (e : Effect) (hf : ∀ f, e ≠ .flags f) (hb : ∀ b, e ≠ .beat b) (hx : ∀ x, e ≠ .special 0x10 x) :
    (landEffect s e).core.ctl.fflg = s.core.ctl.fflg := by
  cases e with
  | flags f => exact absurd rfl (hf f)
  | beat b => exact absurd rfl (hb b)
  | store a bs b =>
    obtain ⟨_, _, _, _, h⟩ := coreStore_frame s a bs b
    rw [landEffect, h]
  | special n x =>
    have hn : n ≠ 0x10 := fun h => hx x (h ▸ rfl)
    rw [landEffect, landSpecial_eq]
    exact if_neg hn
  | _ => rfl

theorem landEffect_verdict (s : State) (e : Effect) (hb : ∀ b, e ≠ .beat b) (hs : ∀ a bs b, e ≠ .store a bs b) :
    (landEffect s e).core.ctl.verdict = s.core.ctl.verdict := by
  cases e with
  | beat b => exact absurd rfl (hb b)
  | store a bs b => exact absurd rfl (hs a bs b)
  | special n x => rw [landEffect, landSpecial_eq]; rfl
  | _ => rfl

theorem landEffect_staging (s : State) (e : Effect) (hs : ∀ a bs b, e ≠ .store a bs b) :
    (landEffect s e).core.staging = s.core.staging ∧ (landEffect s e).core.barge = s.core.barge := by
  cases e with
  | beat b =>
    obtain ⟨v, f, r, h, -⟩ := beatOnly_landBeat s b
    rw [landEffect, h]
    exact ⟨rfl, rfl⟩
  | store a bs b => exact absurd rfl (hs a bs b)
  | special n x =>
    rw [landEffect, landSpecial_eq]
    exact ⟨rfl, rfl⟩
  | zeroRow n =>
    obtain ⟨x, -, h⟩ := landEffect_zeroRow_eq s n
    rw [h]
    exact ⟨rfl, rfl⟩
  | _ => exact ⟨rfl, rfl⟩

end Sys2Proof.Machine

namespace Sys2Proof.Claims

open Sys2Proof Sys2Proof.Machine

/-- What a store leaves of staging, for every unit and line: the clauses of the frame of a store. -/
theorem storeFrame (s : State) (hw : Safety.wf s = true) (a : Nat) (bs : List Byte) (b : Bool) (ha : a < 2 ^ 20) (hn : bs.length ≤ 2 ^ 20) :
    let g := s.core.staging
    let g' := (landEffect s (.store a bs b)).core.staging
    let covers := Covers a bs.length
    let unit (n : Nat) : Prop := ∃ q, covers q ∧ q / 8 = n
    let line (n : Nat) : Prop := ∃ q, covers q ∧ q / 32 = n
    let raced (n : Nat) : Prop := ∃ c ∈ s.core.barge.queue, c.landed n = true
    let tagged := Tagged g a bs.length b
    let written (n : Nat) : Prop := ∀ k, k < bs.length → (a + k) % 2 ^ 20 / 8 = n → tget 0 g'.cells ((a + k) % 2 ^ 20) = bs.getD k 0
    (∀ n, unit n → ¬ raced n → written n ∧ tget .good g'.marks n = .good) ∧
    (∀ n, unit n → raced n → tget .good g.marks n ≠ .uncorrectable →
      (written n ∧ tget .good g'.marks n = .good) ∨
      ((∀ q, q / 8 = n → tget 0 g'.cells q = tget 0 g.cells q) ∧ tget .good g'.marks n = tget .good g.marks n)) ∧
    (∀ q, ¬ covers q → ¬ Spoilt g a bs.length (q / 8) → tget 0 g'.cells q = tget 0 g.cells q) ∧
    (∀ n, ¬ unit n → tget .good g'.marks n = tget .good g.marks n) ∧
    (∀ l, line l → (∀ n, n / 4 = l → unit n → ¬ raced n) → (tget false g'.poison l = true ↔ tagged l)) ∧
    (∀ l, line l → (tget false g'.poison l = true ↔ tagged l) ∨ tget false g'.poison l = tget false g.poison l) ∧
    (∀ l, ¬ line l → tget false g'.poison l = tget false g.poison l) ∧
    (∀ y : StaleUnit, ¬ raced y.unit → (y ∈ g'.unseen ↔ y ∈ g.unseen ∧ ¬ unit y.unit)) := by
  intro g g' covers unit line raced tagged written
  have hstaging := staging_of_wf hw
  have hleaves : StoreLeaves s a bs b g g' := storeLeaves_coreStore s hstaging a bs b ha hn
  have hunit (n : Nat) : n ∈ unitsOf a bs.length ↔ unit n := mem_unitsOf ha hn n
  have hput (l : Nat) (hl : line l) : tget false (g.put a bs b).poison l = true ↔ tagged l := put_tagged s hstaging a bs b ha hn l hl
  refine ⟨fun n hu hr => ?_, fun n hu _ hfree => ?_, fun q hq hspoilt => ?_, fun n hu => ?_, fun l hl hr => ?_, fun l hl => ?_,
    fun l hl => ?_, fun y hr => ?_⟩
  · obtain ⟨hwritten, -, hmark⟩ | ⟨⟨-, hraced⟩, -⟩ := hleaves.settled n
    · exact ⟨hwritten, hmark.trans (if_pos ((hunit n).mpr hu))⟩
    · exact absurd ((landedHere_iff s n).mp hraced) hr
  · obtain ⟨hwritten, -, hmark⟩ | ⟨-, hkept, hmark⟩ := hleaves.settled n
    · exact .inl ⟨hwritten, hmark.trans (if_pos ((hunit n).mpr hu))⟩
    · exact .inr ⟨hkept hfree, hmark⟩
  · have hfree : q / 8 ∉ unitsOf a bs.length ∨ tget .good g.marks (q / 8) ≠ .uncorrectable := by
      by_contra! h
      exact hspoilt ⟨(hunit _).mp h.1, h.2, q, rfl, hq⟩
    obtain ⟨-, hkept, -⟩ | ⟨⟨hmem, -⟩, hkept, -⟩ := hleaves.settled (q / 8)
    · exact hkept q rfl hq hfree
    · exact hkept (hfree.resolve_left fun h => h hmem) q rfl
  · obtain ⟨-, -, hmark⟩ | ⟨⟨hmem, -⟩, -⟩ := hleaves.settled n
    · exact hmark.trans (if_neg fun h => hu ((hunit n).mp h))
    · exact absurd ((hunit n).mp hmem) hu
  · obtain htag | ⟨hall, -⟩ := hleaves.tags l
    · rw [htag]
      exact hput l hl
    · have hfirst := hall (4 * l) (by omega)
      exact absurd ((landedHere_iff s _).mp hfirst.2) (hr (4 * l) (by omega) ((hunit _).mp hfirst.1))
  · obtain htag | ⟨-, htag⟩ := hleaves.tags l
    · rw [htag]
      exact .inl (hput l hl)
    · exact .inr htag
  · obtain htag | ⟨-, htag⟩ := hleaves.tags l
    · exact htag.trans ((put_poison g hstaging a bs b l).trans (if_neg fun h => hl ((mem_linesOf ha hn l).mp h)))
    · exact htag
  · rw [hleaves.unseen y ((landedHere_none s _).mpr hr), hunit]

/-- Settles O58: the rule of each register file, of the control state and of a store, `storeFrame`. -/
theorem landingFrame : Obligations.LandingFrame := by
  intro s e hw t r r' c c' g g'
  have hregs := tablesWf_of_wf s hw
  have device {α} (f : State → α) : f t = f _ := congrArg f (landOnly_landEffect s e)
  refine ⟨device State.mem, device State.clock, device State.tiles, device State.gangs, device State.jobs, device (·.core.vault),
    device (·.core.isram), device (·.core.canal), device (·.core.ctl.pc), device (·.core.ctl.cyc),
    fun k => landEffect_s s e k hregs.s, fun k => landEffect_sPoison s e k hregs.sPoison, fun k => landEffect_sBad s e k hregs.sBad,
    fun k => landEffect_v s e k hregs.v, fun k => landEffect_vPoison s e k hregs.vPoison, fun k => landEffect_vBad s e k hregs.vBad,
    fun k => landEffect_p s e k hregs.p, fun k => landEffect_q s e k hregs.q, fun k => landEffect_latches s e k hregs,
    fun k => landEffect_m s e k hregs, fun k => landEffect_mPoison s e k hregs, fun k => landEffect_mBad s e k hregs,
    landEffect_otherRow s e, fun k hk => ?_, fun k => ?_, fun n x he => ?_, landEffect_control s e, fun f hf => ?_,
    landEffect_fflg s e, landEffect_verdict s e, fun a bs b he ha hn => ?_, landEffect_staging s e⟩
  · subst hk
    exact landEffect_zeroRow s hregs k
  · cases e with
    | special n x =>
      dsimp only
      split
      · next hn =>
        exact (congrArg (tget 0x00400060#32 · k) (congrArg (·.core.regs.mks) (landSpecial_eq s n x))).trans
          (tget_specialMasks s k hregs n x hn.1.symm hn.2)
      · rfl
    | _ => exact congrArg (tget 0x00400060#32 · k) (landEffect_mks s _ fun _ _ h => by cases h)
  · subst he
    have ht : t = _ := landSpecial_eq s n x
    rw [show r' = _ from congrArg (·.core.regs) ht, show c' = _ from congrArg (·.core.ctl) ht,
      show t.core.task = _ from congrArg (·.core.task) ht]
    refine ⟨fun hn => ?_, fun k hlo hhi hk => ?_, rfl, fun hn => ?_, fun hn => if_neg hn⟩
    · show { r with mks := specialMasks r n x } = r
      rw [specialMasks, if_pos hn]
    · show tget 0x00400060#32 (specialMasks r n x) k = _
      rw [specialMasks]
      split
      · rfl
      · exact tget_tset_ne _ _ _ _ _ (by omega)
    · show (specialTask s.core n).trig = true ∧ (s.core.task.trig = false → (specialTask s.core n).trigBound = s.core.barge.nextId)
      rw [specialTask, if_pos hn]
      cases htrig : s.core.task.trig with
      | true => exact ⟨htrig, Bool.noConfusion⟩
      | false => exact ⟨rfl, fun _ => rfl⟩
  · subst hf
    rfl
  · subst he
    exact storeFrame s hw a bs b ha hn

end Sys2Proof.Claims
end

section
/-! PROOFS. Results that land together: their order, the rounds of an ended task, and the trigger that may follow (R58, R62, R34, R372). -/

namespace Sys2Proof.Machine

open Claims (landOrder lastEffect)

/-! ### Landing does not depend on CYC or on the results in flight -/

/-- The tile checked out with another CYC and other results in flight. -/
def retime (s : State) (k : Nat) (rs : List Result) : State :=
  s.mapCore fun t => { t with ctl := { t.ctl with cyc := k }, results := rs }

section
variable (s : State) (k : Nat) (rs : List Result)

theorem correctIf_retime (b : Bool) : (retime s k rs).correctIf b = retime (s.correctIf b) k rs := by
  cases b <;> rfl

theorem spoilUnits_retime (us : List Nat) : spoilUnits us (retime s k rs) = retime (spoilUnits us s) k rs := by
  induction us generalizing s with
  | nil => rfl
  | cons u us ih =>
    exact ih (s.takeFree.2.mapStaging fun t => { t with cells := tsetList 0 id (8 * u) (bytesOf 8 s.takeFree.1) t.cells })

theorem chooseAmong_retime {α : Type} (cur : α) (xs : List α) :
    (retime s k rs).chooseAmong cur xs = ((s.chooseAmong cur xs).1, retime (s.chooseAmong cur xs).2 k rs) := by
  induction xs with
  | nil => rfl
  | cons x xs ih =>
    rw [State.chooseAmong, State.chooseAmong, ih]
    rfl

theorem settleStore_retime (old : Staging) (us : List Nat) (u : Nat) : settleStore old (retime s k rs, us) u =
    (retime (settleStore old (s, us) u).1 k rs, (settleStore old (s, us) u).2) := by
  have hplaces : storePlaces (retime s k rs) u = storePlaces s u := rfl
  unfold settleStore
  dsimp only
  rw [hplaces, chooseAmong_retime]
  dsimp only
  split
  · rfl
  · rfl

theorem foldl_settleStore_retime (old : Staging) (us vs : List Nat) : vs.foldl (settleStore old) (retime s k rs, us) =
    (retime (vs.foldl (settleStore old) (s, us)).1 k rs, (vs.foldl (settleStore old) (s, us)).2) := by
  induction vs generalizing s us with
  | nil => rfl
  | cons v vs ih =>
    rw [List.foldl_cons, List.foldl_cons, settleStore_retime]
    exact ih _ _

theorem coreStore_retime (a : Nat) (bs : List Byte) (p : Bool) : coreStore (retime s k rs) a bs p = retime (coreStore s a bs p) k rs := by
  have hmends : (retime s k rs).core.staging.mends a bs.length = s.core.staging.mends a bs.length := rfl
  unfold coreStore
  dsimp only
  rw [hmends, correctIf_retime]
  generalize s.correctIf (s.core.staging.mends a bs.length) = s'
  have hspoil : spoilRange (retime s' k rs) a bs.length = retime (spoilRange s' a bs.length) k rs := spoilUnits_retime s' k rs _
  rw [hspoil]
  generalize spoilRange s' a bs.length = s1
  have hput : (retime s1 k rs).mapStaging (fun t => t.put a bs p) = retime (s1.mapStaging fun t => t.put a bs p) k rs := rfl
  have hold : (retime s1 k rs).core.staging = s1.core.staging := rfl
  rw [hput, hold, foldl_settleStore_retime]
  rfl

theorem meetAcc_retime (n : Nat) : meetAcc (retime s k rs) n = retime (meetAcc s n) k rs := by
  have hmark : tget .good (retime s k rs).core.regs.accMark n = tget .good s.core.regs.accMark n := rfl
  unfold meetAcc
  rw [hmark]
  cases tget .good s.core.regs.accMark n <;> rfl

theorem landBeat_retime (b : Beat) : landBeat (retime s k rs) b = retime (landBeat s b) k rs := by
  have hmeet : (if b.reads then meetAcc (retime s k rs) b.row else retime s k rs) =
      retime (if b.reads then meetAcc s b.row else s) k rs := by
    split
    · exact meetAcc_retime s k rs b.row
    · rfl
  unfold landBeat
  dsimp only
  rw [hmeet]
  generalize (if b.reads then meetAcc s b.row else s) = t
  split
  · rfl
  · rfl

theorem landEffect_retime (e : Effect) : landEffect (retime s k rs) e = retime (landEffect s e) k rs := by
  cases e with
  | beat b => exact landBeat_retime s k rs b
  | store a bs p => exact coreStore_retime s k rs a bs p
  | special n x =>
    rw [landEffect, landEffect, landSpecial_eq, landSpecial_eq]
    rfl
  | zeroRow n =>
    obtain ⟨x, hx, h⟩ := landEffect_zeroRow_eq s n
    obtain ⟨y, hy, h'⟩ := landEffect_zeroRow_eq (retime s k rs) n
    rw [h, h', hx.trans hy.symm]
    rfl
  | _ => rfl

/-- Landing a list of results, in the order of the list. -/
def landEach (s : State) (rs : List Result) : State := rs.foldl (fun y r => landEffect y r.eff) s

theorem landEach_append (xs ys : List Result) : landEach s (xs ++ ys) = landEach (landEach s xs) ys := List.foldl_append

theorem landEach_retime (xs : List Result) : landEach (retime s k rs) xs = retime (landEach s xs) k rs := by
  induction xs generalizing s with
  | nil => rfl
  | cons x xs ih => exact (congrArg (landEach · xs) (landEffect_retime s k rs x.eff)).trans (ih _)

/-- The results that are due land in the order of landing. -/
theorem land_retime : land (retime s k rs) =
    retime (landEach s (landOrder (rs.filter fun r => decide (r.ready ≤ k)))) k (rs.filter fun r => !decide (r.ready ≤ k)) := by
  rw [← landEach_retime, landOrder, landEach_append]
  rfl

theorem retime_self : retime s s.core.ctl.cyc s.core.results = s := rfl

omit s k in
theorem not_due {at_ : Nat} {r : Result} (hr : r ∈ rs.filter fun r => !decide (r.ready ≤ at_)) : at_ + 1 ≤ r.ready := by
  have hlate := (List.mem_filter.mp hr).2
  rw [Bool.not_eq_true', decide_eq_false_iff_not] at hlate
  omega

omit s k in
/-- Of the results that are not due, those of a later CYC. -/
theorem filter_later (at_ i : Nat) : ((rs.filter fun r => !decide (r.ready ≤ at_)).filter fun r => r.ready == at_ + 1 + i) =
    rs.filter fun r => r.ready == at_ + 1 + i := by
  rw [List.filter_filter]
  refine List.filter_congr fun r _ => ?_
  rw [Bool.eq_iff_iff, Bool.and_eq_true, beq_iff_eq, Bool.not_eq_true', decide_eq_false_iff_not]
  omega

omit s k in
/-- Of the results that are not due, those past the rounds of an ended task. -/
theorem filter_flying (at_ n : Nat) : ((rs.filter fun r => !decide (r.ready ≤ at_)).filter fun r => decide (at_ + 1 + n ≤ r.ready)) =
    rs.filter fun r => decide (at_ + (n + 1) ≤ r.ready) := by
  rw [List.filter_filter]
  refine List.filter_congr fun r _ => ?_
  rw [Bool.eq_iff_iff, Bool.and_eq_true, Bool.not_eq_true', decide_eq_true_eq, decide_eq_true_eq, decide_eq_false_iff_not]
  omega

/-- The rounds of an ended task: round `i` lands the results that are due at its CYC. -/
theorem landRest_retime (n at_ : Nat) (hrs : ∀ r ∈ rs, at_ ≤ r.ready) : ∃ k',
    landRest n at_ (retime s k rs) =
      retime (landEach s (((List.range n).map fun i => rs.filter fun r => r.ready == at_ + i).flatMap landOrder)) k'
        (rs.filter fun r => decide (at_ + n ≤ r.ready)) := by
  induction n generalizing s k rs at_ with
  | zero =>
    have hall : rs.filter (fun r => decide (at_ + 0 ≤ r.ready)) = rs := List.filter_eq_self.mpr fun r hr => by simpa using hrs r hr
    rw [hall]
    exact ⟨k, rfl⟩
  | succ n ih =>
    cases hempty : rs with
    | nil =>
      refine ⟨k, ?_⟩
      have hnone : ((List.range (n + 1)).map fun i => ([] : List Result).filter fun r => r.ready == at_ + i).flatMap landOrder = [] := by
        simp [landOrder]
      rw [hnone]
      rfl
    | cons r0 rest =>
      rw [← hempty]
      have hnow : (rs.filter fun r => decide (r.ready ≤ at_)) = rs.filter fun r => r.ready == at_ + 0 :=
        List.filter_congr fun r hr => by
          have hlate := hrs r hr
          rw [Bool.eq_iff_iff, decide_eq_true_eq, beq_iff_eq]
          omega
      have hlater (i : Nat) : ((rs.filter fun r => !decide (r.ready ≤ at_)).filter fun r => r.ready == at_ + 1 + i) =
          rs.filter fun r => r.ready == at_ + (i + 1) := by
        rw [filter_later, Nat.add_assoc, Nat.add_comm 1]
      have hleft : ((rs.filter fun r => !decide (r.ready ≤ at_)).filter fun r => decide (at_ + 1 + n ≤ r.ready)) =
          rs.filter fun r => decide (at_ + (n + 1) ≤ r.ready) := filter_flying rs at_ n
      obtain ⟨k', hk'⟩ := ih (landEach s (landOrder (rs.filter fun r => decide (r.ready ≤ at_)))) at_
        (rs.filter fun r => !decide (r.ready ≤ at_)) (at_ + 1) fun r hr => by
          exact not_due _ hr
      refine ⟨k', ?_⟩
      have hround : landRest (n + 1) at_ (retime s k rs) = landRest n (at_ + 1) (land (retime s at_ rs)) := by
        rw [hempty]
        rfl
      rw [hround, land_retime, hk', ← landEach_append, hleft, hnow, List.range_succ_eq_map, List.map_cons, List.map_map, List.flatMap_cons]
      simp only [hlater]
      rfl

end

end Sys2Proof.Machine
end

section
/-! PROOFS. A trigger, seen from its tile, and what a list of results leaves (R34, R58, R62, R372). -/

namespace Sys2Proof.Machine

open Claims (landOrder lastEffect)

/-! ### A trigger, seen from its tile -/

/-- The tile checked out and the clock stand. -/
def TileKept (s t : State) : Prop := t.core = s.core ∧ t.clock = s.clock

theorem TileKept.trans {s t u : State} (a : TileKept s t) (b : TileKept t u) : TileKept s u := ⟨b.1.trans a.1, b.2.trans a.2⟩

theorem TileKept.foldl {β : Type} {f : State → β → State} (hf : ∀ s x, TileKept s (f s x)) (xs : List β) (s : State) :
    TileKept s (xs.foldl f s) := by
  induction xs generalizing s with
  | nil => exact ⟨rfl, rfl⟩
  | cons x xs ih => exact (hf s x).trans (ih _)

theorem tileKept_mapNode (s : State) (n : Nat) (f : Node → Node) : TileKept s (s.mapNode n f) := ⟨rfl, rfl⟩

theorem tileKept_becomeReady (s : State) (n : Nat) : TileKept s (becomeReady s n) := by
  unfold becomeReady
  dsimp only
  split
  · exact ⟨rfl, rfl⟩
  · exact ⟨rfl, rfl⟩

theorem tileKept_updateEdges (s : State) (src : Nat) (f : Edge → Edge) : TileKept s (updateEdges s src f) :=
  (TileKept.foldl (fun s n => tileKept_mapNode s n fun x => x.mapEdges src f) _ s).trans (.foldl tileKept_becomeReady _ _)

theorem tileKept_earlySatisfied (s : State) (src : Nat) : TileKept s (earlySatisfied s src) :=
  TileKept.trans ⟨rfl, rfl⟩ (tileKept_updateEdges _ src _)

/-- A trigger changes in its tile the task alone, whose mark of `TRIG` stands (R34). -/
theorem checkTrigger_core (s : State) : ∃ k, (checkTrigger s).core = { s.core with task := k } ∧ k.trig = s.core.task.trig ∧
    (checkTrigger s).clock = s.clock := by
  unfold checkTrigger trigger
  split
  · split
    · exact ⟨s.core.task, rfl, rfl, rfl⟩
    · dsimp only
      split
      · obtain ⟨hcore, hclock⟩ := tileKept_earlySatisfied ((s.mapTask fun t =>
          { t with triggered := true, trigBound := if t.trig then t.trigBound else s.core.barge.nextId }).mapNode s.core.task.node
            fun x => { x with untriggered := x.untriggered - 1 }) s.core.task.node
        exact ⟨_, hcore, rfl, hclock⟩
      · exact ⟨_, rfl, rfl, rfl⟩
  · exact ⟨s.core.task, rfl, rfl, rfl⟩

/-! ### What a list of results leaves -/

theorem landOnly_landEach (rs : List Result) (s : State) : LandOnly s (landEach s rs) := by
  induction rs generalizing s with
  | nil => rfl
  | cons r rs ih =>
    have h1 := landOnly_landEffect s r.eff
    have h2 : LandOnly (landEffect s r.eff) (landEach s (r :: rs)) := ih _
    unfold LandOnly at h1 h2 ⊢
    rw [h2, h1]

/-- The effect is the end of the task (R372). -/
def Effect.endsTask : Effect → Bool
  | .special m _ => m == 0x102
  | _ => false

/-- The end of the task is among the results of a list. -/
def endsTask (rs : List Result) : Bool := rs.any fun r => r.eff.endsTask

theorem landEffect_status (s : State) (e : Effect) :
    (landEffect s e).core.ctl.status = if e.endsTask then .ended else s.core.ctl.status := by
  have hother (h : ∀ n x, e ≠ .special n x) : (landEffect s e).core.ctl.status = s.core.ctl.status := by
    rw [(landEffect_control s e h).2]
  cases e with
  | special n x =>
    refine (congrArg (·.core.ctl.status) (landSpecial_eq s n x)).trans ?_
    exact if_congr beq_iff_eq.symm rfl rfl
  | _ => exact hother fun _ _ h => by cases h

theorem landEach_status (rs : List Result) (s : State) :
    (landEach s rs).core.ctl.status = if endsTask rs then .ended else s.core.ctl.status := by
  induction rs generalizing s with
  | nil => rfl
  | cons r rs ih =>
    refine (ih _).trans ?_
    rw [landEffect_status, endsTask, endsTask, List.any_cons]
    cases r.eff.endsTask with
    | false => rfl
    | true => simp

theorem mem_landOrder (rs : List Result) (r : Result) : r ∈ landOrder rs ↔ r ∈ rs := by
  cases h : r.isSpecial <;> simp [landOrder, h]

theorem endsTask_landOrder (rs : List Result) : endsTask (landOrder rs) = endsTask rs := by
  rw [Bool.eq_iff_iff, endsTask, endsTask, List.any_eq_true, List.any_eq_true]
  simp only [mem_landOrder]

/-- What a list of results leaves in a place that an invariant makes readable: the last result that writes it stands. -/
theorem landEach_last {α : Type} (read : State → α) (f : Effect → Option α) (P : State → Prop) (hP : ∀ s e, P s → P (landEffect s e))
    (hread : ∀ s e, P s → read (landEffect s e) = (f e).getD (read s)) (rs : List Result) (s : State) (h : P s) :
    read (landEach s rs) = lastEffect rs f (read s) := by
  induction rs generalizing s with
  | nil => rfl
  | cons r rs ih =>
    refine (ih _ (hP s r.eff h)).trans ?_
    rw [hread s r.eff h]
    rfl

theorem getD_ite {α : Type} (p : Prop) [Decidable p] (y old : α) : (if p then some y else none).getD old = if p then y else old := by
  split
  · rfl
  · rfl

theorem twf_landEffect_s (s : State) (e : Effect) (h : twf 0 s.core.regs.s = true) : twf 0 (landEffect s e).core.regs.s = true := by
  cases e with
  | scalar => exact twf_tset _ _ _ _ h
  | beat | zeroRow | store | special => exact (congrArg (twf 0) (landEffect_keeps Regs.s (fun _ _ _ _ _ => rfl) s _ rfl)).trans h
  | _ => exact h

theorem landEach_s (rs : List Result) (s : State) (h : twf 0 s.core.regs.s = true) (d : Nat) :
    tget 0 (landEach s rs).core.regs.s d = lastEffect rs (fun e => match e with
      | .scalar k y _ => if k = d then some y else none
      | _ => none) (tget 0 s.core.regs.s d) := by
  refine landEach_last (fun s => tget 0 s.core.regs.s d) _ (fun s => twf 0 s.core.regs.s = true) twf_landEffect_s
    (fun s e hs => (landEffect_s s e d hs).trans ?_) rs s h
  cases e with
  | scalar k y => exact (getD_ite _ _ _).symm
  | _ => rfl

theorem twf_landEffect_v (s : State) (e : Effect) (h : twf 0 s.core.regs.v = true) : twf 0 (landEffect s e).core.regs.v = true := by
  cases e with
  | vector => exact twf_tset _ _ _ _ h
  | beat | zeroRow | store | special => exact (congrArg (twf 0) (landEffect_keeps Regs.v (fun _ _ _ _ _ => rfl) s _ rfl)).trans h
  | _ => exact h

theorem landEach_v (rs : List Result) (s : State) (h : twf 0 s.core.regs.v = true) (d : Nat) :
    tget 0 (landEach s rs).core.regs.v d = lastEffect rs (fun e => match e with
      | .vector k y _ => if k = d then some y else none
      | _ => none) (tget 0 s.core.regs.v d) := by
  refine landEach_last (fun s => tget 0 s.core.regs.v d) _ (fun s => twf 0 s.core.regs.v = true) twf_landEffect_v
    (fun s e hs => (landEffect_v s e d hs).trans ?_) rs s h
  cases e with
  | vector k y => exact (getD_ite _ _ _).symm
  | _ => rfl

theorem twf_landEffect_p (s : State) (e : Effect) (h : twf false s.core.regs.p = true) : twf false (landEffect s e).core.regs.p = true := by
  cases e with
  | pred => exact twf_tset _ _ _ _ h
  | beat | zeroRow | store | special => exact (congrArg (twf false) (landEffect_keeps Regs.p (fun _ _ _ _ _ => rfl) s _ rfl)).trans h
  | _ => exact h

theorem landEach_p (rs : List Result) (s : State) (h : twf false s.core.regs.p = true) (d : Nat) :
    tget false (landEach s rs).core.regs.p d = lastEffect rs (fun e => match e with
      | .pred k y => if k = d then some y else none
      | _ => none) (tget false s.core.regs.p d) := by
  refine landEach_last (fun s => tget false s.core.regs.p d) _ (fun s => twf false s.core.regs.p = true) twf_landEffect_p
    (fun s e hs => (landEffect_p s e d hs).trans ?_) rs s h
  cases e with
  | pred k y => exact (getD_ite _ _ _).symm
  | _ => rfl

theorem twf_landEffect_q (s : State) (e : Effect) (h : twf {} s.core.regs.q = true) : twf {} (landEffect s e).core.regs.q = true := by
  cases e with
  | stream => exact twf_tset _ _ _ _ h
  | beat | zeroRow | store | special => exact (congrArg (twf ({} : Stream)) (landEffect_keeps Regs.q (fun _ _ _ _ _ => rfl) s _ rfl)).trans h
  | _ => exact h

theorem landEach_q (rs : List Result) (s : State) (h : twf {} s.core.regs.q = true) (d : Nat) :
    tget {} (landEach s rs).core.regs.q d = lastEffect rs (fun e => match e with
      | .stream k y => if k = d then some y else none
      | _ => none) (tget {} s.core.regs.q d) := by
  refine landEach_last (fun s => tget ({} : Stream) s.core.regs.q d) _ (fun s => twf ({} : Stream) s.core.regs.q = true) twf_landEffect_q
    (fun s e hs => (landEffect_q s e d hs).trans ?_) rs s h
  cases e with
  | stream k y => exact (getD_ite _ _ _).symm
  | _ => rfl

end Sys2Proof.Machine
end

section
/-! PROOFS. One `RESULT_LAND`: the results that land, in their order, and the tile after them (R58, R62, R74, R372). -/

namespace Sys2Proof.Machine

open Claims (landOrder lastEffect)

/-! ### `RESULT_LAND` -/

/-- The results that are due. -/
def dueNow (x : State) : List Result := x.core.results.filter fun r => decide (r.ready ≤ x.core.ctl.cyc)

/-- The results that one `RESULT_LAND` lands, by the CYC at which they land (R58, R372; log entry 21). -/
def landGroups (x : State) : List (List Result) :=
  if endsTask (dueNow x) then
    dueNow x :: (List.range 66).map fun k => x.core.results.filter fun r => r.ready == x.core.ctl.cyc + 1 + k
  else [dueNow x]

/-- The same results in the order of landing. -/
def landedOrder (x : State) : List Result := (landGroups x).flatMap landOrder

/-- The results that stay in flight. -/
def stillFlying (x : State) : List Result :=
  x.core.results.filter fun r => decide (x.core.ctl.cyc + (if endsTask (dueNow x) then 66 else 0) < r.ready)

theorem land_eq (x : State) : land x = retime (landEach x (landOrder (dueNow x))) x.core.ctl.cyc
    (x.core.results.filter fun r => !decide (r.ready ≤ x.core.ctl.cyc)) := land_retime x x.core.ctl.cyc x.core.results

theorem landEach_cyc (x : State) (rs : List Result) : (landEach x rs).core.ctl.cyc = x.core.ctl.cyc := by
  rw [landOnly_landEach rs x]

theorem landEach_clock (x : State) (rs : List Result) : (landEach x rs).clock = x.clock := by
  rw [landOnly_landEach rs x]

theorem landEach_canal (x : State) (rs : List Result) : (landEach x rs).core.canal = x.core.canal := by
  rw [landOnly_landEach rs x]

/-- An ended task's results all land, those of 66 cycles on (R84, R372). -/
theorem landAll_eq (x y : State) :
    landAll (retime y x.core.ctl.cyc (x.core.results.filter fun r => !decide (r.ready ≤ x.core.ctl.cyc))) =
      retime (landEach y (((List.range 66).map fun k => x.core.results.filter fun r => r.ready == x.core.ctl.cyc + 1 + k).flatMap landOrder))
        x.core.ctl.cyc (x.core.results.filter fun r => decide (x.core.ctl.cyc + 66 < r.ready)) := by
  obtain ⟨k, h⟩ := landRest_retime y x.core.ctl.cyc (x.core.results.filter fun r => !decide (r.ready ≤ x.core.ctl.cyc)) 66
    (x.core.ctl.cyc + 1) fun r hr => not_due _ hr
  simp only [filter_later] at h
  rw [filter_flying] at h
  rw [landAll]
  show (landRest 66 (x.core.ctl.cyc + 1) _).mapCtl _ = _
  rw [h]
  rfl

/-- The end of issue lands what is in flight, empties the receive latches, and may taint the gang (R372, R373). -/
theorem endIssue_core (s : State) : (endIssue s).core = { (landAll s).core with canal := { (landAll s).core.canal with latches := [] } } ∧
    (endIssue s).clock = (landAll s).clock := by
  unfold endIssue
  dsimp only
  split
  · exact ⟨rfl, rfl⟩
  · exact ⟨rfl, rfl⟩

theorem retime_core (t : State) (k : Nat) (rs : List Result) (h : t.core.ctl.cyc = k) :
    (retime t k rs).core = { t.core with results := rs } := by
  subst h
  rfl

/-- What `RESULT_LAND` leaves of a task that runs or waits: the effects in order, the results still in flight, and at the end of the task empty
receive latches; the trigger that may follow changes the task's record alone. -/
theorem landHere_core (x : State) (hs : x.core.ctl.status ≠ .ended) : ∃ k, (landHere x).core =
    { (landEach x (landedOrder x)).core with
      results := stillFlying x, task := k,
      canal := { x.core.canal with latches := if endsTask (dueNow x) then [] else x.core.canal.latches } } ∧
      k.trig = (landEach x (landedOrder x)).core.task.trig ∧ (landHere x).clock = x.clock := by
  have hstatus : (land x).core.ctl.status = if endsTask (dueNow x) then .ended else x.core.ctl.status := by
    rw [land_eq, ← endsTask_landOrder]
    exact landEach_status _ x
  have hcyc := landEach_cyc x (landedOrder x)
  have hclock := landEach_clock x (landedOrder x)
  have hcanal := landEach_canal x (landedOrder x)
  unfold landHere
  dsimp only
  cases hends : endsTask (dueNow x) with
  | false =>
    have horder : landOrder (dueNow x) = landedOrder x := by simp [landedOrder, landGroups, hends]
    have hfly : (x.core.results.filter fun r => !decide (r.ready ≤ x.core.ctl.cyc)) = stillFlying x := by
      rw [stillFlying, hends]
      refine List.filter_congr fun r _ => ?_
      rw [Bool.eq_iff_iff]
      simp
    rw [hends] at hstatus
    rw [hstatus, if_neg Bool.false_ne_true, if_neg hs, land_eq, horder, hfly]
    obtain ⟨k, hcore, htrig, hckept⟩ := checkTrigger_core (retime (landEach x (landedOrder x)) x.core.ctl.cyc (stillFlying x))
    refine ⟨k, ?_, htrig, hckept.trans hclock⟩
    rw [hcore, if_neg Bool.false_ne_true, retime_core _ _ _ hcyc, ← hcanal]
  | true =>
    have horder : landEach (landEach x (landOrder (dueNow x))) (((List.range 66).map fun k =>
        x.core.results.filter fun r => r.ready == x.core.ctl.cyc + 1 + k).flatMap landOrder) = landEach x (landedOrder x) := by
      rw [← landEach_append, landedOrder, landGroups, hends, if_pos rfl, List.flatMap_cons]
    have hfly : (x.core.results.filter fun r => decide (x.core.ctl.cyc + 66 < r.ready)) = stillFlying x := by
      rw [stillFlying, hends]
      rfl
    rw [hends] at hstatus
    rw [hstatus, if_pos rfl, if_pos rfl]
    obtain ⟨hissue, hiclock⟩ := endIssue_core (land x)
    have hland : landAll (land x) = retime (landEach x (landedOrder x)) x.core.ctl.cyc (stillFlying x) := by
      rw [land_eq, landAll_eq, horder, hfly]
    obtain ⟨k, hcore, htrig, hckept⟩ := checkTrigger_core (endIssue (land x))
    rw [hland] at hissue hiclock
    rw [hissue] at hcore htrig
    refine ⟨k, ?_, htrig, (hckept.trans hiclock).trans hclock⟩
    rw [hcore, if_pos rfl, retime_core _ _ _ hcyc, ← hcanal]

end Sys2Proof.Machine
end

section
/-! PROOFS. The statement of results and waits, from the landing of a task's results and from what an ended wait orders (R58, R206, R446). -/

namespace Sys2Proof.Machine

open Claims (landOrder lastEffect)

theorem endsTask_landedOrder (x : State) : endsTask (landedOrder x) = endsTask (dueNow x) := by
  cases hends : endsTask (dueNow x) with
  | false =>
    rw [← hends, ← endsTask_landOrder (dueNow x)]
    simp [landedOrder, landGroups, hends]
  | true =>
    rw [endsTask, List.any_eq_true] at hends ⊢
    obtain ⟨r, hr, hend⟩ := hends
    refine ⟨r, List.mem_flatMap.mpr ⟨dueNow x, ?_, (mem_landOrder _ r).mpr hr⟩, hend⟩
    unfold landGroups
    split
    · exact List.mem_cons_self
    · exact List.mem_singleton_self _

theorem resultDue_iff (x : State) : resultDue x = true ↔
    (x.core.ctl.status = .running ∨ x.core.ctl.status = .waiting) ∧ dueNow x ≠ [] := by
  simp [resultDue, dueNow]

/-! ### What an ended wait orders -/

theorem pastClosure_extends (t : Table (List Nat)) (n : Nat) (xs : List Nat) (k : Nat) (h : k ∈ xs) : k ∈ pastClosure t n xs := by
  induction n generalizing xs with
  | zero => exact h
  | succ n ih =>
    refine ih _ ?_
    split
    · exact List.mem_append_left _ h
    · exact h

/-- A token and every command that it is recorded to come after (R206). -/
theorem pastClosure_token (t : Table (List Nat)) (id k : Nat) (h : k = id ∨ k ∈ tget [] t id) : k ∈ pastClosure t (id + 1) [id] := by
  rw [pastClosure, if_pos (by simp)]
  refine pastClosure_extends _ _ _ _ ?_
  rcases h with rfl | h
  · exact List.mem_append_left _ (List.mem_singleton_self _)
  · exact List.mem_append_right _ h

theorem mem_dropSeen {α : Type} (at_ : α → Nat) (seen : α → Bool) (xs : List α) (y : α) (h : y ∈ dropSeen at_ seen xs) :
    y ∈ xs ∧ seen y = false := by
  induction xs with
  | nil => exact absurd h List.not_mem_nil
  | cons x xs ih =>
    rw [dropSeen] at h
    split at h
    · exact ⟨List.mem_cons_of_mem x (ih h).1, (ih h).2⟩
    · next hany =>
      obtain rfl | h := List.mem_cons.mp h
      · refine ⟨List.mem_cons_self, Bool.eq_false_iff.mpr fun hseen => hany ?_⟩
        exact List.any_eq_true.mpr ⟨y, List.mem_cons_self, by simp [hseen]⟩
      · exact ⟨List.mem_cons_of_mem x (ih h).1, (ih h).2⟩

/-- An ended wait takes old values from those that may still be seen, and no more of the tile but the tokens it has observed. -/
theorem observe_frame (x : State) (o : WaitFor) : ∃ os us, observe x o =
    (x.mapBarge fun b => { b with observed := os }).mapStaging (fun g => { g with unseen := us }) ∧
      ∀ y ∈ us, y ∈ x.core.staging.unseen ∧ ∀ id, o = .token id → y.id ≠ id ∧ y.id ∉ tget [] x.core.barge.past id := by
  cases o with
  | barrier b k => exact ⟨x.core.barge.observed, x.core.staging.unseen, rfl, fun y hy => ⟨hy, fun _ h => by cases h⟩⟩
  | token id =>
    refine ⟨_, _, rfl, fun y hy => ?_⟩
    obtain ⟨hmem, hseen⟩ := mem_dropSeen _ _ _ y hy
    have hold : y.id ∉ pastClosure x.core.barge.past (id + 1) [id] := by simpa using hseen
    refine ⟨hmem, fun id' h => ?_⟩
    cases h
    exact ⟨fun e => hold (pastClosure_token _ _ _ (.inl e)), fun e => hold (pastClosure_token _ _ _ (.inr e))⟩
  | pointer id n =>
    unfold observe
    dsimp only
    split
    · exact ⟨x.core.barge.observed, x.core.staging.unseen, rfl, fun y hy => ⟨hy, fun _ h => by cases h⟩⟩
    · exact ⟨x.core.barge.observed, _, rfl, fun y hy => ⟨(mem_dropSeen _ _ _ y hy).1, fun _ h => by cases h⟩⟩

theorem waitOver_met (x : State) (w : Wait) (t : Nat) (hs : x.core.ctl.status = .waiting) (hh : (x.gang x.core.task.gid).held = false)
    (hw : x.core.ctl.wait = some w) (ht : w.met = some t) (hlt : t < x.clock) : waitOver x = true := by
  simp [waitOver, hs, hh, hw, ht, hlt]

theorem exec_resultLand (s : State) (n : Nat) (h : resultDue (s.select n) = true) :
    exec (.resultLand n) s = .next ((landHere (s.select n)).select s.cur) := by
  show Host.Outcome.next (s.onTile n fun s => if resultDue s then landHere s else s) = _
  rw [State.onTile, if_pos h]

theorem exec_waitEnd (s : State) (n : Nat) (w : Wait) (h : waitOver (s.select n) = true) (hw : (s.select n).core.ctl.wait = some w) :
    exec (.waitEnd n) s = .next ((endWait (observe (s.select n) w.on)).select s.cur) := by
  show Host.Outcome.next (s.onTile n fun s => if waitOver s then
    match s.core.ctl.wait with
    | some w => endWait (observe s w.on)
    | none => s
    else s) = _
  rw [State.onTile, if_pos h, hw]

end Sys2Proof.Machine

namespace Sys2Proof.Claims

open Sys2Proof Sys2Proof.Machine

/-- Settles O33: the results land as `landHere_core` says, and an ended wait orders what `observe_frame` says. -/
theorem resultsAndWaits : Obligations.ResultsAndWaits := by
  intro s n hw x c rs ends groups order t
  have hregs : TablesWf x.core.regs := tablesWf_select s n hw
  refine ⟨fun hstatus hdue => ?_, fun w t hwaiting hheld hwait hmet hlt => ?_⟩
  · have hrunning : c.status ≠ .ended := by rcases hstatus with h | h <;> rw [h] <;> exact Status.noConfusion
    obtain ⟨k, hcore, htrig, hclock⟩ := landHere_core x hrunning
    refine ⟨landHere x, exec_resultLand s n ((resultDue_iff x).mpr ⟨hstatus, hdue⟩), ?_⟩
    dsimp only
    rw [hcore, hclock]
    refine ⟨rfl, landEach_s _ x hregs.s, landEach_v _ x hregs.v, landEach_p _ x hregs.p, landEach_q _ x hregs.q, rfl, rfl, ?_, ?_, rfl,
      htrig, rfl, ?_, rfl⟩
    · exact congrArg (·.core.vault) (landOnly_landEach (landedOrder x) x)
    · exact congrArg (·.core.isram) (landOnly_landEach (landedOrder x) x)
    · show (landEach x (landedOrder x)).core.ctl.status = .ended ↔ endsTask (dueNow x) = true
      rw [landEach_status, endsTask_landedOrder]
      cases endsTask (dueNow x) with
      | false => exact ⟨fun h => absurd h hrunning, Bool.noConfusion⟩
      | true => exact ⟨fun _ => rfl, fun _ => rfl⟩
  · obtain ⟨hxclock, -, hxgangs, -⟩ := select_frame s n
    obtain ⟨os, us, hobserve, hus⟩ := observe_frame x w.on
    have hover : waitOver x = true :=
      waitOver_met x w t hwaiting (by rw [State.gang, hxgangs]; exact hheld) hwait hmet (by rw [hxclock]; exact hlt)
    refine ⟨endWait (observe x w.on), exec_waitEnd s n w hover hwait, ?_⟩
    rw [hobserve]
    exact ⟨rfl, rfl, rfl, rfl, rfl, hus⟩

end Sys2Proof.Claims
end
